-- ==== Sys2Proof/Word.lean ====
section
/-! DEFINITION. The word types of the machine (R4, R25), the fields of an instruction word
(R40, R47 to R50, R53) as constructors and records, and sparse tables in one canonical form. -/

namespace Sys2Proof

/-- One byte of memory. -/
abbrev Byte := BitVec 8
/-- A 32-bit register or memory word (R25). -/
abbrev Word := BitVec 32
/-- A 64-bit value or virtual address (R28). -/
abbrev Word64 := BitVec 64
/-- A 128-bit value, four consecutive registers or 16 bytes of memory. -/
abbrev Word128 := BitVec 128
/-- One bit for each of the 32 lanes of a warp (R187). -/
abbrev LaneMask := BitVec 32

/-- The lane condition of a word (R49). -/
inductive Cond where
  | always | eq | ne | hs | lo | mi | pl | vs | vc | hi | ls | ge | lt | gt | le
  deriving DecidableEq, Repr

/-- An operand of a word, by its kind (R48). An operand field that is not used is `lane 0` (R47). -/
inductive Src where
  /-- Lane register vN, or the pair or quad that begins there. -/
  | lane (n : BitVec 8)
  /-- Uniform register wN. -/
  | uni (n : BitVec 6)
  /-- A signed byte. -/
  | imm (b : BitVec 8)
  /-- Lane mask m0 to m7, read as a uniform value. -/
  | mask (k : BitVec 3)
  /-- The literal, sign-extended to a 64-bit operand. -/
  | litS
  /-- The literal, zero-extended to a 64-bit operand. -/
  | litZ
  /-- Constant zero. -/
  | zero
  /-- The lane's index. -/
  | laneIdx
  deriving DecidableEq, Repr

/-- The fields of format A (R47) but for the opcode and the length; `lit` holds the literal of a
96-bit word. -/
structure FmtA where
  cond : Cond
  fsel : Bool
  wcc  : Bool
  neg  : Bool
  md   : BitVec 8
  dst  : BitVec 8
  sa   : Src
  sb   : Src
  sc   : Src
  lit  : Option Word
  deriving DecidableEq, Repr

/-- The upper half of a 128-bit word (R53). -/
structure Upper where
  ext    : BitVec 22
  racq   : Bool
  gsel   : BitVec 2
  rch    : BitVec 4
  offset : BitVec 24
  space  : BitVec 3
  evp    : BitVec 3
  scope  : BitVec 3
  ord    : BitVec 2
  deriving DecidableEq, Repr

/-- A compact operation of the PAIR word (R50). -/
structure Compact where
  neg : Bool
  rm  : BitVec 2
  sc  : BitVec 8
  kb  : Bool
  sb  : BitVec 8
  sa  : BitVec 8
  dst : BitVec 8
  cop : BitVec 6
  deriving DecidableEq, Repr

/-- A clause header (R40); the flag fields are none for 0xF. -/
structure Header where
  wait  : BitVec 12
  flag0 : Option Nat
  flag1 : Option Nat
  count : Nat
  yield : Bool
  deriving DecidableEq, Repr

/-- A place in a base address register's range (R521): the register's number and the offset in bytes. -/
structure BarPlace where
  bar    : Nat
  offset : Nat
  deriving DecidableEq, Repr

/-- The length of a NOP (R39). -/
inductive NopLen where
  | w64 | w96 | w128
  deriving DecidableEq, Repr

/-- A table from numbers to values: keys strictly rising, and no entry equal to the value that an
unlisted key reads as. -/
abbrev Sparse (α : Type) := List (Nat × α)

/-- The value at a key; `d` where the key is not listed. -/
def Sparse.get {α : Type} (d : α) : Sparse α → Nat → α
  | [], _ => d
  | (k, v) :: m, a => if a = k then v else Sparse.get d m a

/-- A value put at a key, before the entries of greater keys. -/
def Sparse.put {α : Type} : Sparse α → Nat → α → Sparse α
  | [], a, x => [(a, x)]
  | (k, v) :: m, a, x =>
    if a = k then (a, x) :: m else if a < k then (a, x) :: (k, v) :: m else (k, v) :: Sparse.put m a x

/-- The entries but that of a key. -/
def Sparse.drop {α : Type} : Sparse α → Nat → Sparse α
  | [], _ => []
  | (k, v) :: m, a => if a = k then Sparse.drop m a else (k, v) :: Sparse.drop m a

/-- The table with one value changed, in the canonical form. -/
def Sparse.set {α : Type} [DecidableEq α] (d : α) (m : Sparse α) (a : Nat) (x : α) : Sparse α :=
  if x = d then m.drop a else m.put a x

/-- Keys are strictly rising from `lo` on, and no value is the default. -/
def Sparse.wfFrom {α : Type} [DecidableEq α] (d : α) : Nat → Sparse α → Bool
  | _, [] => true
  | lo, (k, v) :: m => decide (lo ≤ k) && decide (v ≠ d) && Sparse.wfFrom d (k + 1) m

/-- The canonical form. -/
def Sparse.wf {α : Type} [DecidableEq α] (d : α) (m : Sparse α) : Bool := Sparse.wfFrom d 0 m

end Sys2Proof
end

