-- ==== Sys2Proof/Syntax.lean ====
section
/-! DEFINITION. The instructions: one constructor for every row of spec/opcode_table.json. A word
carries the fields of format A (R47) and, where it is 128 bits long, of the upper half (R53). A row
without an encoding is an event: a step that an agent other than a warp takes, with plain data that
says which one. Numbers of warps, workgroups and operations are the model's own identities. -/

namespace Sys2Proof

set_option maxRecDepth 8000

/-- An instruction word or an event. -/
inductive Instr where
  /-- NOP (R131). -/
  | nop (len : NopLen)
  /-- BRA (R115). -/
  | bra (f : FmtA)
  /-- BRU (R116). -/
  | bru (f : FmtA)
  /-- BRANY (R117). -/
  | brany (f : FmtA)
  /-- BRALL (R117). -/
  | brall (f : FmtA)
  /-- BRX (R119). -/
  | brx (f : FmtA)
  /-- CALL (R118). -/
  | call (f : FmtA)
  /-- CALLX (R119). -/
  | callx (f : FmtA)
  /-- RET (R119). -/
  | ret (f : FmtA)
  /-- EXIT (R120). -/
  | exit (f : FmtA)
  /-- RCB_ARM (R122). -/
  | rcbArm (f : FmtA)
  /-- RCB_WAIT (R123). -/
  | rcbWait (f : FmtA)
  /-- RCB_CLR (R124). -/
  | rcbClr (f : FmtA)
  /-- YIELD (R125). -/
  | yield (f : FmtA)
  /-- PRIO_SET (R127). -/
  | prioSet (f : FmtA)
  /-- PRIO_GET (R128). -/
  | prioGet (f : FmtA)
  /-- SRD (R129). -/
  | srd (f : FmtA)
  /-- SRD_64 (R129). -/
  | srd64 (f : FmtA)
  /-- SLEEP (R126). -/
  | sleep (f : FmtA)
  /-- LDPC (R130). -/
  | ldpc (f : FmtA)
  /-- IADD (R140). -/
  | iadd (f : FmtA)
  /-- IADD_64 (R140). -/
  | iadd64 (f : FmtA)
  /-- ISUB (R140). -/
  | isub (f : FmtA)
  /-- ISUB_64 (R140). -/
  | isub64 (f : FmtA)
  /-- IADDC (R141). -/
  | iaddc (f : FmtA)
  /-- ISUBB (R141). -/
  | isubb (f : FmtA)
  /-- IADD3 (R142). -/
  | iadd3 (f : FmtA)
  /-- LEA (R143). -/
  | lea (f : FmtA)
  /-- IMUL_LO (R144). -/
  | imulLo (f : FmtA)
  /-- IMUL_HI (R144). -/
  | imulHi (f : FmtA)
  /-- IMUL_WIDE (R144). -/
  | imulWide (f : FmtA)
  /-- IMAD_LO (R144). -/
  | imadLo (f : FmtA)
  /-- IMAD_HI (R144). -/
  | imadHi (f : FmtA)
  /-- IMAD_WIDE (R144). -/
  | imadWide (f : FmtA)
  /-- IDIV (R145). -/
  | idiv (f : FmtA)
  /-- IREM (R145). -/
  | irem (f : FmtA)
  /-- IABS (R146). -/
  | iabs (f : FmtA)
  /-- INEG (R146). -/
  | ineg (f : FmtA)
  /-- IMIN (R147). -/
  | imin (f : FmtA)
  /-- IMAX (R147). -/
  | imax (f : FmtA)
  /-- IMIN_64 (R147). -/
  | imin64 (f : FmtA)
  /-- IMAX_64 (R147). -/
  | imax64 (f : FmtA)
  /-- ICMP (R148). -/
  | icmp (f : FmtA)
  /-- ICMP_64 (R148). -/
  | icmp64 (f : FmtA)
  /-- ISETM (R149). -/
  | isetm (f : FmtA)
  /-- SEL (R150). -/
  | sel (f : FmtA)
  /-- SEL_64 (R150). -/
  | sel64 (f : FmtA)
  /-- MOV (R151). -/
  | mov (f : FmtA)
  /-- MOV_64 (R151). -/
  | mov64 (f : FmtA)
  /-- MOVW (R152). -/
  | movw (f : FmtA)
  /-- VADIE (R153). -/
  | vadie (f : FmtA)
  /-- IDP4 (R154). -/
  | idp4 (f : FmtA)
  /-- AND (R155). -/
  | and (f : FmtA)
  /-- OR (R155). -/
  | or (f : FmtA)
  /-- XOR (R155). -/
  | xor (f : FmtA)
  /-- ANDN (R155). -/
  | andn (f : FmtA)
  /-- LOP3 (R155). -/
  | lop3 (f : FmtA)
  /-- SHL (R156). -/
  | shl (f : FmtA)
  /-- SHR (R156). -/
  | shr (f : FmtA)
  /-- SAR (R156). -/
  | sar (f : FmtA)
  /-- ROT (R156). -/
  | rot (f : FmtA)
  /-- SHL_64 (R156). -/
  | shl64 (f : FmtA)
  /-- SHR_64 (R156). -/
  | shr64 (f : FmtA)
  /-- SAR_64 (R156). -/
  | sar64 (f : FmtA)
  /-- BFX (R157). -/
  | bfx (f : FmtA)
  /-- BFI (R157). -/
  | bfi (f : FmtA)
  /-- POPC (R158). -/
  | popc (f : FmtA)
  /-- CLZ (R158). -/
  | clz (f : FmtA)
  /-- CTZ (R158). -/
  | ctz (f : FmtA)
  /-- BREV (R158). -/
  | brev (f : FmtA)
  /-- BPERM (R159). -/
  | bperm (f : FmtA)
  /-- SAD (R154). -/
  | sad (f : FmtA)
  /-- FADD_F32 (R168). -/
  | faddF32 (f : FmtA)
  /-- FADD_F16 (R168). -/
  | faddF16 (f : FmtA)
  /-- FADD_BF16 (R168). -/
  | faddBf16 (f : FmtA)
  /-- FMUL_F32 (R168). -/
  | fmulF32 (f : FmtA)
  /-- FMUL_F16 (R168). -/
  | fmulF16 (f : FmtA)
  /-- FMUL_BF16 (R168). -/
  | fmulBf16 (f : FmtA)
  /-- FFMA_F32 (R168). -/
  | ffmaF32 (f : FmtA)
  /-- FFMA_F16 (R168). -/
  | ffmaF16 (f : FmtA)
  /-- FFMA_BF16 (R168). -/
  | ffmaBf16 (f : FmtA)
  /-- FMIN_F32 (R171). -/
  | fminF32 (f : FmtA)
  /-- FMIN_F16 (R171). -/
  | fminF16 (f : FmtA)
  /-- FMIN_BF16 (R171). -/
  | fminBf16 (f : FmtA)
  /-- FMAX_F32 (R171). -/
  | fmaxF32 (f : FmtA)
  /-- FMAX_F16 (R171). -/
  | fmaxF16 (f : FmtA)
  /-- FMAX_BF16 (R171). -/
  | fmaxBf16 (f : FmtA)
  /-- FCMP_F32 (R167). -/
  | fcmpF32 (f : FmtA)
  /-- FCMP_F16 (R167). -/
  | fcmpF16 (f : FmtA)
  /-- FCMP_BF16 (R167). -/
  | fcmpBf16 (f : FmtA)
  /-- FSETM_F32 (R173). -/
  | fsetmF32 (f : FmtA)
  /-- FSETM_F16 (R173). -/
  | fsetmF16 (f : FmtA)
  /-- FSETM_BF16 (R173). -/
  | fsetmBf16 (f : FmtA)
  /-- FCLASS_F32 (R174). -/
  | fclassF32 (f : FmtA)
  /-- FCLASS_F16 (R174). -/
  | fclassF16 (f : FmtA)
  /-- FCLASS_BF16 (R174). -/
  | fclassBf16 (f : FmtA)
  /-- FRND_F32 (R175). -/
  | frndF32 (f : FmtA)
  /-- FRND_F16 (R175). -/
  | frndF16 (f : FmtA)
  /-- FRND_BF16 (R175). -/
  | frndBf16 (f : FmtA)
  /-- FLDEXP_F32 (R176). -/
  | fldexpF32 (f : FmtA)
  /-- FCPYS_F32 (R177). -/
  | fcpysF32 (f : FmtA)
  /-- FMED3_F32 (R172). -/
  | fmed3F32 (f : FmtA)
  /-- FDOT2_BF16 (R170). -/
  | fdot2Bf16 (f : FmtA)
  /-- PAIR (R52). -/
  | pair (x y : Compact)
  /-- HADD2_F16 (R169). -/
  | hadd2F16 (f : FmtA)
  /-- HADD2_BF16 (R169). -/
  | hadd2Bf16 (f : FmtA)
  /-- HMUL2_F16 (R169). -/
  | hmul2F16 (f : FmtA)
  /-- HMUL2_BF16 (R169). -/
  | hmul2Bf16 (f : FmtA)
  /-- HFMA2_F16 (R169). -/
  | hfma2F16 (f : FmtA)
  /-- HFMA2_BF16 (R169). -/
  | hfma2Bf16 (f : FmtA)
  /-- FRCP_F32 (R178). -/
  | frcpF32 (f : FmtA)
  /-- FRSQ_F32 (R178). -/
  | frsqF32 (f : FmtA)
  /-- FSQRT_F32 (R178). -/
  | fsqrtF32 (f : FmtA)
  /-- FDIV_F32 (R178). -/
  | fdivF32 (f : FmtA)
  /-- FEXP2_F32 (R178). -/
  | fexp2F32 (f : FmtA)
  /-- FLOG2_F32 (R178). -/
  | flog2F32 (f : FmtA)
  /-- FSIN_F32 (R178). -/
  | fsinF32 (f : FmtA)
  /-- FCOS_F32 (R178). -/
  | fcosF32 (f : FmtA)
  /-- FEXP2_F16 (R178). -/
  | fexp2F16 (f : FmtA)
  /-- CVT_F16_F32 (R180). -/
  | cvtF16F32 (f : FmtA)
  /-- CVT_BF16_F32 (R180). -/
  | cvtBf16F32 (f : FmtA)
  /-- CVT_F32_F16 (R180). -/
  | cvtF32F16 (f : FmtA)
  /-- CVT_F32_BF16 (R180). -/
  | cvtF32Bf16 (f : FmtA)
  /-- CVT_BF16_F16 (R180). -/
  | cvtBf16F16 (f : FmtA)
  /-- CVT_F16_BF16 (R180). -/
  | cvtF16Bf16 (f : FmtA)
  /-- CVT_F16X2_F32 (R181). -/
  | cvtF16x2F32 (f : FmtA)
  /-- CVT_BF16X2_F32 (R181). -/
  | cvtBf16x2F32 (f : FmtA)
  /-- CVT_S32_F32 (R182). -/
  | cvtS32F32 (f : FmtA)
  /-- CVT_N32_F32 (R182). -/
  | cvtN32F32 (f : FmtA)
  /-- CVT_S64_F32 (R182). -/
  | cvtS64F32 (f : FmtA)
  /-- CVT_N64_F32 (R182). -/
  | cvtN64F32 (f : FmtA)
  /-- CVT_F32_S32 (R183). -/
  | cvtF32S32 (f : FmtA)
  /-- CVT_F32_N32 (R183). -/
  | cvtF32N32 (f : FmtA)
  /-- CVT_F32_S64 (R183). -/
  | cvtF32S64 (f : FmtA)
  /-- CVT_F32_N64 (R183). -/
  | cvtF32N64 (f : FmtA)
  /-- QDEC_BF16 (R184). -/
  | qdecBf16 (f : FmtA)
  /-- QDEC_F32 (R184). -/
  | qdecF32 (f : FmtA)
  /-- QENC_BF16 (R185). -/
  | qencBf16 (f : FmtA)
  /-- QENC_F32 (R185). -/
  | qencF32 (f : FmtA)
  /-- QSCL (R186). -/
  | qscl (f : FmtA)
  /-- SHFL_IDX (R192). -/
  | shflIdx (f : FmtA)
  /-- SHFL_XOR (R192). -/
  | shflXor (f : FmtA)
  /-- SHFL_UP (R192). -/
  | shflUp (f : FmtA)
  /-- SHFL_DOWN (R192). -/
  | shflDown (f : FmtA)
  /-- VOTE_ANY (R193). -/
  | voteAny (f : FmtA)
  /-- VOTE_ALL (R193). -/
  | voteAll (f : FmtA)
  /-- VOTE_BALLOT (R193). -/
  | voteBallot (f : FmtA)
  /-- VOTE_EQ (R193). -/
  | voteEq (f : FmtA)
  /-- WRED_IADD (R194). -/
  | wredIadd (f : FmtA)
  /-- WRED_FADD (R194). -/
  | wredFadd (f : FmtA)
  /-- WRED_MIN (R194). -/
  | wredMin (f : FmtA)
  /-- WRED_MAX (R194). -/
  | wredMax (f : FmtA)
  /-- WRED_AND (R194). -/
  | wredAnd (f : FmtA)
  /-- WRED_OR (R194). -/
  | wredOr (f : FmtA)
  /-- WRED_XOR (R194). -/
  | wredXor (f : FmtA)
  /-- WSCAN_IADD (R195). -/
  | wscanIadd (f : FmtA)
  /-- WSCAN_FADD (R195). -/
  | wscanFadd (f : FmtA)
  /-- MLOP (R196). -/
  | mlop (f : FmtA)
  /-- LD_8 (R223). -/
  | ld8 (f : FmtA) (x : Upper)
  /-- LD_16 (R223). -/
  | ld16 (f : FmtA) (x : Upper)
  /-- LD_32 (R223). -/
  | ld32 (f : FmtA) (x : Upper)
  /-- LD_64 (R223). -/
  | ld64 (f : FmtA) (x : Upper)
  /-- LD_128 (R223). -/
  | ld128 (f : FmtA) (x : Upper)
  /-- LD_UB (R226). -/
  | ldUb (f : FmtA) (x : Upper)
  /-- ST_8 (R224). -/
  | st8 (f : FmtA) (x : Upper)
  /-- ST_16 (R224). -/
  | st16 (f : FmtA) (x : Upper)
  /-- ST_32 (R224). -/
  | st32 (f : FmtA) (x : Upper)
  /-- ST_64 (R224). -/
  | st64 (f : FmtA) (x : Upper)
  /-- ST_128 (R224). -/
  | st128 (f : FmtA) (x : Upper)
  /-- ST_UB (R226). -/
  | stUb (f : FmtA) (x : Upper)
  /-- GATH_32 (R227). -/
  | gath32 (f : FmtA) (x : Upper)
  /-- GATH_64 (R227). -/
  | gath64 (f : FmtA) (x : Upper)
  /-- SCAT_32 (R227). -/
  | scat32 (f : FmtA) (x : Upper)
  /-- SCAT_64 (R227). -/
  | scat64 (f : FmtA) (x : Upper)
  /-- LDW_32 (R228). -/
  | ldw32 (f : FmtA) (x : Upper)
  /-- LDW_64 (R228). -/
  | ldw64 (f : FmtA) (x : Upper)
  /-- LDT (R230). -/
  | ldt (f : FmtA) (x : Upper)
  /-- STT (R230). -/
  | stt (f : FmtA) (x : Upper)
  /-- PREF (R234). -/
  | pref (f : FmtA) (x : Upper)
  /-- PREF_L2 (R234). -/
  | prefL2 (f : FmtA) (x : Upper)
  /-- CCTL_INV (R236). -/
  | cctlInv (f : FmtA) (x : Upper)
  /-- CCTL_WB (R236). -/
  | cctlWb (f : FmtA) (x : Upper)
  /-- CCTL_WBINV (R236). -/
  | cctlWbinv (f : FmtA) (x : Upper)
  /-- CARVE (R238). -/
  | carve (f : FmtA) (x : Upper)
  /-- STZ_LINE (R233). -/
  | stzLine (f : FmtA) (x : Upper)
  /-- LDT_TR (R231). -/
  | ldtTr (f : FmtA) (x : Upper)
  /-- TLBQ (R237). -/
  | tlbq (f : FmtA) (x : Upper)
  /-- PREF_RANGE (R235). -/
  | prefRange (f : FmtA) (x : Upper)
  /-- LDW_128 (R228). -/
  | ldw128 (f : FmtA) (x : Upper)
  /-- ST_MSK (R232). -/
  | stMsk (f : FmtA) (x : Upper)
  /-- LD_BC (R229). -/
  | ldBc (f : FmtA) (x : Upper)
  /-- STZ_SEC (R233). -/
  | stzSec (f : FmtA) (x : Upper)
  /-- ATOM_ADD (R271). -/
  | atomAdd (f : FmtA) (x : Upper)
  /-- ATOM_MIN (R271). -/
  | atomMin (f : FmtA) (x : Upper)
  /-- ATOM_MAX (R271). -/
  | atomMax (f : FmtA) (x : Upper)
  /-- ATOM_AND (R271). -/
  | atomAnd (f : FmtA) (x : Upper)
  /-- ATOM_OR (R271). -/
  | atomOr (f : FmtA) (x : Upper)
  /-- ATOM_XOR (R271). -/
  | atomXor (f : FmtA) (x : Upper)
  /-- ATOM_XCHG (R271). -/
  | atomXchg (f : FmtA) (x : Upper)
  /-- ATOM_CAS (R271). -/
  | atomCas (f : FmtA) (x : Upper)
  /-- ATOM_ADD_64 (R271). -/
  | atomAdd64 (f : FmtA) (x : Upper)
  /-- ATOM_MIN_64 (R271). -/
  | atomMin64 (f : FmtA) (x : Upper)
  /-- ATOM_MAX_64 (R271). -/
  | atomMax64 (f : FmtA) (x : Upper)
  /-- ATOM_AND_64 (R271). -/
  | atomAnd64 (f : FmtA) (x : Upper)
  /-- ATOM_OR_64 (R271). -/
  | atomOr64 (f : FmtA) (x : Upper)
  /-- ATOM_XOR_64 (R271). -/
  | atomXor64 (f : FmtA) (x : Upper)
  /-- ATOM_XCHG_64 (R271). -/
  | atomXchg64 (f : FmtA) (x : Upper)
  /-- ATOM_CAS_64 (R271). -/
  | atomCas64 (f : FmtA) (x : Upper)
  /-- ATOM_FADD_F32 (R271). -/
  | atomFaddF32 (f : FmtA) (x : Upper)
  /-- ATOM_FMIN_F32 (R271). -/
  | atomFminF32 (f : FmtA) (x : Upper)
  /-- ATOM_FMAX_F32 (R271). -/
  | atomFmaxF32 (f : FmtA) (x : Upper)
  /-- ATOM_INC (R271). -/
  | atomInc (f : FmtA) (x : Upper)
  /-- ATOM_DEC (R271). -/
  | atomDec (f : FmtA) (x : Upper)
  /-- ATOM_CAS_128 (R271). -/
  | atomCas128 (f : FmtA) (x : Upper)
  /-- RED_ADD (R273). -/
  | redAdd (f : FmtA) (x : Upper)
  /-- RED_FADD_F32 (R273). -/
  | redFaddF32 (f : FmtA) (x : Upper)
  /-- FENCE (R274). -/
  | fence (f : FmtA) (x : Upper)
  /-- BAR_WG (R275). -/
  | barWg (f : FmtA) (x : Upper)
  /-- BAR_ARRIVE (R275). -/
  | barArrive (f : FmtA) (x : Upper)
  /-- BAR_WAIT (R275). -/
  | barWait (f : FmtA) (x : Upper)
  /-- GBAR (R276). -/
  | gbar (f : FmtA) (x : Upper)
  /-- GBAR_ARRIVE (R276). -/
  | gbarArrive (f : FmtA) (x : Upper)
  /-- GBAR_WAIT (R276). -/
  | gbarWait (f : FmtA) (x : Upper)
  /-- GCOLL (R277). -/
  | gcoll (f : FmtA) (x : Upper)
  /-- CHOPEN (R278). -/
  | chopen (f : FmtA) (x : Upper)
  /-- CHCLOSE (R278). -/
  | chclose (f : FmtA) (x : Upper)
  /-- WAITC (R279). -/
  | waitc (f : FmtA) (x : Upper)
  /-- RED_ADD_64 (R273). -/
  | redAdd64 (f : FmtA) (x : Upper)
  /-- CHDEF (R294). -/
  | chdef (f : FmtA) (x : Upper)
  /-- CHRST (R294). -/
  | chrst (f : FmtA) (x : Upper)
  /-- CHPROD_RSV (R295). -/
  | chprodRsv (f : FmtA) (x : Upper)
  /-- CHPROD_PUB (R295). -/
  | chprodPub (f : FmtA) (x : Upper)
  /-- CHCONS (R296). -/
  | chcons (f : FmtA) (x : Upper)
  /-- CHWP (R297). -/
  | chwp (f : FmtA) (x : Upper)
  /-- CHWAIT_DATA (R297). -/
  | chwaitData (f : FmtA) (x : Upper)
  /-- CHWAIT_ROOM (R297). -/
  | chwaitRoom (f : FmtA) (x : Upper)
  /-- COPY_G2S (R298). -/
  | copyG2s (f : FmtA) (x : Upper)
  /-- COPY_S2G (R298). -/
  | copyS2g (f : FmtA) (x : Upper)
  /-- COPY_G2G (R299). -/
  | copyG2g (f : FmtA) (x : Upper)
  /-- COPY_TILE (R298). -/
  | copyTile (f : FmtA) (x : Upper)
  /-- BXFORM (R300). -/
  | bxform (f : FmtA) (x : Upper)
  /-- COPY_FILL (R298). -/
  | copyFill (f : FmtA) (x : Upper)
  /-- WLD (R318). -/
  | wld (f : FmtA) (x : Upper)
  /-- WSWAP (R320). -/
  | wswap (f : FmtA) (x : Upper)
  /-- MPASS (R321). -/
  | mpass (f : FmtA) (x : Upper)
  /-- MPASSB (R321). -/
  | mpassb (f : FmtA) (x : Upper)
  /-- MSPASS (R322). -/
  | mspass (f : FmtA) (x : Upper)
  /-- MACZ (R325). -/
  | macz (f : FmtA) (x : Upper)
  /-- MACR (R326). -/
  | macr (f : FmtA) (x : Upper)
  /-- MEPF (R324). -/
  | mepf (f : FmtA) (x : Upper)
  /-- WSCL (R319). -/
  | wscl (f : FmtA) (x : Upper)
  /-- MSEL (R320). -/
  | msel (f : FmtA) (x : Upper)
  /-- MFLUSH_WAIT (R327). -/
  | mflushWait (f : FmtA) (x : Upper)
  /-- MFLUSH_CLR (R327). -/
  | mflushClr (f : FmtA) (x : Upper)
  /-- MSTAT (R328). -/
  | mstat (f : FmtA) (x : Upper)
  /-- TRACE (R357). -/
  | trace (f : FmtA) (x : Upper)
  /-- TRACE_CONT (R358). -/
  | traceCont (f : FmtA) (x : Upper)
  /-- TRACE_OCC (R357). -/
  | traceOcc (f : FmtA) (x : Upper)
  /-- TRACE_END (R359). -/
  | traceEnd (f : FmtA) (x : Upper)
  /-- RAYQ (R360). -/
  | rayq (f : FmtA) (x : Upper)
  /-- RAYC (R361). -/
  | rayc (f : FmtA) (x : Upper)
  /-- RAYXF (R362). -/
  | rayxf (f : FmtA) (x : Upper)
  /-- LTWALK (R363). -/
  | ltwalk (f : FmtA) (x : Upper)
  /-- LTPDF (R364). -/
  | ltpdf (f : FmtA) (x : Upper)
  /-- SOBOL (R365). -/
  | sobol (f : FmtA) (x : Upper)
  /-- RND (R366). -/
  | rnd (f : FmtA) (x : Upper)
  /-- RNDF (R366). -/
  | rndf (f : FmtA) (x : Upper)
  /-- RSVLD (R383). -/
  | rsvld (f : FmtA) (x : Upper)
  /-- RSVST (R383). -/
  | rsvst (f : FmtA) (x : Upper)
  /-- RSVUPD (R384). -/
  | rsvupd (f : FmtA) (x : Upper)
  /-- RSVMRG (R385). -/
  | rsvmrg (f : FmtA) (x : Upper)
  /-- RSVNRM (R386). -/
  | rsvnrm (f : FmtA) (x : Upper)
  /-- RSVCLR (R383). -/
  | rsvclr (f : FmtA) (x : Upper)
  /-- RSVHALO (R387). -/
  | rsvhalo (f : FmtA) (x : Upper)
  /-- RSVSWAP (R389). -/
  | rsvswap (f : FmtA) (x : Upper)
  /-- RSVQ (R390). -/
  | rsvq (f : FmtA) (x : Upper)
  /-- RSVCFG (R388). -/
  | rsvcfg (f : FmtA) (x : Upper)
  /-- RUSE (R391). -/
  | ruse (f : FmtA) (x : Upper)
  /-- CALRET (R398). -/
  | calret (f : FmtA) (x : Upper)
  /-- RCQ (R413). -/
  | rcq (f : FmtA) (x : Upper)
  /-- RCQ_TRAIN (R413). -/
  | rcqTrain (f : FmtA) (x : Upper)
  /-- RCGEN (R414). -/
  | rcgen (f : FmtA) (x : Upper)
  /-- RCWLD (R416). -/
  | rcwld (f : FmtA) (x : Upper)
  /-- RCWST (R417). -/
  | rcwst (f : FmtA) (x : Upper)
  /-- RCSTEP_STAT (R419). -/
  | rcstepStat (f : FmtA) (x : Upper)
  /-- RCSTEP_WAIT (R419). -/
  | rcstepWait (f : FmtA) (x : Upper)
  /-- RCSTEP_CLR (R419). -/
  | rcstepClr (f : FmtA) (x : Upper)
  /-- LAUNCH (R444). -/
  | launch (f : FmtA) (x : Upper)
  /-- LAUNCH_DEP (R444). -/
  | launchDep (f : FmtA) (x : Upper)
  /-- NODE_ENQ (R445). -/
  | nodeEnq (f : FmtA) (x : Upper)
  /-- NODE_ENQN (R445). -/
  | nodeEnqn (f : FmtA) (x : Upper)
  /-- NODE_REC (R447). -/
  | nodeRec (f : FmtA) (x : Upper)
  /-- EVWAIT (R449). -/
  | evwait (f : FmtA) (x : Upper)
  /-- EVSIG (R448). -/
  | evsig (f : FmtA) (x : Upper)
  /-- GRAPH_START (R450). -/
  | graphStart (f : FmtA) (x : Upper)
  /-- GRAPH_WAIT (R450). -/
  | graphWait (f : FmtA) (x : Upper)
  /-- LRQ (R453). -/
  | lrq (f : FmtA) (x : Upper)
  /-- LCANCEL (R451). -/
  | lcancel (f : FmtA) (x : Upper)
  /-- LQUERY (R452). -/
  | lquery (f : FmtA) (x : Upper)
  /-- WGID (R453). -/
  | wgid (f : FmtA) (x : Upper)
  /-- GRAPH_ABORT (R450). -/
  | graphAbort (f : FmtA) (x : Upper)
  /-- TRAP (R489). -/
  | trap (f : FmtA)
  /-- BKPT (R489). -/
  | bkpt (f : FmtA)
  /-- RETH (R490). -/
  | reth (f : FmtA)
  /-- THRD (R491). -/
  | thrd (f : FmtA)
  /-- THWR (R491). -/
  | thwr (f : FmtA)
  /-- FSTK (R492). -/
  | fstk (f : FmtA)
  /-- FSTKCLR (R492). -/
  | fstkclr (f : FmtA)
  /-- ASRT (R493). -/
  | asrt (f : FmtA)
  /-- PMCRD (R494). -/
  | pmcrd (f : FmtA)
  /-- PMCCFG (R494). -/
  | pmccfg (f : FmtA)
  /-- PMCCLR (R494). -/
  | pmcclr (f : FmtA)
  /-- DBGMSG (R495). -/
  | dbgmsg (f : FmtA)
  /-- CTXEND (R496). -/
  | ctxend (f : FmtA)
  /-- HCALL (R497). -/
  | hcall (f : FmtA)
  /-- HCALLW (R497). -/
  | hcallw (f : FmtA)
  /-- ERRQ (R498). -/
  | errq (f : FmtA)
  /-- PRCHK (R499). -/
  | prchk (f : FmtA)
  /-- MCRD (R500). -/
  | mcrd (f : FmtA)
  /-- DHOP (R515). -/
  | dhop (f : FmtA) (x : Upper)
  /-- DCNT (R516). -/
  | dcnt (f : FmtA) (x : Upper)
  /-- DFREQ (R517). -/
  | dfreq (f : FmtA) (x : Upper)
  /-- DTIME (R518). -/
  | dtime (f : FmtA) (x : Upper)
  /-- DLINK (R519). -/
  | dlink (f : FmtA) (x : Upper)
  /-- DQUAD (R520). -/
  | dquad (f : FmtA) (x : Upper)
  /-- ILLEGAL_INSTRUCTION (R57). -/
  | illegalInstruction (reason : Nat)
  /-- CLAUSE_START (R45). -/
  | clauseStart (h : Header)
  /-- WARP_EXCHANGE (R100). -/
  | warpExchange (out into : Nat)
  /-- STARVATION_PROMOTION (R102). -/
  | starvationPromotion (warp : Nat)
  /-- RUNAHEAD_ENTRY (R105). -/
  | runaheadEntry (warp : Nat)
  /-- RUNAHEAD_EXIT (R110). -/
  | runaheadExit (warp : Nat)
  /-- SLEEP_WAKE (R126). -/
  | sleepWake (warp : Nat)
  /-- LOAD_DATA_ARRIVAL (R223). -/
  | loadDataArrival (op : Nat)
  /-- STORE_REACHES_POINT (R224). -/
  | storeReachesPoint (op : Nat)
  /-- WRITEBACK_UNCORRECTABLE_ERROR (R468). -/
  | writebackUncorrectableError (die line location : Nat)
  /-- TRANSLATION_WALK_COMPLETE (R202). -/
  | translationWalkComplete (op : Nat)
  /-- FAULT_QUEUE_HEAD_REREAD (R461). -/
  | faultQueueHeadReread
  /-- FIRMWARE_FAULT_SETTLEMENT (R461). -/
  | firmwareFaultSettlement
  /-- SETTLE_FAULT_RECORD (R543). -/
  | settleFaultRecord (context index : Nat) (resume : Bool) (pteAddr : Nat) (pte : Option Word64)
  /-- WARP_RESOURCE_RELEASE (R121). -/
  | warpResourceRelease (warp : Nat)
  /-- GROUP_BARRIER_ARRIVAL (R266). -/
  | groupBarrierArrival (wg slot : Nat)
  /-- PROMOTION_REQUEST (R252). -/
  | promotionRequest (op : Nat)
  /-- CHOPEN_TAKE_EFFECT (R278). -/
  | chopenTakeEffect (warp : Nat)
  /-- CHANNEL_RESERVATION_FIRE (R283). -/
  | channelReservationFire (wg ch : Nat)
  /-- CHANNEL_INPUT_FIRE (R285). -/
  | channelInputFire (wg ch : Nat)
  /-- CHWAIT_CONDITION_MET (R297). -/
  | chwaitConditionMet (op : Nat)
  /-- COPY_CHUNK_START (R289). -/
  | copyChunkStart (op : Nat)
  /-- COPY_OPERATION_COMPLETE (R298). -/
  | copyOperationComplete (op : Nat)
  /-- CARVE_APPLY (R217). -/
  | carveApply (warp : Nat)
  /-- BXFORM_START (R300). -/
  | bxformStart (op : Nat)
  /-- MATRIX_OPERATION_START (R311). -/
  | matrixOperationStart (op : Nat)
  /-- MATRIX_OPERATION_COMPLETE (R310). -/
  | matrixOperationComplete (op : Nat)
  /-- RAY_OPERATION_COMPLETE (R346). -/
  | rayOperationComplete (op : Nat)
  /-- RESERVOIR_OPERATION_COMPLETE (R376). -/
  | reservoirOperationComplete (op : Nat)
  /-- RSVCFG_INSTALL (R388). -/
  | rsvcfgInstall (op : Nat)
  /-- LOESS_OPERATION_START (R391). -/
  | loessOperationStart (die : Nat)
  /-- LOESS_QUAD_COMPLETE (R392). -/
  | loessQuadComplete (die : Nat)
  /-- LOESS_EVALUATION_BATCH (R396). -/
  | loessEvaluationBatch (die : Nat)
  /-- LOESS_RAY_COMPLETE (R394). -/
  | loessRayComplete (die : Nat)
  /-- RADIANCE_QUERY_COMPLETE (R408). -/
  | radianceQueryComplete (op : Nat)
  /-- SAMPLE_ARRIVAL (R403). -/
  | sampleArrival (op : Nat)
  /-- GENERATION_CHANGE (R404). -/
  | generationChange
  /-- YARROW_STEP_START (R562). -/
  | yarrowStepStart
  /-- YARROW_STEP_COMPLETE (R407). -/
  | yarrowStepComplete
  /-- RCWLD_APPLY (R416). -/
  | rcwldApply (op : Nat)
  /-- LAUNCH_ACCEPTANCE (R424). -/
  | launchAcceptance (host : Option (Nat × Word64))
  /-- WORKGROUP_BATCH_DISPATCH (R426). -/
  | workgroupBatchDispatch (launch die : Nat)
  /-- WORKGROUP_COMPLETION_EVENT (R430). -/
  | workgroupCompletionEvent (wg : Nat)
  /-- NODE_RECORD_ARRIVAL (R438). -/
  | nodeRecordArrival (op : Nat)
  /-- NODE_WORKGROUP_START (R439). -/
  | nodeWorkgroupStart (graph node : Nat)
  /-- GRAPH_DRAIN (R439). -/
  | graphDrain (graph : Nat)
  /-- PREEMPT_CONTEXT (R469). -/
  | preemptContext (context : Nat)
  /-- ENGINE_PREEMPT_ACK (R32). -/
  | enginePreemptAck (unit : Nat)
  /-- PREEMPTION_COMPLETE (R469). -/
  | preemptionComplete
  /-- RESTORE_CONTEXT (R470). -/
  | restoreContext (context : Nat)
  /-- DEBUG_HALT_REQUEST (R478). -/
  | debugHaltRequest (warp : Nat)
  /-- DEBUG_RESUME (R478). -/
  | debugResume (warp : Nat) (single : Bool)
  /-- SHOOT_DOWN (R480). -/
  | shootDown (context base size : Nat)
  /-- SHOOT_DOWN_DRAIN_ACK (R481). -/
  | shootDownDrainAck (unit : Nat)
  /-- SHOOT_DOWN_CONFIRM (R480). -/
  | shootDownConfirm
  /-- MIGRATION_COPY (R482). -/
  | migrationCopy (die : Nat) (va frame size : Nat)
  /-- MIGRATION_RECOPY (R482). -/
  | migrationRecopy
  /-- MIGRATION_REMAP (R482). -/
  | migrationRemap
  /-- MIGRATION_COMPLETE (R482). -/
  | migrationComplete
  /-- BALLOON_RECLAIM (R484). -/
  | balloonReclaim (die : Nat)
  /-- COMPRESSED_WRITE_HOLD (R485). -/
  | compressedWriteHold (die page chunks : Nat)
  /-- COMPRESSED_HOLD_RELEASE (R485). -/
  | compressedHoldRelease (die : Nat)
  /-- OUT_OF_SPACE_TIMEOUT (R486). -/
  | outOfSpaceTimeout (die : Nat)
  /-- POWER_EVALUATION (R531). -/
  | powerEvaluation
  /-- RELOCK_END (R508). -/
  | relockEnd (die : Nat)
  /-- THERMAL_SHUTDOWN (R532). -/
  | thermalShutdown
  /-- LINK_PACKET_DELIVERY (R505). -/
  | linkPacketDelivery (link : Nat)
  /-- LINK_RETRAIN (R507). -/
  | linkRetrain (link : Nat)
  /-- LINK_RETRAIN_COMPLETE (R507). -/
  | linkRetrainComplete (link modules : Nat)
  /-- HOST_MEM_READ (R522). -/
  | hostMemRead (die offset n : Nat)
  /-- HOST_MEM_WRITE (R522). -/
  | hostMemWrite (die offset : Nat) (data : List Byte)
  /-- HOST_SNOOP (R524). -/
  | hostSnoop (addr : Nat)
  /-- DEVICE_RESET (R525). -/
  | deviceReset
  /-- START (R526). -/
  | start (image : List Byte)
  /-- CLRF (R526). -/
  | clrf
  /-- BOOT_START_TIMEOUT (R527). -/
  | bootStartTimeout
  /-- FIRMWARE_RUNNING (R525). -/
  | firmwareRunning
  /-- FIRMWARE_START_TIMEOUT (R527). -/
  | firmwareStartTimeout
  /-- BAR_REGISTER_WRITE (R5). -/
  | barRegisterWrite (place : BarPlace) (value : Word)
  /-- DECLARE_RANGES (R528). -/
  | declareRanges (coherent : List (Nat × Nat)) (peers : List (Nat × Nat))
  /-- SET_POWER_LIMITS (R531). -/
  | setPowerLimits (cap : Nat) (steps : List (Nat × Nat))
  /-- CREATE_CONTEXT (R528). -/
  | createContext (offset : Nat)
  /-- DESTROY_CONTEXT (R528). -/
  | destroyContext (context : Nat)
  /-- SPDM_REQUEST (R530). -/
  | spdmRequest (request : List Byte)
  /-- HOST_MAILBOX_TAKE (R497). -/
  | hostMailboxTake (context : Nat)
  /-- HOST_MAILBOX_REPLY (R497). -/
  | hostMailboxReply (context call : Nat) (reply : Word64)
  /-- THERMAL_STEP (R532). -/
  | thermalStep (die tenths : Nat)
  /-- FIRMWARE_START_FAILURE (R527). -/
  | firmwareStartFailure (reason : Nat)
  /-- POWER_REMOVAL (R526). -/
  | powerRemoval
  /-- DEBUGGER_ATTACH (R478). -/
  | debuggerAttach (context : Nat) (attach : Bool) (breakpoints : List Nat)
  /-- CORE_POWER_GATING (R253). -/
  | corePowerGating (core : Nat) (gate : Bool)
  /-- BALLOON_PAGE_OFFER (R484). -/
  | balloonPageOffer (die frame : Nat)
  deriving DecidableEq, Repr

end Sys2Proof
end

