-- ==== Sys2Proof/Machine/Rows.lean ====
section
/-! DEFINITION. What every encoding of an instruction word must satisfy (R37 to R57): the raw fields
of a word, one row for every opcode saying which operand kinds and which field values its entry
accepts, and the reasons of R57 that apply to a word. -/

namespace Sys2Proof.Machine

/-- The raw fields of a word that is not a PAIR word (R47, R53). -/
structure Raw where
  len  : BitVec 2
  op   : Nat
  dst  : BitVec 8
  sa   : BitVec 8
  sb   : BitVec 8
  sc   : BitVec 8
  ka   : BitVec 2
  kb   : BitVec 2
  kc   : BitVec 2
  cond : BitVec 4
  wcc  : Bool
  fsel : Bool
  neg  : Bool
  md   : BitVec 8
  lit  : Word
  up   : Upper
  deriving DecidableEq, Repr

/-- What decode knows of the launch and the workgroup besides the word (R55, R56, R57, R88). -/
structure DecodeCtx where
  regs   : Nat
  uregs  : Nat
  nwarp  : Nat
  opened : BitVec 8
  slots  : BitVec 4
  fuse   : Bool
  fs     : List Word64
  last   : Bool
  /-- The word is decoded by the micro-core of Loess, not by a warp (R381). -/
  micro  : Bool := false
  deriving DecidableEq, Repr

/-- The context in which only what the word itself shows is checked. -/
def DecodeCtx.free : DecodeCtx :=
  { regs := 256, uregs := 64, nwarp := 32, opened := 0xFF, slots := 0xF, fuse := false, fs := [], last := true, micro := true }

/-- Which kinds a source operand accepts (R48): for lane and uniform registers the number of
registers read, 0 where the kind is not accepted. -/
structure Opd where
  used : Bool := true
  lane : Nat := 0
  uni  : Nat := 0
  imm  : Bool := false
  mask : Bool := false
  lit  : Bool := false
  /-- Only special value 0x08 of the two literal selectors (R113). -/
  lit8 : Bool := false
  zero : Bool := false
  idx  : Bool := false
  /-- A 16-bit float operand, whose literal has bits [31:16] zero. -/
  f16  : Bool := false
  /-- A field of 0 with kind 0b00 reads as zero (R196). -/
  z0   : Bool := false
  /-- The alignment of a uniform group; 0 where it is the group's size. -/
  al   : Nat := 0
  deriving DecidableEq, Repr

/-- What a destination field names. -/
inductive DstK where
  /-- The field is 0. -/
  | none
  /-- A lane register, or an aligned group of `n`. -/
  | lane (n : Nat)
  /-- A uniform register, or an aligned group of `n`. -/
  | uni (n : Nat)
  /-- A lane mask m1 to m7. -/
  | mask
  /-- A number below `n`; any other raises reason 0x05. -/
  | num (n : Nat)
  deriving DecidableEq, Repr

/-- What the entry of an opcode accepts, for the form that the word's fields choose. -/
structure Row where
  dst  : DstK := .none
  sa   : Opd := { used := false }
  sb   : Opd := { used := false }
  sc   : Opd := { used := false }
  /-- MOD bits that the entry defines. -/
  md   : BitVec 8 := 0
  neg  : Bool := false
  wcc  : Bool := false
  /-- EXT bits that the entry defines. -/
  ext  : BitVec 22 := 0
  /-- OFFSET may be other than zero. -/
  off  : Bool := false
  /-- The upper fields hold accepted values (R55). -/
  up   : Bool := true
  /-- A word with a side in global memory and the SPACE of its other side: EVP stands for the global side (R292). -/
  evp  : Bool := false
  /-- Further reasons that the entry gives. -/
  more : List Nat := []
  deriving DecidableEq, Repr

/-- The reasons `r` where `p` holds. -/
def when (p : Bool) (r : Nat) : List Nat := if p then [r] else []

/-! ### Operand codes -/

def Opd.none : Opd := { used := false }
/-- Any operand of R48, of the given number of registers. -/
def Opd.any (n : Nat := 1) : Opd :=
  { lane := n, uni := n, imm := true, mask := true, lit := true, zero := true, idx := true }
/-- A branch target offset (R113). -/
def Opd.target : Opd := { imm := true, lit := true, lit8 := true }
/-- A register pair of either file. -/
def Opd.pair : Opd := { lane := 2, uni := 2 }
/-- The code u of the 128-bit classes: a uniform register, an immediate or constant zero. -/
def Opd.u : Opd := { uni := 1, imm := true, zero := true }
/-- The code u of the system and die classes, which also accepts a literal (R487). -/
def Opd.ul : Opd := { uni := 1, imm := true, lit := true, zero := true }
/-- The code up: an even uniform pair or constant zero (R487). -/
def Opd.up : Opd := { uni := 2, zero := true }
/-- The code wp: an even uniform pair. -/
def Opd.wp : Opd := { uni := 2 }
/-- A lane register or group. -/
def Opd.v (n : Nat := 1) : Opd := { lane := n }
/-- A uniform register or group. -/
def Opd.w (n : Nat := 1) : Opd := { uni := n }
/-- A base of R54: pairs in the global space, single registers in the others. -/
def Opd.base (space : BitVec 3) : Opd :=
  let n := if space = 0 then 2 else 1
  { lane := n, uni := n, zero := true }
/-- A base that is the same for all lanes. -/
def Opd.ubase (space : BitVec 3) : Opd :=
  { uni := if space = 0 then 2 else 1, zero := true }
/-- Store data of `n` registers (R221); a lane mask only where the data is 32 bits wide. -/
def Opd.data (n : Nat) (mask : Bool := false) : Opd :=
  { lane := n, uni := n, imm := decide (n ≤ 2), mask := mask, zero := true }
/-- A quad of either file. -/
def Opd.quad : Opd := { lane := 4, uni := 4 }

/-! ### The reasons that apply -/

/-- Reasons for one operand field (R47, R48, R54, R56). -/
def opdReasons (cx : DecodeCtx) (len : BitVec 2) (o : Opd) (k : BitVec 2) (v : BitVec 8) (lit : Word) : List Nat :=
  if o.used = false then when (!(decide (k = 0) && decide (v = 0))) 0x04
  else
    if k = 0 then
      if o.lane = 0 then when (!(o.z0 && decide (v = 0))) 0x05
      else when (decide (v.toNat % o.lane ≠ 0) || decide (cx.regs < v.toNat + o.lane)) 0x07
    else if k = 1 then
      if o.uni = 0 then [0x05]
      else when (decide (63 < v.toNat)) 0x05
        ++ when (decide (v.toNat % (if o.al = 0 then o.uni else o.al) ≠ 0) || decide (cx.uregs < v.toNat + o.uni)) 0x07
    else if k = 2 then when (!o.imm) 0x05
    else if v.toNat < 8 then when (!o.mask) 0x05
    else if v.toNat < 10 then
      if o.lit && !(o.lit8 && decide (v = 9)) then
        when (decide (len = 0)) 0x06 ++ when (o.f16 && decide (0xFFFF < lit.toNat)) 0x06
      else [0x05]
    else if v = 10 then when (!o.zero) 0x05
    else if v = 11 then when (!o.idx) 0x05
    else [0x05]

/-- Reasons for the destination field. -/
def dstReasons (cx : DecodeCtx) (d : DstK) (v : BitVec 8) : List Nat :=
  match d with
  | .none => when (decide (v ≠ 0)) 0x04
  | .lane n => when (decide (v.toNat % n ≠ 0) || decide (cx.regs < v.toNat + n)) 0x07
  | .uni n => when (decide (63 < v.toNat)) 0x05
      ++ when (decide (v.toNat % n ≠ 0) || decide (cx.uregs < v.toNat + n)) 0x07
  | .mask => when (decide (v = 0) || decide (7 < v.toNat)) 0x05
  | .num n => when (decide (n ≤ v.toNat)) 0x05

/-- True where the operand is a literal. -/
def isLit (k : BitVec 2) (v : BitVec 8) : Bool := decide (k = 3) && (decide (v = 8) || decide (v = 9))

/-- True where some operand selects the literal. -/
def Raw.selectsLit (w : Raw) : Bool := isLit w.ka w.sa || isLit w.kb w.sb || isLit w.kc w.sc

/-- The opcodes of the blocks that permit only 128 bits (R39). -/
def longOp (op : Nat) : Bool := (decide (0x0E0 ≤ op) && decide (op < 0x1A0)) || decide (0x1C0 ≤ op)

/-- The closing words (R64): they stand only as the last word of a clause. -/
def closingOps : List Nat :=
  [0x002, 0x003, 0x004, 0x005, 0x006, 0x007, 0x008, 0x009, 0x00A, 0x00C, 0x1A2,
   0x129, 0x12B, 0x12C, 0x12E, 0x12F, 0x132, 0x17B]

/-- The words that a row's fields make illegal, with the reasons of R57. -/
def rowReasons (cx : DecodeCtx) (w : Raw) (r : Row) : List Nat :=
  dstReasons cx r.dst w.dst
    ++ opdReasons cx w.len r.sa w.ka w.sa w.lit
    ++ opdReasons cx w.len r.sb w.kb w.sb w.lit
    ++ opdReasons cx w.len r.sc w.kc w.sc w.lit
    ++ when (decide (w.md &&& ~~~r.md ≠ 0)) 0x04
    ++ when (w.neg && !r.neg) 0x04
    ++ when (w.wcc && !r.wcc) 0x04
    ++ when (decide (w.up.ext &&& ~~~r.ext ≠ 0)) 0x04
    ++ when (decide (w.up.offset ≠ 0) && !r.off) 0x04
    ++ when (!r.up) 0x0D
    ++ when (w.up.racq && !(decide (w.up.ord = 1) || decide (w.up.ord = 3))) 0x0D
    ++ when (decide (w.up.gsel ≠ 0) && decide (w.up.scope ≠ 7)) 0x0D
    ++ when (decide (w.up.evp ≠ 0) && !r.evp && (decide (w.up.space = 1) || decide (w.up.space = 2))) 0x0D
    ++ when (decide (w.up.rch ≠ 0) && decide (w.up.rch.toNat ≤ 8)
        && !(cx.opened.getLsbD (w.up.rch.toNat - 1))) 0x0E
    ++ when (decide (w.up.scope = 7) && !(cx.slots.getLsbD w.up.gsel.toNat)) 0x0E
    ++ r.more

/-! ### Accepted upper fields -/

/-- ORD, SCOPE, SPACE, EVP, RCH and RACQ all zero. -/
def upPlain (u : Upper) : Bool :=
  decide (u.ord = 0) && decide (u.scope = 0) && decide (u.space = 0) && decide (u.evp = 0) && decide (u.rch = 0)
    && !u.racq

/-- Loads of R222. -/
def upLoad (u : Upper) : Bool :=
  decide (u.ord.toNat ≤ 1) && decide (u.rch = 0)
    && (decide (u.space = 0) || (decide (u.space = 1) && decide (u.scope.toNat ≤ 2) && !u.racq))

/-- Stores of R222. -/
def upStore (u : Upper) : Bool :=
  (decide (u.ord = 0) || decide (u.ord = 2)) && !u.racq
    && ((decide (u.space = 0) && decide (u.rch.toNat ≤ 8))
      || (decide (u.space = 1) && decide (u.scope.toNat ≤ 2) && decide (u.rch = 0)))

/-- Prefetches of R222. -/
def upPrefetch (u : Upper) : Bool :=
  decide (u.ord = 0) && decide (u.scope = 0) && decide (u.space = 0) && decide (u.evp ≠ 6) && decide (u.rch = 0)
    && !u.racq

/-- Atomics of R270. -/
def upAtomic (u : Upper) : Bool :=
  decide (u.rch = 0)
    && (decide (u.space = 0) || (decide (u.space = 1) && decide (u.scope.toNat ≤ 2) && !u.racq))

/-- Reductions of R270. -/
def upRed (u : Upper) : Bool := upAtomic u && (decide (u.ord = 0) || decide (u.ord = 2)) && !u.racq

/-- A word without memory access but with ORD and SCOPE (R270). -/
def upOrder (u : Upper) : Bool :=
  decide (u.space = 0) && decide (u.evp = 0) && decide (u.rch = 0) && !u.racq

/-- Words of the channel and copy class (R291, R292): the global side alone has an EVP. -/
def upCopy (u : Upper) (spaces : List Nat) (glob : Bool) : Bool :=
  decide (u.ord = 0) && decide (u.scope = 0) && decide (u.rch = 0) && !u.racq && decide (u.space.toNat ∈ spaces)
    && (glob || decide (u.evp = 0))

/-! ### The rows of the control class (R112) -/

/-- The special-register selectors of 32 and of 64 bits (R129). -/
def sel32 (n : Nat) : Bool := decide (n ≤ 0x0B)
def sel64 (n : Nat) : Bool := decide (n = 0x40) || decide (n = 0x41)

/-- Bit 0 of MOD, the U of most entries. -/
def Raw.u0 (w : Raw) : Bool := w.md.getLsbD 0

/-- A destination that U turns from the lane file to the uniform file. -/
def DstK.byU (u : Bool) (n : Nat) : DstK := if u then .uni n else .lane n

def rowsControl : List (Nat × (Raw → Row)) := [
  (0x001, fun _ => {}),
  (0x002, fun _ => { sa := .target }),
  (0x003, fun _ => { sa := .target, sb := .w, md := 1 }),
  (0x004, fun _ => { sa := .target, sb := { mask := true } }),
  (0x005, fun _ => { sa := .target, sb := { mask := true } }),
  (0x006, fun _ => { sa := .pair }),
  (0x007, fun _ => { dst := .lane 2, sa := .target }),
  (0x008, fun _ => { dst := .lane 2, sa := .pair }),
  (0x009, fun _ => { sa := .pair }),
  (0x00A, fun _ => {}),
  (0x00B, fun _ => { dst := .num 8 }),
  (0x00C, fun _ => { dst := .num 8 }),
  (0x00D, fun _ => { dst := .num 8 }),
  (0x00E, fun _ => {}),
  (0x00F, fun _ => { sa := { uni := 1, imm := true, lit := true } }),
  (0x010, fun w => { dst := .byU w.u0 1, md := 1 }),
  (0x011, fun w => { dst := .byU w.u0 1, md := 0xFF, more := when (!sel32 (w.md.toNat / 2)) 0x05 }),
  (0x012, fun w => { dst := .byU w.u0 2, md := 0xFF, more := when (!sel64 (w.md.toNat / 2)) 0x05 }),
  (0x013, fun _ => { sa := { uni := 1, imm := true, lit := true } }),
  (0x014, fun w => { dst := .byU w.u0 2, sa := .target, md := 1 })]

/-! ### The rows of the integer and address class (R136 to R138) -/

/-- The code s64: a 64-bit operand (R137). -/
def Opd.any64 : Opd := { lane := 2, uni := 2, imm := true, lit := true, zero := true }

/-- The field X of MOD, and a compare code in it (R139). -/
def Raw.x (w : Raw) : Nat := w.md.toNat / 4 % 16
def Raw.badCmp (w : Raw) : List Nat := when (decide (w.x = 0) || decide (w.x = 15)) 0x04

/-- A row of two 32-bit operands into a lane register. -/
def row2 (md : BitVec 8) (neg wcc : Bool) (sc : Opd := .none) : Row :=
  { dst := .lane 1, sa := .any, sb := .any, sc := sc, md := md, neg := neg, wcc := wcc }

/-- A row of two 64-bit operands into a pair. -/
def row64 (md : BitVec 8) (neg wcc : Bool) (sb : Opd := .any64) : Row :=
  { dst := .lane 2, sa := .any64, sb := sb, md := md, neg := neg, wcc := wcc }

/-- A row of one 32-bit operand into a lane register. -/
def row1 (md : BitVec 8) (wcc : Bool) : Row := { dst := .lane 1, sa := .any, md := md, wcc := wcc }

def rowsInteger : List (Nat × (Raw → Row)) := [
  (0x020, fun _ => row2 3 true true), (0x021, fun _ => row64 3 true true),
  (0x022, fun _ => row2 3 true true), (0x023, fun _ => row64 3 true true),
  (0x024, fun _ => row2 2 false true), (0x025, fun _ => row2 2 false true),
  (0x026, fun _ => row2 3 true true .any), (0x027, fun _ => row64 0x3E false false .any),
  (0x028, fun _ => row2 3 true true), (0x029, fun _ => row2 2 false true),
  (0x02A, fun _ => { row2 2 false true with dst := .lane 2 }),
  (0x02B, fun _ => row2 3 true true .any), (0x02C, fun _ => row2 2 false true .any),
  (0x02D, fun _ => { row2 3 false true .any64 with dst := .lane 2 }),
  (0x02E, fun _ => row2 3 false true), (0x02F, fun _ => row2 2 false true),
  (0x030, fun _ => row1 1 true), (0x031, fun _ => row1 1 true),
  (0x032, fun _ => row2 2 false true), (0x033, fun _ => row2 2 false true),
  (0x034, fun _ => row64 2 false true), (0x035, fun _ => row64 2 false true),
  (0x036, fun w => { row2 2 false true with dst := .none, more := when (!w.wcc) 0x04 }),
  (0x037, fun w => { row64 2 false true with dst := .none, more := when (!w.wcc) 0x04 }),
  (0x038, fun w => { row2 0x3E false false with dst := .mask, more := w.badCmp }),
  (0x039, fun w => { row2 0x3C false false with more := w.badCmp }),
  (0x03A, fun w => { row64 0x3C false false with more := w.badCmp }),
  (0x03B, fun _ => row1 0 false),
  (0x03C, fun _ => { dst := .lane 2, sa := .any64 }),
  (0x03D, fun _ => { dst := .uni 1, sa := .any }),
  (0x03E, fun w => if w.md.getLsbD 4 then { dst := .lane 1, sa := .any64, md := 0x10 }
                   else { dst := .lane 2, sa := .any64, sb := .any, md := 0x10 }),
  (0x03F, fun _ => row2 0x13 false true .any),
  (0x040, fun _ => row2 0 false true), (0x041, fun _ => row2 0 false true),
  (0x042, fun _ => row2 0 false true), (0x043, fun _ => row2 0 false true),
  (0x044, fun _ => row2 0xFF false true .any),
  (0x045, fun _ => row2 0 false true), (0x046, fun _ => row2 0 false true), (0x047, fun _ => row2 0 false true),
  (0x048, fun _ => row2 0x10 false true),
  (0x049, fun _ => row64 0 false true .any), (0x04A, fun _ => row64 0 false true .any),
  (0x04B, fun _ => row64 0 false true .any),
  (0x04C, fun _ => row2 2 false true), (0x04D, fun _ => row2 0 false true .any),
  (0x04E, fun _ => row1 0 true), (0x04F, fun _ => row1 0 true), (0x050, fun _ => row1 0 true),
  (0x051, fun _ => row1 0 true),
  (0x052, fun _ => row2 0 false false .any), (0x053, fun _ => row2 3 false true .any)]

/-! ### The rows of the floating-point class (R164 to R166) -/

/-- A scalar 16-bit float operand. -/
def Opd.h16 : Opd := { Opd.any with f16 := true }

/-- The two source operands and the result of a float word of format `b16`. -/
def rowF (b16 : Bool) (md : BitVec 8) (neg wcc : Bool) (three : Bool := false) : Row :=
  let o : Opd := if b16 then .h16 else .any
  { dst := .lane 1, sa := o, sb := o, sc := if three then o else .none, md := md, neg := neg, wcc := wcc }

def rowF1 (b16 : Bool) (md : BitVec 8) (wcc : Bool) : Row :=
  { dst := .lane 1, sa := if b16 then .h16 else .any, md := md, wcc := wcc }

/-- The format code of operand A, B or O of a slot (R84). -/
def slotFmt (s : Word64) (sel : Nat) : Nat := s.toNat / 2 ^ (4 + 4 * sel) % 16

/-- The slot that MOD names, where the launch is known (R88). -/
def Raw.slot (w : Raw) (cx : DecodeCtx) : Option Word64 := cx.fs[w.md.toNat / 8 % 8]?

/-- Reason 0x05 where the chosen operand of the slot is not Q4 (R184, R185). -/
def slotNotQ4 (cx : DecodeCtx) (w : Raw) (sel : Nat) : List Nat :=
  match w.slot cx with
  | some s => when (decide (slotFmt s sel ≠ 4)) 0x05
  | none => []

/-- SEL of the Q4 layout. -/
def Raw.qsel (w : Raw) : Nat := w.md.toNat / 64

/-- Reason 0x05 where OSS of the slot is not 0b01 or 0b11 (R186). -/
def slotNoScale (cx : DecodeCtx) (w : Raw) : List Nat :=
  match w.slot cx with
  | some s => when (decide (s.toNat / 2 ^ 20 % 2 = 0)) 0x05
  | none => []

def rowsFloat (cx : DecodeCtx) : List (Nat × (Raw → Row)) := [
  (0x060, fun _ => rowF false 3 true true), (0x061, fun _ => rowF true 3 true true),
  (0x062, fun _ => rowF true 3 true true), (0x063, fun _ => rowF false 3 true true),
  (0x064, fun _ => rowF true 3 true true), (0x065, fun _ => rowF true 3 true true),
  (0x066, fun _ => rowF false 7 true true true), (0x067, fun _ => rowF true 7 true true true),
  (0x068, fun _ => rowF true 7 true true true),
  (0x069, fun _ => rowF false 0 true true), (0x06A, fun _ => rowF true 0 true true),
  (0x06B, fun _ => rowF true 0 true true), (0x06C, fun _ => rowF false 0 true true),
  (0x06D, fun _ => rowF true 0 true true), (0x06E, fun _ => rowF true 0 true true),
  (0x06F, fun w => { rowF false 0 true true with dst := .none, more := when (!w.wcc) 0x04 }),
  (0x070, fun w => { rowF true 0 true true with dst := .none, more := when (!w.wcc) 0x04 }),
  (0x071, fun w => { rowF true 0 true true with dst := .none, more := when (!w.wcc) 0x04 }),
  (0x072, fun w => { rowF false 0x3C true false with dst := .mask, more := w.badCmp }),
  (0x073, fun w => { rowF true 0x3C true false with dst := .mask, more := w.badCmp }),
  (0x074, fun w => { rowF true 0x3C true false with dst := .mask, more := w.badCmp }),
  (0x075, fun _ => rowF1 false 0 false), (0x076, fun _ => rowF1 true 0 false), (0x077, fun _ => rowF1 true 0 false),
  (0x078, fun _ => rowF1 false 3 true), (0x079, fun _ => rowF1 true 3 true), (0x07A, fun _ => rowF1 true 3 true),
  (0x07B, fun _ => rowF false 3 false true), (0x07C, fun _ => rowF false 0 true false),
  (0x07D, fun _ => rowF false 0 false true true), (0x07E, fun _ => rowF false 7 true true true),
  (0x080, fun _ => rowF false 3 true false), (0x081, fun _ => rowF false 3 true false),
  (0x082, fun _ => rowF false 3 true false), (0x083, fun _ => rowF false 3 true false),
  (0x084, fun _ => rowF false 7 true false true), (0x085, fun _ => rowF false 7 true false true),
  (0x088, fun _ => rowF1 false 3 true), (0x089, fun _ => rowF1 false 3 true), (0x08A, fun _ => rowF1 false 3 true),
  (0x08B, fun _ => rowF false 3 false true),
  (0x08C, fun _ => rowF1 false 3 true), (0x08D, fun _ => rowF1 false 3 true), (0x08E, fun _ => rowF1 false 3 true),
  (0x08F, fun _ => rowF1 false 3 true), (0x090, fun _ => rowF1 true 3 true),
  (0x098, fun _ => rowF1 false 3 true), (0x099, fun _ => rowF1 false 3 true), (0x09A, fun _ => rowF1 true 3 true),
  (0x09B, fun _ => rowF1 true 3 true), (0x09C, fun _ => rowF1 true 3 true), (0x09D, fun _ => rowF1 true 3 true),
  (0x09E, fun _ => rowF false 3 false false), (0x09F, fun _ => rowF false 3 false false),
  (0x0A0, fun _ => rowF1 false 3 true), (0x0A1, fun _ => rowF1 false 3 true),
  (0x0A2, fun _ => { rowF1 false 3 true with dst := .lane 2 }),
  (0x0A3, fun _ => { rowF1 false 3 true with dst := .lane 2 }),
  (0x0A4, fun _ => rowF1 false 3 true), (0x0A5, fun _ => rowF1 false 3 true),
  (0x0A6, fun _ => { rowF1 false 3 true with sa := .any64 }),
  (0x0A7, fun _ => { rowF1 false 3 true with sa := .any64 }),
  (0x0A8, fun w => { rowF false 0xFB false true true with
    more := when (decide (w.qsel = 3)) 0x04 ++ slotNotQ4 cx w w.qsel }),
  (0x0A9, fun w => { rowF false 0xFB false true true with
    more := when (decide (w.qsel = 3)) 0x04 ++ slotNotQ4 cx w w.qsel }),
  (0x0AA, fun w => { dst := .lane 1, sa := .h16, sb := .any, md := 0x3B, more := slotNotQ4 cx w 2 }),
  (0x0AB, fun w => { dst := .lane 1, sa := .any, sb := .any, md := 0x3B, more := slotNotQ4 cx w 2 }),
  (0x0AC, fun w => { dst := .lane 1, sa := .any, sb := .any, md := 0x38,
                     more := slotNotQ4 cx w 2 ++ slotNoScale cx w })]

/-! ### The rows of the cross-lane class (R190, R191) -/

/-- A source of MLOP. -/
def Opd.mlop : Opd := { uni := 1, imm := true, mask := true, lit := true, z0 := true }

/-- UD of the reduce layout. -/
def Raw.ud (w : Raw) : Bool := w.md.getLsbD 6

def shflRow (w : Raw) : Row := { row2 7 false true with more := when (decide (5 < w.md.toNat % 8)) 0x04 }
def voteRow (wcc : Bool) : Row := { dst := .mask, sa := .any, wcc := wcc }
def wredRow (w : Raw) (md : BitVec 8) (more : List Nat := []) : Row :=
  { dst := .byU w.ud 1, sa := .any, md := md, more := more }

def rowsLanes : List (Nat × (Raw → Row)) := [
  (0x0C0, shflRow), (0x0C1, shflRow), (0x0C2, shflRow), (0x0C3, shflRow),
  (0x0C4, fun _ => voteRow true), (0x0C5, fun _ => voteRow true), (0x0C6, fun _ => voteRow false),
  (0x0C7, fun _ => voteRow true),
  (0x0C8, fun w => wredRow w 0x54), (0x0C9, fun w => wredRow w 0x43),
  (0x0CA, fun w => wredRow w 0x4C (when (w.md.getLsbD 3 && w.md.getLsbD 2) 0x04)),
  (0x0CB, fun w => wredRow w 0x4C (when (w.md.getLsbD 3 && w.md.getLsbD 2) 0x04)),
  (0x0CC, fun w => wredRow w 0x40), (0x0CD, fun w => wredRow w 0x40), (0x0CE, fun w => wredRow w 0x40),
  (0x0CF, fun _ => row1 0x34 false), (0x0D0, fun _ => row1 0x23 false),
  (0x0D1, fun _ => { dst := .mask, sa := .mlop, sb := .mlop, sc := .mlop, md := 0xFF })]

/-! ### The rows of the memory class (R220, R221, R222) -/

/-- The number of registers that MOD's W names, with reason 0x04 for W = 3. -/
def Raw.wReg (w : Raw) : Nat := 2 ^ (w.md.toNat / 64 % 4 % 3)
def Raw.w3 (w : Raw) : List Nat := when (decide (w.md.toNat / 64 = 3)) 0x04

/-- A load into `dst` from `sa`. -/
def loadRow (w : Raw) (dst : DstK) (sa : Opd) (md : BitVec 8 := 0) (sb : Opd := .none) (more : List Nat := []) : Row :=
  { dst := dst, sa := sa, sb := sb, md := md, off := true, up := upLoad w.up, more := more }

/-- A store of `sc` to `sa`. -/
def storeRow (w : Raw) (sa sc : Opd) (md : BitVec 8 := 0) (sb : Opd := .none) (more : List Nat := []) : Row :=
  { sa := sa, sb := sb, sc := sc, md := md, off := true, up := upStore w.up, more := more }

def rowsMemory : List (Nat × (Raw → Row)) := [
  (0x0E0, fun w => loadRow w (.lane 1) (.base w.up.space) 0x02),
  (0x0E1, fun w => loadRow w (.lane 1) (.base w.up.space) 0x02),
  (0x0E2, fun w => loadRow w (.lane 1) (.base w.up.space)),
  (0x0E3, fun w => loadRow w (.lane 2) (.base w.up.space)),
  (0x0E4, fun w => loadRow w (.lane 4) (.base w.up.space)),
  (0x0E5, fun w => loadRow w (.lane w.wReg) (.base w.up.space) 0xC0 .none w.w3),
  (0x0E6, fun w => storeRow w (.base w.up.space) (.data 1)),
  (0x0E7, fun w => storeRow w (.base w.up.space) (.data 1)),
  (0x0E8, fun w => storeRow w (.base w.up.space) (.data 1 true)),
  (0x0E9, fun w => storeRow w (.base w.up.space) (.data 2)),
  (0x0EA, fun w => storeRow w (.base w.up.space) (.data 4)),
  (0x0EB, fun w => storeRow w (.base w.up.space) (.data w.wReg (decide (w.wReg = 1))) 0xC0 .none w.w3),
  (0x0EC, fun w => loadRow w (.lane 1) (.base w.up.space) 0x3C .v),
  (0x0ED, fun w => loadRow w (.lane 2) (.base w.up.space) 0x3C .v),
  (0x0EE, fun w => storeRow w (.base w.up.space) (.data 1 true) 0x3C .v),
  (0x0EF, fun w => storeRow w (.base w.up.space) (.data 2) 0x3C .v),
  (0x0F0, fun w => loadRow w (.uni 1) (.ubase w.up.space)),
  (0x0F1, fun w => loadRow w (.uni 2) (.ubase w.up.space)),
  (0x0F2, fun w => loadRow w (.lane 4) (.ubase w.up.space) 0 .u),
  (0x0F3, fun w => storeRow w (.ubase w.up.space) .quad 0 .u),
  (0x0F4, fun w => { sa := .base w.up.space, off := true, up := upPrefetch w.up }),
  (0x0F5, fun w => { sa := .base w.up.space, off := true, up := upPrefetch w.up }),
  (0x0F6, fun w => { sa := .base w.up.space, md := 0xC0, off := true, up := upPlain w.up, more := w.w3 }),
  (0x0F7, fun w => { sa := .base w.up.space, md := 0xC0, off := true, up := upPlain w.up, more := w.w3 }),
  (0x0F8, fun w => { sa := .base w.up.space, md := 0xC0, off := true, up := upPlain w.up, more := w.w3 }),
  (0x0F9, fun w => { sa := .u, up := upPlain w.up }),
  (0x0FA, fun w => storeRow w (.base w.up.space) .none),
  (0x0FB, fun w => loadRow w (.lane 4) (.ubase w.up.space) 0 .u),
  (0x0FC, fun w => { dst := .lane 1, sa := .base w.up.space, off := true, up := upPlain w.up }),
  (0x0FD, fun w => { sa := .ubase w.up.space, sb := .u, off := true, up := upPrefetch w.up }),
  (0x0FE, fun w => loadRow w (.uni 4) (.ubase w.up.space)),
  (0x0FF, fun w => storeRow w (.base w.up.space) .quad 0 { lane := 1, uni := 1, imm := true, zero := true }),
  (0x100, fun w => loadRow w (.lane w.wReg) (.ubase w.up.space) 0xC0 .none w.w3),
  (0x101, fun w => storeRow w (.base w.up.space) .none)]

/-! ### The rows of the atomic and synchronisation class (R268, R269, R270) -/

/-- Data of an atomic: no lane mask. -/
def Opd.d (n : Nat) : Opd := .data n

def atomRow (w : Raw) (n : Nat) (md : BitVec 8 := 0) (sc : Opd := .none) : Row :=
  { dst := .lane n, sa := .base w.up.space, sb := .d n, sc := sc, md := md, off := true, up := upAtomic w.up }

def redRow (w : Raw) (n : Nat) (md : BitVec 8 := 0) : Row :=
  { sa := .base w.up.space, sb := .d n, md := md, off := true, up := upRed w.up }

/-- SEL and E or THR of EXT (R268). -/
def Raw.sel (w : Raw) : Nat := w.up.ext.toNat % 16
def Raw.thr (w : Raw) : Nat := w.up.ext.toNat / 16 % 64

/-- The expected count of a workgroup barrier: at most 32, and at most the workgroup's warps (R265, R268). -/
def expReasons (cx : DecodeCtx) (w : Raw) : List Nat :=
  when (decide (32 < w.thr)) 0x04 ++ when (decide (w.thr ≤ 32) && decide (cx.nwarp < w.thr)) 0x05

/-- ORD with SCOPE of a workgroup-barrier word: 0 with scope 0, or `o` with scopes 2 to 6. -/
def barUp (u : Upper) (o : BitVec 2) : Bool :=
  upOrder u && ((decide (u.ord = 0) && decide (u.scope = 0))
    || (decide (u.ord = o) && decide (2 ≤ u.scope.toNat) && decide (u.scope.toNat ≤ 6)))

/-- ORD of a group-barrier word, whose scope is 7. -/
def gbarUp (u : Upper) (o : BitVec 2) : Bool :=
  upOrder u && decide (u.scope = 7) && (decide (u.ord = 0) || decide (u.ord = o))

def rowsAtomic (cx : DecodeCtx) : List (Nat × (Raw → Row)) := [
  (0x110, fun w => atomRow w 1), (0x111, fun w => atomRow w 1 2), (0x112, fun w => atomRow w 1 2),
  (0x113, fun w => atomRow w 1), (0x114, fun w => atomRow w 1), (0x115, fun w => atomRow w 1),
  (0x116, fun w => atomRow w 1), (0x117, fun w => atomRow w 1 0 (.d 1)),
  (0x118, fun w => atomRow w 2), (0x119, fun w => atomRow w 2 2), (0x11A, fun w => atomRow w 2 2),
  (0x11B, fun w => atomRow w 2), (0x11C, fun w => atomRow w 2), (0x11D, fun w => atomRow w 2),
  (0x11E, fun w => atomRow w 2), (0x11F, fun w => atomRow w 2 0 (.d 2)),
  (0x120, fun w => atomRow w 1 0x0C), (0x121, fun w => atomRow w 1), (0x122, fun w => atomRow w 1),
  (0x123, fun w => atomRow w 1), (0x124, fun w => atomRow w 1),
  (0x125, fun w => { dst := .lane 4, sa := .base w.up.space, sb := .quad, sc := .quad, off := true,
                     up := upAtomic w.up }),
  (0x126, fun w => redRow w 1), (0x127, fun w => redRow w 1 0x0C),
  (0x128, fun w => { up := upOrder w.up && decide (w.up.ord ≠ 0) && decide (w.up.scope ≠ 0) }),
  (0x129, fun w => { ext := 0x3FF, up := barUp w.up 3, more := expReasons cx w }),
  (0x12A, fun w => { ext := 0x3FF, up := barUp w.up 2, more := expReasons cx w }),
  (0x12B, fun w => { ext := 0x00F, up := barUp w.up 1 }),
  (0x12C, fun w => { up := gbarUp w.up 3 }),
  (0x12D, fun w => { up := gbarUp w.up 2 }),
  (0x12E, fun w => { up := gbarUp w.up 1 }),
  (0x12F, fun w => { dst := .uni 1, sa := .u, md := if w.sel = 1 then 0x0C else 0, ext := 0x00F,
                     up := gbarUp w.up 3, more := when (decide (9 < w.sel)) 0x04 }),
  (0x130, fun w => { sa := .u, ext := 0x00F, up := upPlain w.up, more := when (decide (7 < w.sel)) 0x04 }),
  (0x131, fun w => { ext := 0x00F, up := upPlain w.up, more := when (decide (7 < w.sel)) 0x04 }),
  (0x132, fun w => { ext := 0x3FF, up := upPlain w.up, more := when (decide (6 < w.sel)) 0x04 }),
  (0x133, fun w => redRow w 2)]

/-! ### The rows of the channel and copy class (R291, R292) -/

/-- MODE and CH of EXT (R291). -/
def Raw.mode (w : Raw) : Nat := w.up.ext.toNat / 16 % 16

/-- A word on channel CH with MODE at most `m`. -/
def chanRow (w : Raw) (m : Nat) (dst : DstK) (sa sb : Opd := .none) : Row :=
  { dst := dst, sa := sa, sb := sb, ext := 0xFF, up := upCopy w.up [0] false, more := when (decide (m < w.mode)) 0x04 }

/-- EXT bits of a copy: CH only with the channel space. -/
def copyExt (w : Raw) : BitVec 22 := if w.up.space = 2 then 0x0F else 0

def rowsCopy : List (Nat × (Raw → Row)) := [
  (0x140, fun w => chanRow w 0 .none .u .u),
  (0x141, fun w => chanRow w 0 .none),
  (0x142, fun w => if w.mode = 0 then chanRow w 1 (.uni 1) .none .u else chanRow w 1 .none),
  (0x143, fun w => chanRow w 0 .none .none .u),
  (0x144, fun w => chanRow w 2 (.uni 1)),
  (0x145, fun w => chanRow w 1 (.uni 1) .none .u),
  (0x146, fun w => { sa := .ubase 0, sb := if w.up.space = 2 then .none else .u, sc := .u, ext := copyExt w,
                     off := true, up := upCopy w.up [1, 2] true, evp := true }),
  (0x147, fun w => { sa := .ubase 0, sb := if w.up.space = 2 then .none else .u, sc := .u, ext := copyExt w,
                     off := true, up := upCopy w.up [1, 2] true, evp := true }),
  (0x148, fun w => { sa := .ubase 0, sb := .wp, sc := .u, off := true, up := upCopy w.up [0] true }),
  (0x149, fun w => { sa := .ubase 0, sb := if w.up.space = 2 then .none else .u, sc := .wp, ext := copyExt w,
                     off := true, up := upCopy w.up [1, 2] true, evp := true }),
  (0x14A, fun w => { sa := .ubase 1, sc := .u, ext := 0xF0, off := true, up := upCopy w.up [1] false,
                     more := when (decide (2 < w.mode)) 0x04 }),
  (0x14B, fun w => { sa := if w.up.space = 2 then { zero := true } else .ubase w.up.space, sb := .u, sc := .u,
                     ext := copyExt w, off := decide (w.up.space ≠ 2), up := upCopy w.up [0, 1, 2] true })]

/-! ### The rows of the system and trap class (R487) -/

/-- SEL of THRD and THWR. -/
def Raw.hsel (w : Raw) : Nat := w.md.toNat / 2 % 8

def rowsSystem : List (Nat × (Raw → Row)) := [
  (0x1A0, fun _ => { sa := .ul }),
  (0x1A1, fun _ => {}),
  (0x1A2, fun w => { sa := if w.u0 then .up else .none, md := 1 }),
  (0x1A3, fun w => { dst := .byU w.u0 (if w.hsel = 4 then 2 else 1), md := 0x0F,
                     more := when (decide (4 < w.hsel)) 0x05 }),
  (0x1A4, fun w => { sa := if w.hsel = 4 then .up else .ul, md := 0x0E, more := when (decide (4 < w.hsel)) 0x05 }),
  (0x1A5, fun w => { dst := .byU w.u0 1, md := 1 }),
  (0x1A6, fun _ => { sa := .ul }),
  (0x1A7, fun _ => { sa := .any, sb := .ul }),
  (0x1A8, fun w => { dst := .byU w.u0 2, sa := .ul, md := 1 }),
  (0x1A9, fun _ => { sa := .ul, sb := .ul }),
  (0x1AA, fun _ => { sa := .ul }),
  (0x1AB, fun _ => { sa := .any, sb := .ul }),
  (0x1AC, fun _ => { sa := .ul }),
  (0x1AD, fun _ => { sa := .up, sb := .ul }),
  (0x1AE, fun _ => { dst := .uni 2, sa := .up, sb := .ul }),
  (0x1AF, fun _ => { sa := .up, sb := .ul }),
  (0x1B0, fun _ => { dst := .uni 1 }),
  (0x1B1, fun _ => { dst := .uni 4 })]

/-! ### The rows of the matrix class (R315, R316) -/

/-- The slot that EXT names, where the launch is known. -/
def Raw.mslot (w : Raw) (cx : DecodeCtx) : Option Word64 := cx.fs[w.up.ext.toNat / 2 ^ 19 % 8]?

/-- Reason 0x05 where a known slot does not pass (R88). -/
def Raw.slotCheck (w : Raw) (cx : DecodeCtx) (ok : Word64 → Bool) : List Nat :=
  match w.mslot cx with
  | some s => when (!(ok s)) 0x05
  | none => []

/-- Upper fields of the class: 0, but for the spaces and the EVP that a row accepts. -/
def upMtx (u : Upper) (spaces : List Nat) (evp : Bool) : Bool := upCopy u spaces evp

/-- The parameter block operand (R316). -/
def Opd.mpb : Opd := { uni := 8, al := 1 }
def Raw.mpbReason (w : Raw) : List Nat := when (decide (w.ka = 1) && decide (w.sa.toNat % 8 ≠ 0)) 0x05
/-- The code o of the class. -/
def Opd.o : Opd := { lane := 1, uni := 1, imm := true, zero := true }

/-- EXT masks: SLOT, CH, C0, NC, MODE (R315). -/
def exSlot : BitVec 22 := 0x380000
def exCh : BitVec 22 := 0x078000
def exC0 : BitVec 22 := 0x007800
def exNc : BitVec 22 := 0x0007C0
def exMode : BitVec 22 := 0x000038
def Raw.mmode (w : Raw) : Nat := w.up.ext.toNat / 8 % 8

/-- A pass (R316). -/
def passRow (w : Raw) (cx : DecodeCtx) (ch : Bool) (evp : Bool) : Row :=
  { sa := .mpb, sb := .o, ext := exSlot ||| exC0 ||| exNc ||| exMode ||| (if ch then exCh else 0),
    up := upMtx w.up [0] evp,
    more := w.mpbReason ++ when (decide (1 < w.mmode)) 0x04
      ++ w.slotCheck cx fun s => decide (slotFmt s 0 = 2) || decide (slotFmt s 0 = 3) }

def rowsMatrix (cx : DecodeCtx) : List (Nat × (Raw → Row)) := [
  (0x150, fun w => { sa := if w.up.space = 2 then { zero := true } else .ubase 0,
                     sb := if w.up.space = 2 then .none else .u,
                     ext := exSlot ||| exC0 ||| exNc ||| (if w.up.space = 2 then exCh else 0),
                     off := decide (w.up.space ≠ 2), up := upMtx w.up [0, 2] true,
                     more := w.slotCheck cx fun s => decide (2 ≤ slotFmt s 1) && decide (slotFmt s 1 ≤ 4) }),
  (0x151, fun w => { up := upMtx w.up [0] false }),
  (0x152, fun w => passRow w cx false false),
  (0x153, fun w => passRow w cx true false),
  (0x154, fun w => passRow w cx true true),
  (0x155, fun w => { sa := .mpb, sb := .o, ext := exNc, up := upMtx w.up [0] false, more := w.mpbReason }),
  (0x156, fun w => { sa := .mpb, sb := .o, ext := exSlot ||| exNc ||| (if w.up.space = 2 then exCh else 0),
                     up := upMtx w.up [1, 2] false,
                     more := w.mpbReason
                       ++ w.slotCheck cx fun s => decide (1 ≤ slotFmt s 2) && decide (slotFmt s 2 ≤ 3) }),
  (0x157, fun w => { sa := .ubase 0, sb := .u, off := true, up := upMtx w.up [0] true }),
  (0x158, fun w => { sa := .ubase 0, sb := .u, ext := exSlot ||| exC0 ||| exNc ||| exMode, off := true,
                     up := upMtx w.up [0] true,
                     more := when (decide (2 < w.mmode)) 0x04
                       ++ w.slotCheck cx fun s => decide (slotFmt s 1 = 4) && decide (s.toNat / 2 ^ 18 % 2 = 1) }),
  (0x159, fun w => { ext := exMode, up := upMtx w.up [0] false, more := when (decide (1 < w.mmode)) 0x04 }),
  (0x15A, fun w => { ext := exMode, up := upMtx w.up [0] false, more := when (decide (1 < w.mmode)) 0x04 }),
  (0x15B, fun w => { dst := .uni 2, ext := exMode, up := upMtx w.up [0] false, more := when (decide (1 < w.mmode)) 0x04 })]

/-! ### The rows of the ray, light and sampler class (R355, R356) -/

/-- MODE of the class: EXT [108:106]. -/
def Raw.rmode (w : Raw) : Nat := w.up.ext.toNat % 8

/-- The code s: a lane register, a uniform register, an immediate or constant zero. -/
def Opd.sv : Opd := { lane := 1, uni := 1, imm := true, zero := true }
/-- A lane or uniform pair. -/
def Opd.pairs : Opd := { lane := 2, uni := 2 }

def upRay (u : Upper) (evp : Bool) : Bool := upCopy u [0] evp

/-- A word of the class with MODE at most `m`. -/
def rayRow (w : Raw) (m : Nat) (dst : DstK) (sa sb sc : Opd := .none) (evp : Bool := false) : Row :=
  { dst := dst, sa := sa, sb := sb, sc := sc, ext := 0x07, up := upRay w.up evp, more := when (decide (m < w.rmode)) 0x04 }

/-- A lane register, or a quad with .x4. -/
def DstK.x4 (b : Bool) : DstK := if b then .lane 4 else .lane 1

def rowsRay : List (Nat × (Raw → Row)) := [
  (0x160, fun w => rayRow w 0 (.lane 8) (.v 8) .sv (.w 2) true),
  (0x161, fun w => rayRow w 0 (.lane 8) .v .sv .none true),
  (0x162, fun w => rayRow w 0 (.lane 8) (.v 8) .sv (.w 2) true),
  (0x163, fun w => rayRow w 0 .none .v),
  (0x164, fun w => rayRow w 7 (.lane 4) .v),
  (0x165, fun w => rayRow w 0 (.lane 2) (.v 8) { uni := 6, al := 8 }),
  (0x166, fun w => rayRow w 1 (.lane 4) (.v 4) { uni := 12, al := 4 }),
  (0x167, fun w => rayRow w 0 (.lane 4) (.v 4) .pairs (.w 4) true),
  (0x168, fun w => rayRow w 0 (.lane 4) (.v 4) (.v 2) (.w 2) true),
  (0x169, fun w => rayRow w 7 (.x4 (decide (4 ≤ w.rmode))) .sv .sv (.w 2)),
  (0x16A, fun w => rayRow w 4 (.x4 (decide (w.rmode = 4))) .pairs .none .pairs),
  (0x16B, fun w => rayRow w 4 (.x4 (decide (w.rmode = 4))) .pairs .none .pairs)]

/-! ### The rows of the reservoir and reuse class (R380, R381) -/

/-- MODE of the class: EXT [124:122]. -/
def Raw.vmode (w : Raw) : Nat := w.up.ext.toNat / 2 ^ 16 % 8
/-- EXT masks: MODE, and MODE with MCAP. -/
def exVmode : BitVec 22 := 0x070000
def exMcap : BitVec 22 := 0x07FFFF

/-- A record word, in the reservoir space. -/
def recRow (w : Raw) (dst : DstK) (sb sc : Opd := .none) (cap : Bool := false) : Row :=
  { dst := dst, sa := .base 3, sb := sb, sc := sc, ext := if cap then exMcap else exVmode, off := true,
    up := upCopy w.up [3] false, more := when (decide (0 < w.vmode)) 0x04 }
/-- A store-wide word with MODE at most `m`. -/
def rsvRow (w : Raw) (m : Nat) (dst : DstK) (sa sb : Opd := .none) (more : List Nat := []) : Row :=
  { dst := dst, sa := sa, sb := sb, ext := exVmode, up := upCopy w.up [0] false,
    more := when (decide (m < w.vmode)) 0x04 ++ more }

def rowsReservoir : List (Nat × (Raw → Row)) := [
  (0x170, fun w => recRow w (.lane 8)),
  (0x171, fun w => recRow w .none .none (.v 8)),
  (0x172, fun w => recRow w (.lane 1) (.v 8) .none true),
  (0x173, fun w => recRow w (.lane 1) (.v 2) .v true),
  (0x174, fun w => recRow w (.lane 1)),
  (0x175, fun w => recRow w .none),
  (0x176, fun w => recRow w .none),
  (0x177, fun w => rsvRow w 1 .none),
  (0x178, fun w => rsvRow w 2 (.uni 4)),
  (0x179, fun w => rsvRow w 0 .none .wp),
  (0x17A, fun w => rsvRow w 0 .none { uni := 16, al := 1 } .none
                     (when (decide (w.ka = 1) && decide (w.sa.toNat % 16 ≠ 0)) 0x05)),
  (0x17B, fun w => rsvRow w 0 .none .v { lane := 8, zero := true })]

/-! ### The rows of the radiance-cache class (R411, R412) -/

/-- MODE of the class: EXT [108:106]. -/
def Raw.cmode (w : Raw) : Nat := w.up.ext.toNat % 8

/-- A word of the class with MODE at most `m`. -/
def radRow (w : Raw) (m : Nat) (dst : DstK) (sa sb sc : Opd := .none) (mem : Bool := false) : Row :=
  { dst := dst, sa := sa, sb := sb, sc := sc, ext := 0x07, off := mem, up := upCopy w.up [0] mem,
    more := when (decide (m < w.cmode)) 0x04 }

def rowsRadiance : List (Nat × (Raw → Row)) := [
  (0x180, fun w => radRow w 0 (.lane 4) (.v 16)),
  (0x181, fun w => radRow w 0 (.lane 4) (.v 16) (.v 4) { lane := 1, uni := 1 }),
  (0x182, fun w => radRow w 0 (.uni 1)),
  (0x183, fun w => radRow w 0 .none (.ubase 0) .none .none true),
  (0x184, fun w => radRow w 0 .none (.ubase 0) .none .none true),
  (0x185, fun w => radRow w 2 (.uni 4))]

/-! ### The rows of the launch and work-graph class (R441, R442) -/

/-- MODE of the class: EXT [108:106]. -/
def Raw.lmode (w : Raw) : Nat := w.up.ext.toNat % 8

/-- Upper fields of NODE.ENQ and NODE.ENQN. -/
def upNode (u : Upper) : Bool :=
  decide (u.rch = 0) && !u.racq && decide (u.space.toNat ≤ 1)
    && ((decide (u.ord = 0) && decide (u.scope = 0))
      || (decide (u.ord = 2) && decide (4 ≤ u.scope.toNat) && decide (u.scope.toNat ≤ 6)))

/-- A word of the class with MODE at most `m`. -/
def launchRow (w : Raw) (m : Nat) (dst : DstK) (sa sb sc : Opd := .none) (off : Bool := false) : Row :=
  { dst := dst, sa := sa, sb := sb, sc := sc, ext := 0x07, off := off, up := upPlain w.up,
    more := when (decide (m < w.lmode)) 0x04 }

def rowsLaunch : List (Nat × (Raw → Row)) := [
  (0x188, fun w => launchRow w 0 (.uni 1) (.ubase 0) .none .none true),
  (0x189, fun w => launchRow w 0 (.uni 1) (.ubase 0) .u .none true),
  (0x18A, fun w => { launchRow w 0 .none (.base w.up.space) .u .none true with up := upNode w.up }),
  (0x18B, fun w => { launchRow w 0 .none (.ubase w.up.space) .u .u true with up := upNode w.up }),
  (0x18C, fun w => launchRow w 0 (.uni 4)),
  (0x18D, fun w => launchRow w 1 (.uni 1) .u (if w.lmode = 0 then .u else .none)),
  (0x18E, fun w => launchRow w 0 .none),
  (0x18F, fun w => launchRow w 0 (.uni 1) (.ubase 0) .up .u true),
  (0x190, fun w => launchRow w 0 (.uni 1) .u),
  (0x191, fun w => launchRow w 0 (.uni 1) .u),
  (0x192, fun w => launchRow w 0 .none .u),
  (0x193, fun w => launchRow w 0 (.uni 4) .u),
  (0x194, fun w => launchRow w 0 (.uni 4)),
  (0x195, fun w => launchRow w 0 .none .u)]

/-! ### The rows of the die class (R513) -/

/-- The code s of the class. -/
def Opd.s : Opd := { lane := 1, uni := 1, imm := true, zero := true }

def rowsDie : List (Nat × (Raw → Row)) := [
  (0x1C0, fun w => { dst := .lane 1, sa := .s, sb := .s, up := upPlain w.up }),
  (0x1C1, fun w => { dst := .uni 2, sa := .u, up := upPlain w.up }),
  (0x1C2, fun w => { dst := .uni 4, sa := .u, up := upPlain w.up }),
  (0x1C3, fun w => { dst := .uni 4, sa := .u, up := upPlain w.up }),
  (0x1C4, fun w => { dst := .uni 4, sa := .u, up := upPlain w.up }),
  (0x1C5, fun w => { dst := .lane 1, sa := .s, up := upPlain w.up })]

end Sys2Proof.Machine
end

