-- ==== Sys2Proof/WellFormed.lean ====
section
/-! DEFINITION. Which instructions are well formed: those whose fields an instruction word can hold
with the meaning that the entry of the opcode gives them, judged by the same rows as the decoder
(R47 to R57) in the context that shows only the word itself. -/

namespace Sys2Proof

open Machine

/-- The opcode of an instruction word (R59); 0 for an event. -/
def Instr.opcode : Instr → Nat
  | .nop _ => 0x001
  | .bra _ => 0x002
  | .bru _ => 0x003
  | .brany _ => 0x004
  | .brall _ => 0x005
  | .brx _ => 0x006
  | .call _ => 0x007
  | .callx _ => 0x008
  | .ret _ => 0x009
  | .exit _ => 0x00A
  | .rcbArm _ => 0x00B
  | .rcbWait _ => 0x00C
  | .rcbClr _ => 0x00D
  | .yield _ => 0x00E
  | .prioSet _ => 0x00F
  | .prioGet _ => 0x010
  | .srd _ => 0x011
  | .srd64 _ => 0x012
  | .sleep _ => 0x013
  | .ldpc _ => 0x014
  | .iadd _ => 0x020
  | .iadd64 _ => 0x021
  | .isub _ => 0x022
  | .isub64 _ => 0x023
  | .iaddc _ => 0x024
  | .isubb _ => 0x025
  | .iadd3 _ => 0x026
  | .lea _ => 0x027
  | .imulLo _ => 0x028
  | .imulHi _ => 0x029
  | .imulWide _ => 0x02A
  | .imadLo _ => 0x02B
  | .imadHi _ => 0x02C
  | .imadWide _ => 0x02D
  | .idiv _ => 0x02E
  | .irem _ => 0x02F
  | .iabs _ => 0x030
  | .ineg _ => 0x031
  | .imin _ => 0x032
  | .imax _ => 0x033
  | .imin64 _ => 0x034
  | .imax64 _ => 0x035
  | .icmp _ => 0x036
  | .icmp64 _ => 0x037
  | .isetm _ => 0x038
  | .sel _ => 0x039
  | .sel64 _ => 0x03A
  | .mov _ => 0x03B
  | .mov64 _ => 0x03C
  | .movw _ => 0x03D
  | .vadie _ => 0x03E
  | .idp4 _ => 0x03F
  | .and _ => 0x040
  | .or _ => 0x041
  | .xor _ => 0x042
  | .andn _ => 0x043
  | .lop3 _ => 0x044
  | .shl _ => 0x045
  | .shr _ => 0x046
  | .sar _ => 0x047
  | .rot _ => 0x048
  | .shl64 _ => 0x049
  | .shr64 _ => 0x04A
  | .sar64 _ => 0x04B
  | .bfx _ => 0x04C
  | .bfi _ => 0x04D
  | .popc _ => 0x04E
  | .clz _ => 0x04F
  | .ctz _ => 0x050
  | .brev _ => 0x051
  | .bperm _ => 0x052
  | .sad _ => 0x053
  | .faddF32 _ => 0x060
  | .faddF16 _ => 0x061
  | .faddBf16 _ => 0x062
  | .fmulF32 _ => 0x063
  | .fmulF16 _ => 0x064
  | .fmulBf16 _ => 0x065
  | .ffmaF32 _ => 0x066
  | .ffmaF16 _ => 0x067
  | .ffmaBf16 _ => 0x068
  | .fminF32 _ => 0x069
  | .fminF16 _ => 0x06A
  | .fminBf16 _ => 0x06B
  | .fmaxF32 _ => 0x06C
  | .fmaxF16 _ => 0x06D
  | .fmaxBf16 _ => 0x06E
  | .fcmpF32 _ => 0x06F
  | .fcmpF16 _ => 0x070
  | .fcmpBf16 _ => 0x071
  | .fsetmF32 _ => 0x072
  | .fsetmF16 _ => 0x073
  | .fsetmBf16 _ => 0x074
  | .fclassF32 _ => 0x075
  | .fclassF16 _ => 0x076
  | .fclassBf16 _ => 0x077
  | .frndF32 _ => 0x078
  | .frndF16 _ => 0x079
  | .frndBf16 _ => 0x07A
  | .fldexpF32 _ => 0x07B
  | .fcpysF32 _ => 0x07C
  | .fmed3F32 _ => 0x07D
  | .fdot2Bf16 _ => 0x07E
  | .pair _ _ => 0x07F
  | .hadd2F16 _ => 0x080
  | .hadd2Bf16 _ => 0x081
  | .hmul2F16 _ => 0x082
  | .hmul2Bf16 _ => 0x083
  | .hfma2F16 _ => 0x084
  | .hfma2Bf16 _ => 0x085
  | .frcpF32 _ => 0x088
  | .frsqF32 _ => 0x089
  | .fsqrtF32 _ => 0x08A
  | .fdivF32 _ => 0x08B
  | .fexp2F32 _ => 0x08C
  | .flog2F32 _ => 0x08D
  | .fsinF32 _ => 0x08E
  | .fcosF32 _ => 0x08F
  | .fexp2F16 _ => 0x090
  | .cvtF16F32 _ => 0x098
  | .cvtBf16F32 _ => 0x099
  | .cvtF32F16 _ => 0x09A
  | .cvtF32Bf16 _ => 0x09B
  | .cvtBf16F16 _ => 0x09C
  | .cvtF16Bf16 _ => 0x09D
  | .cvtF16x2F32 _ => 0x09E
  | .cvtBf16x2F32 _ => 0x09F
  | .cvtS32F32 _ => 0x0A0
  | .cvtN32F32 _ => 0x0A1
  | .cvtS64F32 _ => 0x0A2
  | .cvtN64F32 _ => 0x0A3
  | .cvtF32S32 _ => 0x0A4
  | .cvtF32N32 _ => 0x0A5
  | .cvtF32S64 _ => 0x0A6
  | .cvtF32N64 _ => 0x0A7
  | .qdecBf16 _ => 0x0A8
  | .qdecF32 _ => 0x0A9
  | .qencBf16 _ => 0x0AA
  | .qencF32 _ => 0x0AB
  | .qscl _ => 0x0AC
  | .shflIdx _ => 0x0C0
  | .shflXor _ => 0x0C1
  | .shflUp _ => 0x0C2
  | .shflDown _ => 0x0C3
  | .voteAny _ => 0x0C4
  | .voteAll _ => 0x0C5
  | .voteBallot _ => 0x0C6
  | .voteEq _ => 0x0C7
  | .wredIadd _ => 0x0C8
  | .wredFadd _ => 0x0C9
  | .wredMin _ => 0x0CA
  | .wredMax _ => 0x0CB
  | .wredAnd _ => 0x0CC
  | .wredOr _ => 0x0CD
  | .wredXor _ => 0x0CE
  | .wscanIadd _ => 0x0CF
  | .wscanFadd _ => 0x0D0
  | .mlop _ => 0x0D1
  | .ld8 _ _ => 0x0E0
  | .ld16 _ _ => 0x0E1
  | .ld32 _ _ => 0x0E2
  | .ld64 _ _ => 0x0E3
  | .ld128 _ _ => 0x0E4
  | .ldUb _ _ => 0x0E5
  | .st8 _ _ => 0x0E6
  | .st16 _ _ => 0x0E7
  | .st32 _ _ => 0x0E8
  | .st64 _ _ => 0x0E9
  | .st128 _ _ => 0x0EA
  | .stUb _ _ => 0x0EB
  | .gath32 _ _ => 0x0EC
  | .gath64 _ _ => 0x0ED
  | .scat32 _ _ => 0x0EE
  | .scat64 _ _ => 0x0EF
  | .ldw32 _ _ => 0x0F0
  | .ldw64 _ _ => 0x0F1
  | .ldt _ _ => 0x0F2
  | .stt _ _ => 0x0F3
  | .pref _ _ => 0x0F4
  | .prefL2 _ _ => 0x0F5
  | .cctlInv _ _ => 0x0F6
  | .cctlWb _ _ => 0x0F7
  | .cctlWbinv _ _ => 0x0F8
  | .carve _ _ => 0x0F9
  | .stzLine _ _ => 0x0FA
  | .ldtTr _ _ => 0x0FB
  | .tlbq _ _ => 0x0FC
  | .prefRange _ _ => 0x0FD
  | .ldw128 _ _ => 0x0FE
  | .stMsk _ _ => 0x0FF
  | .ldBc _ _ => 0x100
  | .stzSec _ _ => 0x101
  | .atomAdd _ _ => 0x110
  | .atomMin _ _ => 0x111
  | .atomMax _ _ => 0x112
  | .atomAnd _ _ => 0x113
  | .atomOr _ _ => 0x114
  | .atomXor _ _ => 0x115
  | .atomXchg _ _ => 0x116
  | .atomCas _ _ => 0x117
  | .atomAdd64 _ _ => 0x118
  | .atomMin64 _ _ => 0x119
  | .atomMax64 _ _ => 0x11A
  | .atomAnd64 _ _ => 0x11B
  | .atomOr64 _ _ => 0x11C
  | .atomXor64 _ _ => 0x11D
  | .atomXchg64 _ _ => 0x11E
  | .atomCas64 _ _ => 0x11F
  | .atomFaddF32 _ _ => 0x120
  | .atomFminF32 _ _ => 0x121
  | .atomFmaxF32 _ _ => 0x122
  | .atomInc _ _ => 0x123
  | .atomDec _ _ => 0x124
  | .atomCas128 _ _ => 0x125
  | .redAdd _ _ => 0x126
  | .redFaddF32 _ _ => 0x127
  | .fence _ _ => 0x128
  | .barWg _ _ => 0x129
  | .barArrive _ _ => 0x12A
  | .barWait _ _ => 0x12B
  | .gbar _ _ => 0x12C
  | .gbarArrive _ _ => 0x12D
  | .gbarWait _ _ => 0x12E
  | .gcoll _ _ => 0x12F
  | .chopen _ _ => 0x130
  | .chclose _ _ => 0x131
  | .waitc _ _ => 0x132
  | .redAdd64 _ _ => 0x133
  | .chdef _ _ => 0x140
  | .chrst _ _ => 0x141
  | .chprodRsv _ _ => 0x142
  | .chprodPub _ _ => 0x142
  | .chcons _ _ => 0x143
  | .chwp _ _ => 0x144
  | .chwaitData _ _ => 0x145
  | .chwaitRoom _ _ => 0x145
  | .copyG2s _ _ => 0x146
  | .copyS2g _ _ => 0x147
  | .copyG2g _ _ => 0x148
  | .copyTile _ _ => 0x149
  | .bxform _ _ => 0x14A
  | .copyFill _ _ => 0x14B
  | .wld _ _ => 0x150
  | .wswap _ _ => 0x151
  | .mpass _ _ => 0x152
  | .mpassb _ _ => 0x153
  | .mspass _ _ => 0x154
  | .macz _ _ => 0x155
  | .macr _ _ => 0x156
  | .mepf _ _ => 0x157
  | .wscl _ _ => 0x158
  | .msel _ _ => 0x159
  | .mflushWait _ _ => 0x15A
  | .mflushClr _ _ => 0x15A
  | .mstat _ _ => 0x15B
  | .trace _ _ => 0x160
  | .traceCont _ _ => 0x161
  | .traceOcc _ _ => 0x162
  | .traceEnd _ _ => 0x163
  | .rayq _ _ => 0x164
  | .rayc _ _ => 0x165
  | .rayxf _ _ => 0x166
  | .ltwalk _ _ => 0x167
  | .ltpdf _ _ => 0x168
  | .sobol _ _ => 0x169
  | .rnd _ _ => 0x16A
  | .rndf _ _ => 0x16B
  | .rsvld _ _ => 0x170
  | .rsvst _ _ => 0x171
  | .rsvupd _ _ => 0x172
  | .rsvmrg _ _ => 0x173
  | .rsvnrm _ _ => 0x174
  | .rsvclr _ _ => 0x175
  | .rsvhalo _ _ => 0x176
  | .rsvswap _ _ => 0x177
  | .rsvq _ _ => 0x178
  | .rsvcfg _ _ => 0x179
  | .ruse _ _ => 0x17A
  | .calret _ _ => 0x17B
  | .rcq _ _ => 0x180
  | .rcqTrain _ _ => 0x181
  | .rcgen _ _ => 0x182
  | .rcwld _ _ => 0x183
  | .rcwst _ _ => 0x184
  | .rcstepStat _ _ => 0x185
  | .rcstepWait _ _ => 0x185
  | .rcstepClr _ _ => 0x185
  | .launch _ _ => 0x188
  | .launchDep _ _ => 0x189
  | .nodeEnq _ _ => 0x18A
  | .nodeEnqn _ _ => 0x18B
  | .nodeRec _ _ => 0x18C
  | .evwait _ _ => 0x18D
  | .evsig _ _ => 0x18E
  | .graphStart _ _ => 0x18F
  | .graphWait _ _ => 0x190
  | .lrq _ _ => 0x191
  | .lcancel _ _ => 0x192
  | .lquery _ _ => 0x193
  | .wgid _ _ => 0x194
  | .graphAbort _ _ => 0x195
  | .trap _ => 0x1A0
  | .bkpt _ => 0x1A1
  | .reth _ => 0x1A2
  | .thrd _ => 0x1A3
  | .thwr _ => 0x1A4
  | .fstk _ => 0x1A5
  | .fstkclr _ => 0x1A6
  | .asrt _ => 0x1A7
  | .pmcrd _ => 0x1A8
  | .pmccfg _ => 0x1A9
  | .pmcclr _ => 0x1AA
  | .dbgmsg _ => 0x1AB
  | .ctxend _ => 0x1AC
  | .hcall _ => 0x1AD
  | .hcallw _ => 0x1AE
  | .errq _ => 0x1AF
  | .prchk _ => 0x1B0
  | .mcrd _ => 0x1B1
  | .dhop _ _ => 0x1C0
  | .dcnt _ _ => 0x1C1
  | .dfreq _ _ => 0x1C2
  | .dtime _ _ => 0x1C3
  | .dlink _ _ => 0x1C4
  | .dquad _ _ => 0x1C5
  | _ => 0

/-- The format A fields of an instruction word. -/
def Instr.fmt : Instr → Option FmtA
  | .bra f => some f
  | .bru f => some f
  | .brany f => some f
  | .brall f => some f
  | .brx f => some f
  | .call f => some f
  | .callx f => some f
  | .ret f => some f
  | .exit f => some f
  | .rcbArm f => some f
  | .rcbWait f => some f
  | .rcbClr f => some f
  | .yield f => some f
  | .prioSet f => some f
  | .prioGet f => some f
  | .srd f => some f
  | .srd64 f => some f
  | .sleep f => some f
  | .ldpc f => some f
  | .iadd f => some f
  | .iadd64 f => some f
  | .isub f => some f
  | .isub64 f => some f
  | .iaddc f => some f
  | .isubb f => some f
  | .iadd3 f => some f
  | .lea f => some f
  | .imulLo f => some f
  | .imulHi f => some f
  | .imulWide f => some f
  | .imadLo f => some f
  | .imadHi f => some f
  | .imadWide f => some f
  | .idiv f => some f
  | .irem f => some f
  | .iabs f => some f
  | .ineg f => some f
  | .imin f => some f
  | .imax f => some f
  | .imin64 f => some f
  | .imax64 f => some f
  | .icmp f => some f
  | .icmp64 f => some f
  | .isetm f => some f
  | .sel f => some f
  | .sel64 f => some f
  | .mov f => some f
  | .mov64 f => some f
  | .movw f => some f
  | .vadie f => some f
  | .idp4 f => some f
  | .and f => some f
  | .or f => some f
  | .xor f => some f
  | .andn f => some f
  | .lop3 f => some f
  | .shl f => some f
  | .shr f => some f
  | .sar f => some f
  | .rot f => some f
  | .shl64 f => some f
  | .shr64 f => some f
  | .sar64 f => some f
  | .bfx f => some f
  | .bfi f => some f
  | .popc f => some f
  | .clz f => some f
  | .ctz f => some f
  | .brev f => some f
  | .bperm f => some f
  | .sad f => some f
  | .faddF32 f => some f
  | .faddF16 f => some f
  | .faddBf16 f => some f
  | .fmulF32 f => some f
  | .fmulF16 f => some f
  | .fmulBf16 f => some f
  | .ffmaF32 f => some f
  | .ffmaF16 f => some f
  | .ffmaBf16 f => some f
  | .fminF32 f => some f
  | .fminF16 f => some f
  | .fminBf16 f => some f
  | .fmaxF32 f => some f
  | .fmaxF16 f => some f
  | .fmaxBf16 f => some f
  | .fcmpF32 f => some f
  | .fcmpF16 f => some f
  | .fcmpBf16 f => some f
  | .fsetmF32 f => some f
  | .fsetmF16 f => some f
  | .fsetmBf16 f => some f
  | .fclassF32 f => some f
  | .fclassF16 f => some f
  | .fclassBf16 f => some f
  | .frndF32 f => some f
  | .frndF16 f => some f
  | .frndBf16 f => some f
  | .fldexpF32 f => some f
  | .fcpysF32 f => some f
  | .fmed3F32 f => some f
  | .fdot2Bf16 f => some f
  | .hadd2F16 f => some f
  | .hadd2Bf16 f => some f
  | .hmul2F16 f => some f
  | .hmul2Bf16 f => some f
  | .hfma2F16 f => some f
  | .hfma2Bf16 f => some f
  | .frcpF32 f => some f
  | .frsqF32 f => some f
  | .fsqrtF32 f => some f
  | .fdivF32 f => some f
  | .fexp2F32 f => some f
  | .flog2F32 f => some f
  | .fsinF32 f => some f
  | .fcosF32 f => some f
  | .fexp2F16 f => some f
  | .cvtF16F32 f => some f
  | .cvtBf16F32 f => some f
  | .cvtF32F16 f => some f
  | .cvtF32Bf16 f => some f
  | .cvtBf16F16 f => some f
  | .cvtF16Bf16 f => some f
  | .cvtF16x2F32 f => some f
  | .cvtBf16x2F32 f => some f
  | .cvtS32F32 f => some f
  | .cvtN32F32 f => some f
  | .cvtS64F32 f => some f
  | .cvtN64F32 f => some f
  | .cvtF32S32 f => some f
  | .cvtF32N32 f => some f
  | .cvtF32S64 f => some f
  | .cvtF32N64 f => some f
  | .qdecBf16 f => some f
  | .qdecF32 f => some f
  | .qencBf16 f => some f
  | .qencF32 f => some f
  | .qscl f => some f
  | .shflIdx f => some f
  | .shflXor f => some f
  | .shflUp f => some f
  | .shflDown f => some f
  | .voteAny f => some f
  | .voteAll f => some f
  | .voteBallot f => some f
  | .voteEq f => some f
  | .wredIadd f => some f
  | .wredFadd f => some f
  | .wredMin f => some f
  | .wredMax f => some f
  | .wredAnd f => some f
  | .wredOr f => some f
  | .wredXor f => some f
  | .wscanIadd f => some f
  | .wscanFadd f => some f
  | .mlop f => some f
  | .ld8 f _ => some f
  | .ld16 f _ => some f
  | .ld32 f _ => some f
  | .ld64 f _ => some f
  | .ld128 f _ => some f
  | .ldUb f _ => some f
  | .st8 f _ => some f
  | .st16 f _ => some f
  | .st32 f _ => some f
  | .st64 f _ => some f
  | .st128 f _ => some f
  | .stUb f _ => some f
  | .gath32 f _ => some f
  | .gath64 f _ => some f
  | .scat32 f _ => some f
  | .scat64 f _ => some f
  | .ldw32 f _ => some f
  | .ldw64 f _ => some f
  | .ldt f _ => some f
  | .stt f _ => some f
  | .pref f _ => some f
  | .prefL2 f _ => some f
  | .cctlInv f _ => some f
  | .cctlWb f _ => some f
  | .cctlWbinv f _ => some f
  | .carve f _ => some f
  | .stzLine f _ => some f
  | .ldtTr f _ => some f
  | .tlbq f _ => some f
  | .prefRange f _ => some f
  | .ldw128 f _ => some f
  | .stMsk f _ => some f
  | .ldBc f _ => some f
  | .stzSec f _ => some f
  | .atomAdd f _ => some f
  | .atomMin f _ => some f
  | .atomMax f _ => some f
  | .atomAnd f _ => some f
  | .atomOr f _ => some f
  | .atomXor f _ => some f
  | .atomXchg f _ => some f
  | .atomCas f _ => some f
  | .atomAdd64 f _ => some f
  | .atomMin64 f _ => some f
  | .atomMax64 f _ => some f
  | .atomAnd64 f _ => some f
  | .atomOr64 f _ => some f
  | .atomXor64 f _ => some f
  | .atomXchg64 f _ => some f
  | .atomCas64 f _ => some f
  | .atomFaddF32 f _ => some f
  | .atomFminF32 f _ => some f
  | .atomFmaxF32 f _ => some f
  | .atomInc f _ => some f
  | .atomDec f _ => some f
  | .atomCas128 f _ => some f
  | .redAdd f _ => some f
  | .redFaddF32 f _ => some f
  | .fence f _ => some f
  | .barWg f _ => some f
  | .barArrive f _ => some f
  | .barWait f _ => some f
  | .gbar f _ => some f
  | .gbarArrive f _ => some f
  | .gbarWait f _ => some f
  | .gcoll f _ => some f
  | .chopen f _ => some f
  | .chclose f _ => some f
  | .waitc f _ => some f
  | .redAdd64 f _ => some f
  | .chdef f _ => some f
  | .chrst f _ => some f
  | .chprodRsv f _ => some f
  | .chprodPub f _ => some f
  | .chcons f _ => some f
  | .chwp f _ => some f
  | .chwaitData f _ => some f
  | .chwaitRoom f _ => some f
  | .copyG2s f _ => some f
  | .copyS2g f _ => some f
  | .copyG2g f _ => some f
  | .copyTile f _ => some f
  | .bxform f _ => some f
  | .copyFill f _ => some f
  | .wld f _ => some f
  | .wswap f _ => some f
  | .mpass f _ => some f
  | .mpassb f _ => some f
  | .mspass f _ => some f
  | .macz f _ => some f
  | .macr f _ => some f
  | .mepf f _ => some f
  | .wscl f _ => some f
  | .msel f _ => some f
  | .mflushWait f _ => some f
  | .mflushClr f _ => some f
  | .mstat f _ => some f
  | .trace f _ => some f
  | .traceCont f _ => some f
  | .traceOcc f _ => some f
  | .traceEnd f _ => some f
  | .rayq f _ => some f
  | .rayc f _ => some f
  | .rayxf f _ => some f
  | .ltwalk f _ => some f
  | .ltpdf f _ => some f
  | .sobol f _ => some f
  | .rnd f _ => some f
  | .rndf f _ => some f
  | .rsvld f _ => some f
  | .rsvst f _ => some f
  | .rsvupd f _ => some f
  | .rsvmrg f _ => some f
  | .rsvnrm f _ => some f
  | .rsvclr f _ => some f
  | .rsvhalo f _ => some f
  | .rsvswap f _ => some f
  | .rsvq f _ => some f
  | .rsvcfg f _ => some f
  | .ruse f _ => some f
  | .calret f _ => some f
  | .rcq f _ => some f
  | .rcqTrain f _ => some f
  | .rcgen f _ => some f
  | .rcwld f _ => some f
  | .rcwst f _ => some f
  | .rcstepStat f _ => some f
  | .rcstepWait f _ => some f
  | .rcstepClr f _ => some f
  | .launch f _ => some f
  | .launchDep f _ => some f
  | .nodeEnq f _ => some f
  | .nodeEnqn f _ => some f
  | .nodeRec f _ => some f
  | .evwait f _ => some f
  | .evsig f _ => some f
  | .graphStart f _ => some f
  | .graphWait f _ => some f
  | .lrq f _ => some f
  | .lcancel f _ => some f
  | .lquery f _ => some f
  | .wgid f _ => some f
  | .graphAbort f _ => some f
  | .trap f => some f
  | .bkpt f => some f
  | .reth f => some f
  | .thrd f => some f
  | .thwr f => some f
  | .fstk f => some f
  | .fstkclr f => some f
  | .asrt f => some f
  | .pmcrd f => some f
  | .pmccfg f => some f
  | .pmcclr f => some f
  | .dbgmsg f => some f
  | .ctxend f => some f
  | .hcall f => some f
  | .hcallw f => some f
  | .errq f => some f
  | .prchk f => some f
  | .mcrd f => some f
  | .dhop f _ => some f
  | .dcnt f _ => some f
  | .dfreq f _ => some f
  | .dtime f _ => some f
  | .dlink f _ => some f
  | .dquad f _ => some f
  | _ => none

/-- The upper half of a 128-bit word. -/
def Instr.upper : Instr → Option Upper
  | .ld8 _ x => some x
  | .ld16 _ x => some x
  | .ld32 _ x => some x
  | .ld64 _ x => some x
  | .ld128 _ x => some x
  | .ldUb _ x => some x
  | .st8 _ x => some x
  | .st16 _ x => some x
  | .st32 _ x => some x
  | .st64 _ x => some x
  | .st128 _ x => some x
  | .stUb _ x => some x
  | .gath32 _ x => some x
  | .gath64 _ x => some x
  | .scat32 _ x => some x
  | .scat64 _ x => some x
  | .ldw32 _ x => some x
  | .ldw64 _ x => some x
  | .ldt _ x => some x
  | .stt _ x => some x
  | .pref _ x => some x
  | .prefL2 _ x => some x
  | .cctlInv _ x => some x
  | .cctlWb _ x => some x
  | .cctlWbinv _ x => some x
  | .carve _ x => some x
  | .stzLine _ x => some x
  | .ldtTr _ x => some x
  | .tlbq _ x => some x
  | .prefRange _ x => some x
  | .ldw128 _ x => some x
  | .stMsk _ x => some x
  | .ldBc _ x => some x
  | .stzSec _ x => some x
  | .atomAdd _ x => some x
  | .atomMin _ x => some x
  | .atomMax _ x => some x
  | .atomAnd _ x => some x
  | .atomOr _ x => some x
  | .atomXor _ x => some x
  | .atomXchg _ x => some x
  | .atomCas _ x => some x
  | .atomAdd64 _ x => some x
  | .atomMin64 _ x => some x
  | .atomMax64 _ x => some x
  | .atomAnd64 _ x => some x
  | .atomOr64 _ x => some x
  | .atomXor64 _ x => some x
  | .atomXchg64 _ x => some x
  | .atomCas64 _ x => some x
  | .atomFaddF32 _ x => some x
  | .atomFminF32 _ x => some x
  | .atomFmaxF32 _ x => some x
  | .atomInc _ x => some x
  | .atomDec _ x => some x
  | .atomCas128 _ x => some x
  | .redAdd _ x => some x
  | .redFaddF32 _ x => some x
  | .fence _ x => some x
  | .barWg _ x => some x
  | .barArrive _ x => some x
  | .barWait _ x => some x
  | .gbar _ x => some x
  | .gbarArrive _ x => some x
  | .gbarWait _ x => some x
  | .gcoll _ x => some x
  | .chopen _ x => some x
  | .chclose _ x => some x
  | .waitc _ x => some x
  | .redAdd64 _ x => some x
  | .chdef _ x => some x
  | .chrst _ x => some x
  | .chprodRsv _ x => some x
  | .chprodPub _ x => some x
  | .chcons _ x => some x
  | .chwp _ x => some x
  | .chwaitData _ x => some x
  | .chwaitRoom _ x => some x
  | .copyG2s _ x => some x
  | .copyS2g _ x => some x
  | .copyG2g _ x => some x
  | .copyTile _ x => some x
  | .bxform _ x => some x
  | .copyFill _ x => some x
  | .wld _ x => some x
  | .wswap _ x => some x
  | .mpass _ x => some x
  | .mpassb _ x => some x
  | .mspass _ x => some x
  | .macz _ x => some x
  | .macr _ x => some x
  | .mepf _ x => some x
  | .wscl _ x => some x
  | .msel _ x => some x
  | .mflushWait _ x => some x
  | .mflushClr _ x => some x
  | .mstat _ x => some x
  | .trace _ x => some x
  | .traceCont _ x => some x
  | .traceOcc _ x => some x
  | .traceEnd _ x => some x
  | .rayq _ x => some x
  | .rayc _ x => some x
  | .rayxf _ x => some x
  | .ltwalk _ x => some x
  | .ltpdf _ x => some x
  | .sobol _ x => some x
  | .rnd _ x => some x
  | .rndf _ x => some x
  | .rsvld _ x => some x
  | .rsvst _ x => some x
  | .rsvupd _ x => some x
  | .rsvmrg _ x => some x
  | .rsvnrm _ x => some x
  | .rsvclr _ x => some x
  | .rsvhalo _ x => some x
  | .rsvswap _ x => some x
  | .rsvq _ x => some x
  | .rsvcfg _ x => some x
  | .ruse _ x => some x
  | .calret _ x => some x
  | .rcq _ x => some x
  | .rcqTrain _ x => some x
  | .rcgen _ x => some x
  | .rcwld _ x => some x
  | .rcwst _ x => some x
  | .rcstepStat _ x => some x
  | .rcstepWait _ x => some x
  | .rcstepClr _ x => some x
  | .launch _ x => some x
  | .launchDep _ x => some x
  | .nodeEnq _ x => some x
  | .nodeEnqn _ x => some x
  | .nodeRec _ x => some x
  | .evwait _ x => some x
  | .evsig _ x => some x
  | .graphStart _ x => some x
  | .graphWait _ x => some x
  | .lrq _ x => some x
  | .lcancel _ x => some x
  | .lquery _ x => some x
  | .wgid _ x => some x
  | .graphAbort _ x => some x
  | .dhop _ x => some x
  | .dcnt _ x => some x
  | .dfreq _ x => some x
  | .dtime _ x => some x
  | .dlink _ x => some x
  | .dquad _ x => some x
  | _ => none

/-- The kind and value fields of a source operand (R48). -/
def Src.kind : Src → BitVec 2
  | .lane _ => 0
  | .uni _ => 1
  | .imm _ => 2
  | .mask _ | .litS | .litZ | .zero | .laneIdx => 3

def Src.value : Src → BitVec 8
  | .lane n => n
  | .uni n => n.setWidth 8
  | .imm b => b
  | .mask k => k.setWidth 8
  | .litS => 0x08
  | .litZ => 0x09
  | .zero => 0x0A
  | .laneIdx => 0x0B

/-- The code of a lane condition (R49). -/
def Cond.code : Cond → BitVec 4
  | .always => 0 | .eq => 1 | .ne => 2 | .hs => 3 | .lo => 4 | .mi => 5 | .pl => 6 | .vs => 7
  | .vc => 8 | .hi => 9 | .ls => 10 | .ge => 11 | .lt => 12 | .gt => 13 | .le => 14

def Upper.blank : Upper :=
  { ext := 0, racq := false, gsel := 0, rch := 0, offset := 0, space := 0, evp := 0, scope := 0, ord := 0 }

/-- The raw fields of a word. -/
def rawOf (op : Nat) (f : FmtA) (x : Option Upper) : Raw :=
  { len := match x with
      | some _ => 2
      | none => match f.lit with
        | some _ => 1
        | none => 0
    op := op, dst := f.dst, sa := f.sa.value, sb := f.sb.value, sc := f.sc.value,
    ka := f.sa.kind, kb := f.sb.kind, kc := f.sc.kind, cond := f.cond.code, wcc := f.wcc, fsel := f.fsel,
    neg := f.neg, md := f.md, lit := f.lit.getD 0, up := x.getD Upper.blank }

/-- The rows of every class. -/
def rowsAll (cx : DecodeCtx) : List (Nat × (Raw → Row)) :=
  rowsControl ++ (rowsInteger ++ (rowsFloat cx ++ (rowsLanes ++ (rowsMemory ++ (rowsAtomic cx ++ (rowsCopy
    ++ (rowsMatrix cx ++ (rowsRay ++ (rowsReservoir ++ (rowsRadiance ++ (rowsLaunch ++ (rowsSystem
    ++ rowsDie))))))))))))

/-- The row of an opcode. -/
def rowOf (cx : DecodeCtx) (op : Nat) (w : Raw) : Option Row :=
  ((rowsAll cx).find? fun e => e.1 == op).map fun e => e.2 w

/-- The reasons of R57 that apply to a word other than PAIR and the clause header. -/
def wordReasons (cx : DecodeCtx) (w : Raw) : List Nat :=
  match rowOf cx w.op w with
  | none => if w.op < 0x1C8 then [0x01] else [0x02]
  | some r =>
    (if longOp w.op then when (decide (w.len ≠ 2)) 0x03
      else if w.op = 0x001 then when (decide (w.lit ≠ 0) || decide (w.up ≠ Upper.blank)) 0x04
      else when (decide (w.len = 2)) 0x03 ++ when (decide (w.len = 1) && !w.selectsLit) 0x06
        ++ when w.fsel 0x0B)
    ++ when (decide (w.op = 0x001) && w.fsel) 0x04
    ++ when (decide (w.op = 0x001) && decide (w.cond ≠ 0)) 0x04
    ++ rowReasons cx w r
    ++ when (decide (w.cond = 15)) 0x0F
    ++ when (decide (w.op ∈ closingOps) && !cx.last) 0x08
    ++ when (decide (w.op = 0x0F9) && cx.fuse) 0x10
    ++ when (decide (w.op = 0x17B) && !cx.micro) 0x11

/-! ### The PAIR word (R50 to R52) -/

/-- The sources of a compact operation: 1, 2 or 3 (R51). -/
def Compact.sources (c : Compact) : Nat :=
  if c.cop = 0x02 ∨ c.cop = 0x08 ∨ c.cop = 0x16 ∨ c.cop = 0x17 then 3
  else if 0x0F ≤ c.cop.toNat ∧ c.cop.toNat ≤ 0x15 then 1
  else 2

def Compact.isFloat (c : Compact) : Bool :=
  decide (c.cop.toNat ≤ 0x04) || (decide (0x10 ≤ c.cop.toNat) && decide (c.cop.toNat ≤ 0x17))

/-- COPs that may negate SB. -/
def Compact.mayNeg (c : Compact) : Bool :=
  decide (c.cop.toNat ≤ 0x08) || decide (c.cop = 0x16) || decide (c.cop = 0x17)

/-- Special-function and conversion halves, of which a PAIR holds one at most (R52). -/
def Compact.special (c : Compact) : Bool := decide (0x10 ≤ c.cop.toNat) && decide (c.cop.toNat ≤ 0x15)

/-- The lane registers that a half reads. -/
def Compact.reads (c : Compact) : List (BitVec 8) :=
  [c.sa] ++ (if 2 ≤ c.sources ∧ c.kb = false then [c.sb] else []) ++ (if c.sources = 3 then [c.sc] else [])

/-- Reasons for one half. -/
def Compact.reasons (cx : DecodeCtx) (c : Compact) : List Nat :=
  when (decide (0x17 < c.cop.toNat)) 0x0C
  ++ when (c.neg && !c.mayNeg) 0x04
  ++ when (decide (c.rm ≠ 0) && !c.isFloat) 0x04
  ++ when (decide (c.sources ≠ 3) && decide (c.sc ≠ 0)) 0x04
  ++ when (decide (c.sources = 1) && (decide (c.sb ≠ 0) || c.kb)) 0x04
  ++ when (decide (2 ≤ c.sources) && c.kb && decide (63 < c.sb.toNat)) 0x05
  ++ when (decide (2 ≤ c.sources) && c.kb && decide (cx.uregs ≤ c.sb.toNat)) 0x07
  ++ when (decide (cx.regs ≤ c.dst.toNat) || c.reads.any fun r => decide (cx.regs ≤ r.toNat)) 0x07

/-- The rules of R52. -/
def pairRule (x y : Compact) : Bool :=
  (x.reads.all fun a => y.reads.all fun b => decide (a.toNat % 4 = b.toNat % 4 → a = b))
  && !(x.special && y.special)
  && decide (x.dst ≠ y.dst) && decide (y.dst ∉ x.reads) && decide (x.dst ∉ y.reads)

/-- The reasons that apply to a PAIR word. -/
def pairReasons (cx : DecodeCtx) (x y : Compact) : List Nat :=
  x.reasons cx ++ y.reasons cx ++ when (!pairRule x y) 0x0C

/-! ### Clause headers (R40) -/

/-- The fields of a header lie in the ranges that R40 gives them. -/
def Header.ok (h : Header) : Bool :=
  decide (1 ≤ h.count) && decide (h.count ≤ 63)
    && (match h.flag0 with
        | some f => decide (f ≤ 11)
        | none => true)
    && (match h.flag1 with
        | some f => decide (f ≤ 11)
        | none => true)

/-! ### Well-formed instructions -/

/-- The word of an opcode is legal in the context that shows only the word; a 128-bit word has no literal. -/
def wordOk (op : Nat) (f : FmtA) (x : Option Upper) : Bool :=
  (wordReasons .free (rawOf op f x)).isEmpty && (x.isNone || f.lit.isNone)

/-- An instruction is well formed when its word is legal in the context that shows only the word, or
when it is an event. -/
def Instr.wellFormed : Instr → Bool
  | .nop _ => true
  | .pair x y => (pairReasons .free x y).isEmpty
  | .clauseStart h => h.ok
  | .chprodRsv f x => wordOk 0x142 f (some x) && decide (x.ext.toNat / 16 % 16 = 0)
  | .chprodPub f x => wordOk 0x142 f (some x) && decide (x.ext.toNat / 16 % 16 = 1)
  | .chwaitData f x => wordOk 0x145 f (some x) && decide (x.ext.toNat / 16 % 16 = 0)
  | .chwaitRoom f x => wordOk 0x145 f (some x) && decide (x.ext.toNat / 16 % 16 = 1)
  | .mflushWait f x => wordOk 0x15A f (some x) && decide (x.ext.toNat / 8 % 8 = 0)
  | .mflushClr f x => wordOk 0x15A f (some x) && decide (x.ext.toNat / 8 % 8 = 1)
  | .rcstepStat f x => wordOk 0x185 f (some x) && decide (x.ext.toNat % 8 = 0)
  | .rcstepWait f x => wordOk 0x185 f (some x) && decide (x.ext.toNat % 8 = 1)
  | .rcstepClr f x => wordOk 0x185 f (some x) && decide (x.ext.toNat % 8 = 2)
  | i =>
    match i.fmt with
    | some f => wordOk i.opcode f i.upper
    | none => true

end Sys2Proof
end

