-- ==== Sys2Proof/Decode.lean ====
section
/-! DEFINITION. Decoding and encoding of words (R37 to R57): total on any bytes, rejecting by name. -/

namespace Sys2Proof

open Machine

/-- Why bytes are no instruction: the names of R57's reasons, and bytes that end too soon. -/
inductive Reject where
  | truncated
  | unassigned | reservedBlock | length | reservedField | operandKind | literal | register | clause | target
  | crossing | flags | pairRule | upperField | channel | condition | carveFused | calret
  deriving DecidableEq, Repr

/-- The reason that R57 numbers. -/
def Reject.ofReason : Nat → Reject
  | 0x01 => .unassigned | 0x02 => .reservedBlock | 0x03 => .length | 0x04 => .reservedField
  | 0x05 => .operandKind | 0x06 => .literal | 0x07 => .register | 0x08 => .clause | 0x09 => .target
  | 0x0A => .crossing | 0x0B => .flags | 0x0C => .pairRule | 0x0D => .upperField | 0x0E => .channel
  | 0x0F => .condition | 0x10 => .carveFused | _ => .calret

/-- The reason's number, 0 for bytes that end too soon. -/
def Reject.code : Reject → Nat
  | .truncated => 0
  | .unassigned => 0x01 | .reservedBlock => 0x02 | .length => 0x03 | .reservedField => 0x04
  | .operandKind => 0x05 | .literal => 0x06 | .register => 0x07 | .clause => 0x08 | .target => 0x09
  | .crossing => 0x0A | .flags => 0x0B | .pairRule => 0x0C | .upperField => 0x0D | .channel => 0x0E
  | .condition => 0x0F | .carveFused => 0x10 | .calret => 0x11

/-! ### Fields of a word -/

/-- The 128 bits of a word from its fields (R47, R53); shorter words leave the bits above at 0, and the
literal of a 96-bit word takes bits [95:64]. -/
def Machine.Raw.low (w : Raw) : BitVec 64 :=
  w.md ++ BitVec.ofBool w.neg ++ BitVec.ofBool w.fsel ++ BitVec.ofBool w.wcc ++ w.cond ++ w.kc ++ w.kb ++ w.ka
    ++ w.sc ++ w.sb ++ w.sa ++ w.dst ++ BitVec.ofNat 9 w.op ++ w.len

def Upper.toBits (u : Upper) : BitVec 64 :=
  u.ext ++ BitVec.ofBool u.racq ++ u.gsel ++ u.rch ++ u.offset ++ u.space ++ u.evp ++ u.scope ++ u.ord

def Upper.ofBits (b : BitVec 64) : Upper :=
  { ord := b.extractLsb' 0 2, scope := b.extractLsb' 2 3, evp := b.extractLsb' 5 3, space := b.extractLsb' 8 3,
    offset := b.extractLsb' 11 24, rch := b.extractLsb' 35 4, gsel := b.extractLsb' 39 2,
    racq := b.getLsbD 41, ext := b.extractLsb' 42 22 }

/-- The 128 bits of a word that is not a PAIR word. -/
def Machine.Raw.toBits (w : Raw) : BitVec 128 :=
  (if w.len = 2 then w.up.toBits else if w.len = 1 then w.lit.setWidth 64 else 0) ++ w.low

/-- The fields of a word that is not a PAIR word. -/
def Machine.Raw.ofBits (b : BitVec 128) : Raw :=
  let len := b.extractLsb' 0 2
  { len := len, op := (b.extractLsb' 2 9).toNat, dst := b.extractLsb' 11 8, sa := b.extractLsb' 19 8,
    sb := b.extractLsb' 27 8, sc := b.extractLsb' 35 8, ka := b.extractLsb' 43 2, kb := b.extractLsb' 45 2,
    kc := b.extractLsb' 47 2, cond := b.extractLsb' 49 4, wcc := b.getLsbD 53, fsel := b.getLsbD 54,
    neg := b.getLsbD 55, md := b.extractLsb' 56 8,
    lit := if len = 1 then b.extractLsb' 64 32 else 0,
    up := if len = 2 then Upper.ofBits (b.extractLsb' 64 64) else Upper.blank }

/-- An operand from its kind and value; legal words alone are read with it. -/
def Src.ofRaw (k : BitVec 2) (v : BitVec 8) : Src :=
  if k = 0 then .lane v
  else if k = 1 then .uni (v.setWidth 6)
  else if k = 2 then .imm v
  else if v = 0x08 then .litS
  else if v = 0x09 then .litZ
  else if v = 0x0A then .zero
  else if v = 0x0B then .laneIdx
  else .mask (v.setWidth 3)

/-- The lane condition of a code (R49); 15 is reserved and never reaches this. -/
def Cond.ofCode (c : BitVec 4) : Cond :=
  match c.toNat with
  | 1 => .eq | 2 => .ne | 3 => .hs | 4 => .lo | 5 => .mi | 6 => .pl | 7 => .vs
  | 8 => .vc | 9 => .hi | 10 => .ls | 11 => .ge | 12 => .lt | 13 => .gt | 14 => .le
  | _ => .always

def Machine.Raw.fmtA (w : Raw) : FmtA :=
  { cond := .ofCode w.cond, fsel := w.fsel, wcc := w.wcc, neg := w.neg, md := w.md, dst := w.dst,
    sa := .ofRaw w.ka w.sa, sb := .ofRaw w.kb w.sb, sc := .ofRaw w.kc w.sc,
    lit := if w.len = 1 then some w.lit else none }

/-- A compact operation and its 42 bits (R50). -/
def Compact.toBits (c : Compact) : BitVec 42 :=
  BitVec.ofBool c.neg ++ c.rm ++ c.sc ++ BitVec.ofBool c.kb ++ c.sb ++ c.sa ++ c.dst ++ c.cop

def Compact.ofBits (b : BitVec 42) : Compact :=
  { cop := b.extractLsb' 0 6, dst := b.extractLsb' 6 8, sa := b.extractLsb' 14 8, sb := b.extractLsb' 22 8,
    kb := b.getLsbD 30, sc := b.extractLsb' 31 8, rm := b.extractLsb' 39 2, neg := b.getLsbD 41 }

/-- A flag field of a clause header: 0xF names none. -/
def flagOf (b : BitVec 4) : Option Nat := if b = 15 then none else some b.toNat
def flagBits : Option Nat → BitVec 4
  | none => 15
  | some f => BitVec.ofNat 4 f

/-- A clause header and its 64 bits (R40). -/
def Header.toBits (h : Header) : BitVec 64 :=
  (0 : BitVec 35) ++ BitVec.ofBool h.yield ++ BitVec.ofNat 6 h.count ++ flagBits h.flag1 ++ flagBits h.flag0 ++ h.wait
    ++ (3 : BitVec 2)

def Header.ofBits (b : BitVec 64) : Header :=
  { wait := b.extractLsb' 2 12, flag0 := flagOf (b.extractLsb' 14 4), flag1 := flagOf (b.extractLsb' 18 4),
    count := (b.extractLsb' 22 6).toNat, yield := b.getLsbD 28 }

/-- The reasons that apply to a header's fields (R40, R57). -/
def headerReasons (b : BitVec 64) : List Nat :=
  when (decide (b.extractLsb' 29 35 ≠ 0)) 0x04
  ++ when (decide (b.extractLsb' 22 6 = 0)) 0x08
  ++ when (decide (12 ≤ (b.extractLsb' 14 4).toNat) && decide ((b.extractLsb' 14 4).toNat ≤ 14)) 0x0B
  ++ when (decide (12 ≤ (b.extractLsb' 18 4).toNat) && decide ((b.extractLsb' 18 4).toNat ≤ 14)) 0x0B

/-! ### Constructors by opcode

Lean's compiler gives no code to a constructor with fields past the 244th of a type, so the definitions
that build instructions are marked noncomputable; the kernel evaluates them like any others. -/

/-- The constructors of the control class (R59). -/
def buildControl : List (Nat × (FmtA → Upper → Instr)) := [
  (0x002, fun f _ => .bra f),
  (0x003, fun f _ => .bru f),
  (0x004, fun f _ => .brany f),
  (0x005, fun f _ => .brall f),
  (0x006, fun f _ => .brx f),
  (0x007, fun f _ => .call f),
  (0x008, fun f _ => .callx f),
  (0x009, fun f _ => .ret f),
  (0x00A, fun f _ => .exit f),
  (0x00B, fun f _ => .rcbArm f),
  (0x00C, fun f _ => .rcbWait f),
  (0x00D, fun f _ => .rcbClr f),
  (0x00E, fun f _ => .yield f),
  (0x00F, fun f _ => .prioSet f),
  (0x010, fun f _ => .prioGet f),
  (0x011, fun f _ => .srd f),
  (0x012, fun f _ => .srd64 f),
  (0x013, fun f _ => .sleep f),
  (0x014, fun f _ => .ldpc f)]

/-- The constructors of the integer class (R59). -/
def buildInteger : List (Nat × (FmtA → Upper → Instr)) := [
  (0x020, fun f _ => .iadd f),
  (0x021, fun f _ => .iadd64 f),
  (0x022, fun f _ => .isub f),
  (0x023, fun f _ => .isub64 f),
  (0x024, fun f _ => .iaddc f),
  (0x025, fun f _ => .isubb f),
  (0x026, fun f _ => .iadd3 f),
  (0x027, fun f _ => .lea f),
  (0x028, fun f _ => .imulLo f),
  (0x029, fun f _ => .imulHi f),
  (0x02A, fun f _ => .imulWide f),
  (0x02B, fun f _ => .imadLo f),
  (0x02C, fun f _ => .imadHi f),
  (0x02D, fun f _ => .imadWide f),
  (0x02E, fun f _ => .idiv f),
  (0x02F, fun f _ => .irem f),
  (0x030, fun f _ => .iabs f),
  (0x031, fun f _ => .ineg f),
  (0x032, fun f _ => .imin f),
  (0x033, fun f _ => .imax f),
  (0x034, fun f _ => .imin64 f),
  (0x035, fun f _ => .imax64 f),
  (0x036, fun f _ => .icmp f),
  (0x037, fun f _ => .icmp64 f),
  (0x038, fun f _ => .isetm f),
  (0x039, fun f _ => .sel f),
  (0x03A, fun f _ => .sel64 f),
  (0x03B, fun f _ => .mov f),
  (0x03C, fun f _ => .mov64 f),
  (0x03D, fun f _ => .movw f),
  (0x03E, fun f _ => .vadie f),
  (0x03F, fun f _ => .idp4 f),
  (0x040, fun f _ => .and f),
  (0x041, fun f _ => .or f),
  (0x042, fun f _ => .xor f),
  (0x043, fun f _ => .andn f),
  (0x044, fun f _ => .lop3 f),
  (0x045, fun f _ => .shl f),
  (0x046, fun f _ => .shr f),
  (0x047, fun f _ => .sar f),
  (0x048, fun f _ => .rot f),
  (0x049, fun f _ => .shl64 f),
  (0x04A, fun f _ => .shr64 f),
  (0x04B, fun f _ => .sar64 f),
  (0x04C, fun f _ => .bfx f),
  (0x04D, fun f _ => .bfi f),
  (0x04E, fun f _ => .popc f),
  (0x04F, fun f _ => .clz f),
  (0x050, fun f _ => .ctz f),
  (0x051, fun f _ => .brev f),
  (0x052, fun f _ => .bperm f),
  (0x053, fun f _ => .sad f)]

/-- The constructors of the float class (R59). -/
def buildFloat : List (Nat × (FmtA → Upper → Instr)) := [
  (0x060, fun f _ => .faddF32 f),
  (0x061, fun f _ => .faddF16 f),
  (0x062, fun f _ => .faddBf16 f),
  (0x063, fun f _ => .fmulF32 f),
  (0x064, fun f _ => .fmulF16 f),
  (0x065, fun f _ => .fmulBf16 f),
  (0x066, fun f _ => .ffmaF32 f),
  (0x067, fun f _ => .ffmaF16 f),
  (0x068, fun f _ => .ffmaBf16 f),
  (0x069, fun f _ => .fminF32 f),
  (0x06A, fun f _ => .fminF16 f),
  (0x06B, fun f _ => .fminBf16 f),
  (0x06C, fun f _ => .fmaxF32 f),
  (0x06D, fun f _ => .fmaxF16 f),
  (0x06E, fun f _ => .fmaxBf16 f),
  (0x06F, fun f _ => .fcmpF32 f),
  (0x070, fun f _ => .fcmpF16 f),
  (0x071, fun f _ => .fcmpBf16 f),
  (0x072, fun f _ => .fsetmF32 f),
  (0x073, fun f _ => .fsetmF16 f),
  (0x074, fun f _ => .fsetmBf16 f),
  (0x075, fun f _ => .fclassF32 f),
  (0x076, fun f _ => .fclassF16 f),
  (0x077, fun f _ => .fclassBf16 f),
  (0x078, fun f _ => .frndF32 f),
  (0x079, fun f _ => .frndF16 f),
  (0x07A, fun f _ => .frndBf16 f),
  (0x07B, fun f _ => .fldexpF32 f),
  (0x07C, fun f _ => .fcpysF32 f),
  (0x07D, fun f _ => .fmed3F32 f),
  (0x07E, fun f _ => .fdot2Bf16 f),
  (0x080, fun f _ => .hadd2F16 f),
  (0x081, fun f _ => .hadd2Bf16 f),
  (0x082, fun f _ => .hmul2F16 f),
  (0x083, fun f _ => .hmul2Bf16 f),
  (0x084, fun f _ => .hfma2F16 f),
  (0x085, fun f _ => .hfma2Bf16 f),
  (0x088, fun f _ => .frcpF32 f),
  (0x089, fun f _ => .frsqF32 f),
  (0x08A, fun f _ => .fsqrtF32 f),
  (0x08B, fun f _ => .fdivF32 f),
  (0x08C, fun f _ => .fexp2F32 f),
  (0x08D, fun f _ => .flog2F32 f),
  (0x08E, fun f _ => .fsinF32 f),
  (0x08F, fun f _ => .fcosF32 f),
  (0x090, fun f _ => .fexp2F16 f),
  (0x098, fun f _ => .cvtF16F32 f),
  (0x099, fun f _ => .cvtBf16F32 f),
  (0x09A, fun f _ => .cvtF32F16 f),
  (0x09B, fun f _ => .cvtF32Bf16 f),
  (0x09C, fun f _ => .cvtBf16F16 f),
  (0x09D, fun f _ => .cvtF16Bf16 f),
  (0x09E, fun f _ => .cvtF16x2F32 f),
  (0x09F, fun f _ => .cvtBf16x2F32 f),
  (0x0A0, fun f _ => .cvtS32F32 f),
  (0x0A1, fun f _ => .cvtN32F32 f),
  (0x0A2, fun f _ => .cvtS64F32 f),
  (0x0A3, fun f _ => .cvtN64F32 f),
  (0x0A4, fun f _ => .cvtF32S32 f),
  (0x0A5, fun f _ => .cvtF32N32 f),
  (0x0A6, fun f _ => .cvtF32S64 f),
  (0x0A7, fun f _ => .cvtF32N64 f),
  (0x0A8, fun f _ => .qdecBf16 f),
  (0x0A9, fun f _ => .qdecF32 f),
  (0x0AA, fun f _ => .qencBf16 f),
  (0x0AB, fun f _ => .qencF32 f),
  (0x0AC, fun f _ => .qscl f)]

/-- The constructors of the lanes class (R59). -/
def buildLanes : List (Nat × (FmtA → Upper → Instr)) := [
  (0x0C0, fun f _ => .shflIdx f),
  (0x0C1, fun f _ => .shflXor f),
  (0x0C2, fun f _ => .shflUp f),
  (0x0C3, fun f _ => .shflDown f),
  (0x0C4, fun f _ => .voteAny f),
  (0x0C5, fun f _ => .voteAll f),
  (0x0C6, fun f _ => .voteBallot f),
  (0x0C7, fun f _ => .voteEq f),
  (0x0C8, fun f _ => .wredIadd f),
  (0x0C9, fun f _ => .wredFadd f),
  (0x0CA, fun f _ => .wredMin f),
  (0x0CB, fun f _ => .wredMax f),
  (0x0CC, fun f _ => .wredAnd f),
  (0x0CD, fun f _ => .wredOr f),
  (0x0CE, fun f _ => .wredXor f),
  (0x0CF, fun f _ => .wscanIadd f),
  (0x0D0, fun f _ => .wscanFadd f),
  (0x0D1, fun f _ => .mlop f)]

/-- The constructors of the memory class (R59). -/
def buildMemory : List (Nat × (FmtA → Upper → Instr)) := [
  (0x0E0, .ld8),
  (0x0E1, .ld16),
  (0x0E2, .ld32),
  (0x0E3, .ld64),
  (0x0E4, .ld128),
  (0x0E5, .ldUb),
  (0x0E6, .st8),
  (0x0E7, .st16),
  (0x0E8, .st32),
  (0x0E9, .st64),
  (0x0EA, .st128),
  (0x0EB, .stUb),
  (0x0EC, .gath32),
  (0x0ED, .gath64),
  (0x0EE, .scat32),
  (0x0EF, .scat64),
  (0x0F0, .ldw32),
  (0x0F1, .ldw64),
  (0x0F2, .ldt),
  (0x0F3, .stt),
  (0x0F4, .pref),
  (0x0F5, .prefL2),
  (0x0F6, .cctlInv),
  (0x0F7, .cctlWb),
  (0x0F8, .cctlWbinv),
  (0x0F9, .carve),
  (0x0FA, .stzLine),
  (0x0FB, .ldtTr),
  (0x0FC, .tlbq),
  (0x0FD, .prefRange),
  (0x0FE, .ldw128),
  (0x0FF, .stMsk),
  (0x100, .ldBc),
  (0x101, .stzSec)]

/-- The constructors of the atomic class (R59). -/
def buildAtomic : List (Nat × (FmtA → Upper → Instr)) := [
  (0x110, .atomAdd),
  (0x111, .atomMin),
  (0x112, .atomMax),
  (0x113, .atomAnd),
  (0x114, .atomOr),
  (0x115, .atomXor),
  (0x116, .atomXchg),
  (0x117, .atomCas),
  (0x118, .atomAdd64),
  (0x119, .atomMin64),
  (0x11A, .atomMax64),
  (0x11B, .atomAnd64),
  (0x11C, .atomOr64),
  (0x11D, .atomXor64),
  (0x11E, .atomXchg64),
  (0x11F, .atomCas64),
  (0x120, .atomFaddF32),
  (0x121, .atomFminF32),
  (0x122, .atomFmaxF32),
  (0x123, .atomInc),
  (0x124, .atomDec),
  (0x125, .atomCas128),
  (0x126, .redAdd),
  (0x127, .redFaddF32),
  (0x128, .fence),
  (0x129, .barWg),
  (0x12A, .barArrive),
  (0x12B, .barWait),
  (0x12C, .gbar),
  (0x12D, .gbarArrive),
  (0x12E, .gbarWait),
  (0x12F, .gcoll),
  (0x130, .chopen),
  (0x131, .chclose),
  (0x132, .waitc),
  (0x133, .redAdd64)]

/-- The constructors of the copy class (R59). -/
def buildCopy : List (Nat × (FmtA → Upper → Instr)) := [
  (0x140, .chdef),
  (0x141, .chrst),
  (0x142, fun f x => if x.ext.toNat / 16 % 16 = 0 then .chprodRsv f x else .chprodPub f x),
  (0x143, .chcons),
  (0x144, .chwp),
  (0x145, fun f x => if x.ext.toNat / 16 % 16 = 0 then .chwaitData f x else .chwaitRoom f x),
  (0x146, .copyG2s),
  (0x147, .copyS2g),
  (0x148, .copyG2g),
  (0x149, .copyTile),
  (0x14A, .bxform),
  (0x14B, .copyFill)]

/-- The constructors of the matrix class (R59). -/
noncomputable def buildMatrix : List (Nat × (FmtA → Upper → Instr)) := [
  (0x150, .wld),
  (0x151, .wswap),
  (0x152, .mpass),
  (0x153, .mpassb),
  (0x154, .mspass),
  (0x155, .macz),
  (0x156, .macr),
  (0x157, .mepf),
  (0x158, .wscl),
  (0x159, .msel),
  (0x15A, fun f x => if x.ext.toNat / 8 % 8 = 0 then .mflushWait f x else .mflushClr f x),
  (0x15B, .mstat)]

/-- The constructors of the ray class (R59). -/
noncomputable def buildRay : List (Nat × (FmtA → Upper → Instr)) := [
  (0x160, .trace),
  (0x161, .traceCont),
  (0x162, .traceOcc),
  (0x163, .traceEnd),
  (0x164, .rayq),
  (0x165, .rayc),
  (0x166, .rayxf),
  (0x167, .ltwalk),
  (0x168, .ltpdf),
  (0x169, .sobol),
  (0x16A, .rnd),
  (0x16B, .rndf)]

/-- The constructors of the reservoir class (R59). -/
noncomputable def buildReservoir : List (Nat × (FmtA → Upper → Instr)) := [
  (0x170, .rsvld),
  (0x171, .rsvst),
  (0x172, .rsvupd),
  (0x173, .rsvmrg),
  (0x174, .rsvnrm),
  (0x175, .rsvclr),
  (0x176, .rsvhalo),
  (0x177, .rsvswap),
  (0x178, .rsvq),
  (0x179, .rsvcfg),
  (0x17A, .ruse),
  (0x17B, .calret)]

/-- The constructors of the radiance class (R59). -/
noncomputable def buildRadiance : List (Nat × (FmtA → Upper → Instr)) := [
  (0x180, .rcq),
  (0x181, .rcqTrain),
  (0x182, .rcgen),
  (0x183, .rcwld),
  (0x184, .rcwst),
  (0x185, fun f x => if x.ext.toNat / 1 % 8 = 0 then .rcstepStat f x else if x.ext.toNat / 1 % 8 = 1 then .rcstepWait f x else .rcstepClr f x)]

/-- The constructors of the launch class (R59). -/
noncomputable def buildLaunch : List (Nat × (FmtA → Upper → Instr)) := [
  (0x188, .launch),
  (0x189, .launchDep),
  (0x18A, .nodeEnq),
  (0x18B, .nodeEnqn),
  (0x18C, .nodeRec),
  (0x18D, .evwait),
  (0x18E, .evsig),
  (0x18F, .graphStart),
  (0x190, .graphWait),
  (0x191, .lrq),
  (0x192, .lcancel),
  (0x193, .lquery),
  (0x194, .wgid),
  (0x195, .graphAbort)]

/-- The constructors of the system class (R59). -/
noncomputable def buildSystem : List (Nat × (FmtA → Upper → Instr)) := [
  (0x1A0, fun f _ => .trap f),
  (0x1A1, fun f _ => .bkpt f),
  (0x1A2, fun f _ => .reth f),
  (0x1A3, fun f _ => .thrd f),
  (0x1A4, fun f _ => .thwr f),
  (0x1A5, fun f _ => .fstk f),
  (0x1A6, fun f _ => .fstkclr f),
  (0x1A7, fun f _ => .asrt f),
  (0x1A8, fun f _ => .pmcrd f),
  (0x1A9, fun f _ => .pmccfg f),
  (0x1AA, fun f _ => .pmcclr f),
  (0x1AB, fun f _ => .dbgmsg f),
  (0x1AC, fun f _ => .ctxend f),
  (0x1AD, fun f _ => .hcall f),
  (0x1AE, fun f _ => .hcallw f),
  (0x1AF, fun f _ => .errq f),
  (0x1B0, fun f _ => .prchk f),
  (0x1B1, fun f _ => .mcrd f)]

/-- The constructors of the die class (R59). -/
noncomputable def buildDie : List (Nat × (FmtA → Upper → Instr)) := [
  (0x1C0, .dhop),
  (0x1C1, .dcnt),
  (0x1C2, .dfreq),
  (0x1C3, .dtime),
  (0x1C4, .dlink),
  (0x1C5, .dquad)]

/-- The constructor of an opcode. -/
noncomputable def builders : List (Nat × (FmtA → Upper → Instr)) :=
  buildControl ++ (buildInteger ++ (buildFloat ++ (buildLanes ++ (buildMemory ++ (buildAtomic ++ (buildCopy
    ++ (buildMatrix ++ (buildRay ++ (buildReservoir ++ (buildRadiance ++ (buildLaunch ++ (buildSystem
    ++ buildDie))))))))))))

noncomputable def buildInstr (op : Nat) (f : FmtA) (x : Upper) : Instr :=
  match builders.find? fun e => e.1 == op with
  | some e => e.2 f x
  | none => .nop .w64

/-! ### Decoding -/

/-- The lowest of the reasons that apply (R57). -/
def lowest : List Nat → Option Nat
  | [] => none
  | r :: rs => match lowest rs with
    | none => some r
    | some q => some (min r q)

/-- The length of a word in bytes, from its two lowest bits (R37). -/
def wordBytes (b : BitVec 128) : Nat :=
  if b.extractLsb' 0 2 = 1 then 12 else if b.extractLsb' 0 2 = 2 then 16 else 8

/-- The reasons that apply to a word in a context. A header is judged by its own fields. -/
def reasonsOf (cx : DecodeCtx) (b : BitVec 128) : List Nat :=
  if b.extractLsb' 0 2 = 3 then headerReasons (b.extractLsb' 0 64)
  else if b.extractLsb' 2 9 = 0x07F then
    if b.extractLsb' 0 2 = 1 then
      when (b.getLsbD 95) 0x04
        ++ pairReasons cx (.ofBits (b.extractLsb' 11 42)) (.ofBits (b.extractLsb' 53 42))
    else [0x03]
  else wordReasons cx (.ofBits b)

/-- The instruction of a legal word. -/
noncomputable def instrOf (b : BitVec 128) : Instr :=
  if b.extractLsb' 0 2 = 3 then .clauseStart (.ofBits (b.extractLsb' 0 64))
  else if b.extractLsb' 2 9 = 0x07F then
    .pair (.ofBits (b.extractLsb' 11 42)) (.ofBits (b.extractLsb' 53 42))
  else if b.extractLsb' 2 9 = 0x001 then
    .nop (if b.extractLsb' 0 2 = 0 then .w64 else if b.extractLsb' 0 2 = 1 then .w96 else .w128)
  else
    let w := Raw.ofBits b
    buildInstr w.op w.fmtA w.up

/-- A word in a context: the instruction, or the lowest reason that applies. -/
noncomputable def decodeWith (cx : DecodeCtx) (b : BitVec 128) : Except Reject Instr :=
  match lowest (reasonsOf cx b) with
  | some r => .error (.ofReason r)
  | none => .ok (instrOf b)

/-- Bytes at rising addresses as a number, little-endian (R4). -/
def leNat : List Byte → Nat
  | [] => 0
  | b :: bs => b.toNat + 256 * leNat bs

/-- The low `n` bytes of a number, little-endian. -/
def leBytes : Nat → Nat → List Byte
  | 0, _ => []
  | n + 1, x => BitVec.ofNat 8 x :: leBytes n (x / 256)

/-- The length in bytes that the first byte of a word gives (R37). -/
def lengthOf (b : Byte) : Nat := if b.toNat % 4 = 1 then 12 else if b.toNat % 4 = 2 then 16 else 8

/-- The instruction at the head of bytes, with the bytes that follow it. -/
noncomputable def decode (bytes : List Byte) : Except Reject (Instr × List Byte) :=
  match bytes with
  | [] => .error .truncated
  | b :: _ =>
    let n := lengthOf b
    if bytes.length < n then .error .truncated
    else
      match decodeWith .free (BitVec.ofNat 128 (leNat (bytes.take n))) with
      | .ok i => .ok (i, bytes.drop n)
      | .error r => .error r

/-- The table's view of decoding: `w` numbers bit 0 as the least significant bit of the first word. -/
noncomputable def decodeTableWord (_nbits w : Nat) : Option Instr :=
  match decode (leBytes 16 w) with
  | .ok (i, _) => some i
  | .error _ => none

/-! ### Encoding -/

def nopBits : NopLen → BitVec 128
  | .w64 => 0x004
  | .w96 => 0x005
  | .w128 => 0x006

/-- The bits of an instruction: 0 for an event, which has none. -/
def encodeBits : Instr → BitVec 128
  | .nop l => nopBits l
  | .pair x y => (0 : BitVec 33) ++ y.toBits ++ x.toBits ++ (0x07F : BitVec 9) ++ (1 : BitVec 2)
  | .clauseStart h => h.toBits.setWidth 128
  | i =>
    match i.fmt with
    | some f => (rawOf i.opcode f i.upper).toBits
    | none => 0

/-- An instruction that has an encoding: every word and the clause header. -/
def Instr.hasWord : Instr → Bool
  | .nop _ | .pair _ _ | .clauseStart _ => true
  | i => i.fmt.isSome

/-- The bytes of an instruction as they stand in memory, at rising addresses (R4, R37). -/
def encode (i : Instr) : List Byte :=
  let b := encodeBits i
  leBytes (wordBytes b) b.toNat

end Sys2Proof
end

