-- ==== Sys2Proof/Config.lean ====
section
/-! DEFINITION. What the specification leaves open: free values, as constants without a body, and
the constants of the part (R1). Nothing can be proved of a free value but what its type says. -/

namespace Sys2Proof.Config

/-- Which of the things that may happen next happens (log entry 3): the manual gives no order. -/
opaque choose : Nat → Nat
/-- Reference-timer ticks that pass in a step (log entry 3): clock counts change no result (R512). -/
opaque elapsed : Nat → Nat
/-- Whether the unit, the latencies and the rates that the next word of a warp meets let it issue, by the model's step count
and the warp (R97, log entry 3): cycle counts are not modelled. -/
opaque unitFree : Nat → Nat → Bool
/-- Length of a relock above its least of 1,000 ticks, taken modulo 1,001 (R508). -/
opaque relockExtra : Nat → Nat
/-- Phase of the power evaluations, taken modulo 50,000 (R531). -/
opaque evalPhase : Nat → Nat
/-- The power in watts that a die, or the hub as die 4, draws at an evaluation, by the model's step count (R531). -/
opaque draw : Nat → Nat → Nat
/-- The reading of a die's hottest junction sensor at an evaluation, in tenths of a degree (R532). -/
opaque temperature : Nat → Nat → Nat
/-- Set index of a line in an L1, taken modulo its 256 sets (log entry 10): which set is not stated (R208). -/
opaque l1Set : Nat → Nat
/-- Set index of a line within an L2 slice, taken modulo the 2,048 sets of 16 ways that 4 MB give (R14; log entry 10): which set
is not stated. -/
opaque l2Set : Nat → Nat
/-- Set index of a page in a slice TLB, taken modulo its 128 sets (log entry 10): which set is not stated (R204). -/
opaque tlbSet : Nat → Nat
/-- How many workgroups a batch takes, of those that R426 allows. -/
opaque batchSize : Nat → Nat
/-- The 16-byte unit of a graph's spill area at which a record that overflows goes first, by the model's step count (R438): where
in the area a record lies is not stated (log entry 34). -/
opaque spillPlace : Nat → Nat
/-- Core on which the die dispatcher places a workgroup, of those that R427 allows. -/
opaque placeCore : Nat → Nat
/-- The primitive-polynomial degree s of a dimension of the published Joe-Kuo table (R352, log
entry 7), for dimensions from 2 up. -/
opaque joeKuoS : Nat → Nat
/-- The coefficients a of a dimension of that table. -/
opaque joeKuoA : Nat → Nat
/-- The initial value m(i), for i from 1, of a dimension of that table. -/
opaque joeKuoM : Nat → Nat → Nat

/-- The length in bytes of the callable at an address, by which Loess tells that a lane has fallen past its end (R397): the spec
gives the micro-core the address alone. -/
opaque callableBytes : Nat → Nat
/-- SHA-512 of a byte string (R525, R529, R530): named by the manual and defined elsewhere (log entry 8). -/
opaque sha512 : List (BitVec 8) → BitVec 512
/-- Whether an Ed25519 signature is valid under a key over a message (R525, log entry 8). -/
opaque ed25519Valid : BitVec 256 → BitVec 512 → BitVec 512 → Bool
/-- The hash of fused key slot k, for k from 0 to 3 (R525). -/
opaque fusedKeyHash : Nat → BitVec 256
/-- Whether fused key slot k is revoked (R525). -/
opaque keyRevoked : Nat → Bool
/-- The fused rollback counter (R525). -/
opaque rollback : Nat
/-- The fused device secret of 32 bytes (R529): fixed for the part and not stated. -/
opaque deviceSecret : List (BitVec 8)
/-- The Ed25519 public key of a 32-byte seed, and the signature of a message under the seed (R529; log entry 8). -/
opaque ed25519Public : List (BitVec 8) → List (BitVec 8)
opaque ed25519Sign : List (BitVec 8) → List (BitVec 8) → List (BitVec 8)
/-- What measurements 1 and 4 cover: the boot ROM, and the part number and harvested positions as the fuses hold them (R530). -/
opaque bootRom : List (BitVec 8)
opaque fuseState : List (BitVec 8)
/-- The certificates from Quemund's root to the device identity key (R530). -/
opaque rootChain : List (BitVec 8)
/-- The answer to an SPDM request over the DOE mailbox (R530, log entry 8): given the certificate chain, the seed of the alias key
that firmware signs with, the digests of the five measurements, and the request. -/
opaque spdmReply : List (BitVec 8) → List (BitVec 8) → List (BitVec 512) → List (BitVec 8) → List (BitVec 8)
/-- Chunks less one that a compressed page that is not all zero takes, by the model's step count and the page, taken modulo 8
(R484): the compression is not stated. -/
opaque chunksNeeded : Nat → Nat → Nat
/-- The most free chunks of a die that are below the low watermark, which firmware sets (R484). -/
opaque lowWatermark : Nat → Nat
/-- Nibble i of the four cells that hold a 16-bit weight of 15 bits (R302): their packing is not stated, and only a plane
that WSCL makes Q4 shows it. -/
opaque floatCell : BitVec 15 → Nat → BitVec 4
/-- Which of the home lines that hold dirty values for one byte a host read returns, by the byte's address (R522). -/
opaque dirtyPick : Nat → Nat
/-- Soft errors corrected in a step for a workgroup, by the model's step count and the workgroup (R466). -/
opaque softErrors : Nat → Nat → Nat
/-- Which virtual channel's packet a link delivers, how many packets stand in its retry buffer at a retrain, and whether the
receiver holds part of the first, by the model's step count (R505, R507). -/
opaque linkPick : Nat → Nat
opaque retryHeld : Nat → Nat
opaque partHeld : Nat → Bool
/-- Link flits that link-level retry resends while a packet crosses a link, by the model's step count (R504, R516). -/
opaque linkRetries : Nat → Nat
/-- Lanes of a load of global memory of which the data arrive in one step, by the model's step count and the operation: those of
different lines come at different times (R551). -/
opaque loadLanes : Nat → Nat → BitVec 32
/-- Packets beyond the first of a virtual channel for which a link gives credit (R505). -/
opaque linkCredits : Nat
/-- Modules with which a retrain that has run its time comes back: 8, or 4 (R507). -/
opaque retrainWide : Nat → Bool
/-- The virtual-die table that firmware installs for a restore, by the model's step count (R502). -/
opaque restoreTable : Nat → Nat
/-- A byte of the save area whose content the manual does not state, by the model's step count and its place (R472). -/
opaque saveByte : Nat → Nat → BitVec 8
/-- Logical capacity of a die in bytes, declared by firmware: 36 GB when it offers no compression
(R14, log entry 12). -/
def logicalCapacity : Nat := 36 * 2 ^ 30

end Sys2Proof.Config
end

