-- ==== Sys2Proof/Machine/State.lean ====
section
/-! DEFINITION. The state of the machine: everything the specification gives the package, as plain
data. The warp in focus `w`, its workgroup `g` and its core `c` stand apart from the others. -/

namespace Sys2Proof.Machine

/-! ### A warp -/

/-- STATE of a lane (R90). -/
inductive LaneState where
  | ready | waiting | parked | exited
  deriving DecidableEq, Repr

/-- Where a lane stands inside a clause (R46, R92): the clause's header and the words left, the lane's
own word counted (log entry 15). -/
structure Mid where
  hdr  : Word64
  left : Nat
  deriving DecidableEq, Repr

/-- An entry of the lane PC table (R90): BIDX is 0 unless the lane is waiting. `mid` is none where the lane
stands at a clause header. -/
structure LaneEnt where
  st   : LaneState := .ready
  bidx : Nat := 0
  pc   : Word64 := 0
  mid  : Option Mid := none
  /-- The transferring word, where the check of the target at its fetch is still to be made (R114). -/
  via  : Option Word64 := none
  deriving DecidableEq, Repr

/-- A reconvergence barrier (R95). -/
structure Rcb where
  arr : LaneMask := 0
  exp : LaneMask := 0
  deriving DecidableEq, Repr

/-- The clause that the head run is issuing (R91, R92): m0 is `mask`. -/
structure Run where
  hdr   : Word64
  pc    : Word64
  left  : Nat
  flag0 : Option Nat
  flag1 : Option Nat
  mask  : LaneMask
  deriving DecidableEq, Repr

/-- Scheduling state (R98, R99, R125). -/
structure Sched where
  pass   : Nat := 0
  prom   : Bool := false
  /-- Order of promotion, by the reference timer and the model's step count (R99). -/
  promAt : Nat := 0
  ceil   : Nat := 15
  prio   : Nat := 0
  age    : Nat := 0
  active : Bool := false
  /-- The next clause header acts as if its YIELD were 1 (R125). -/
  hint   : Bool := false
  /-- Lanes passed over for one choice of head run (R125). -/
  passed : LaneMask := 0
  /-- Lanes that have executed YIELD in the clause in progress (R125). -/
  yielded : LaneMask := 0
  /-- An exchange falls due at the next clause boundary (R101). -/
  exch   : Bool := false
  /-- The warp has been exchanged for a YIELD: its clause starts when it next holds an active place (R103). -/
  swapped : Bool := false
  deriving DecidableEq, Repr

/-- KIND of a hold (R263). -/
inductive HoldKind where
  | none | barWg | barWait | gbar | gbarWait | gcoll | waitc
  deriving DecidableEq, Repr

/-- Synchronisation state (R263). `arrived` marks a hold whose arrival has been counted (R264), and
`acq` the acquire scope of its end. -/
structure Sync where
  hold    : LaneMask := 0
  kind    : HoldKind := .none
  bnum    : Nat := 0
  thr     : Nat := 0
  exp     : Nat := 0
  arrived : Bool := false
  ord     : Nat := 0
  scope   : Nat := 0
  /-- GCOLL: the value that this warp contributes and where the result goes (R277). -/
  value   : Word := 0
  src     : Src := .zero
  dst     : Nat := 0
  gop     : Nat := 0
  rm      : Nat := 0
  /-- The operations, in the warp's list of those outstanding, that end with the hold. -/
  ids     : List Nat := []
  /-- The address of the hold word, and its place in its clause. -/
  pc      : Word64 := 0
  mid     : Option Mid := none
  deriving DecidableEq, Repr

/-- The handler registers (R463). -/
structure Handler where
  amask : LaneMask := 0
  fmask : LaneMask := 0
  cause : BitVec 8 := 0
  epc   : BitVec 56 := 0
  info  : Word := 0
  deriving DecidableEq, Repr

/-- The trap shadow (R464, R465). -/
structure Shadow where
  lanes  : List LaneEnt
  rcb    : Sparse Rcb
  sync   : Sync
  /-- What YIELD has left to do for the lanes of the shadow (R125). -/
  passed : LaneMask := 0
  yielded : LaneMask := 0
  deriving DecidableEq, Repr

/-- The outstanding-operation counters (R34). -/
inductive Cls where
  | copy | mtx | ray | rsv | rad | rem
  deriving DecidableEq, Repr

/-- The number of a class, as WAITC names it (R268). -/
def Cls.code : Cls → Nat
  | .copy => 0 | .mtx => 1 | .ray => 2 | .rsv => 3 | .rad => 4 | .rem => 5

/-- An operation of the warp that is not complete, or is complete and not yet reported in issue order
(R34): the flag it holds set (R43), the counter it counts in, and the registers that the scoreboard
holds for it (R45). -/
structure Out where
  id   : Nat
  flag : Option Nat
  cls  : Option Cls
  done : Bool
  /-- The word that its class counts once, where its lanes have parked in parts (R212, R273); 0: the operation's own. -/
  word : Nat := 0
  vdst : List Nat
  wdst : List Nat
  /-- The operation writes global memory as an engine (R257). -/
  glob : Bool := false
  /-- Its number among the operations of its class that the warp has issued, from 1. -/
  num  : Nat := 0
  deriving DecidableEq, Repr

/-- A translation that an operation has obtained (R202, R203). -/
structure Xl where
  page   : Nat
  size   : Nat
  status : Nat
  frame  : Nat
  leaf   : Nat
  own    : Nat
  deriving DecidableEq, Repr

/-- Where an operation stands. -/
inductive OpState where
  /-- Issued, and not begun or not fired. -/
  | queued
  /-- Begun. -/
  | running
  /-- Some lanes are parked (R455); service is awaited. -/
  | parked
  /-- Every record is settled Resume: replays at its next issue (R457). -/
  | resumable
  /-- Every record is settled and one at least is settled Fail (R461). -/
  | failed
  /-- A condition wait saved at pre-emption (R469). -/
  | condWait
  /-- Complete. -/
  | done
  deriving DecidableEq, Repr

/-- A record of a lane fault that an operation awaits the settlement of (R461). -/
structure RecMark where
  seq     : Nat
  kind    : Nat
  settled : Option Bool
  deriving DecidableEq, Repr

/-- A long-latency word that has issued: what the operand log holds of it (R456) and how far it has come. -/
structure Op where
  id    : Nat
  /-- The place of the word in its warp's order, where a part of it stands under an identity of its own (R458); 0: the
  identity is its place. -/
  ord   : Nat := 0
  warp  : Nat
  wg    : Nat
  /-- The word: its opcode and fields. -/
  code  : Nat
  f     : FmtA
  x     : Upper
  pc    : Word64
  mid   : Mid
  /-- The executing set. -/
  e     : LaneMask
  /-- Lanes still parked: FMASK. -/
  park  : LaneMask := 0
  /-- Lanes that have completed: PCM. -/
  pcm   : LaneMask := 0
  /-- The number of registers that SA, SB and SC each supply. -/
  wid   : List Nat := [0, 0, 0]
  /-- Operand values of each lane, and uniform operand values, in operand order. -/
  lv    : List (List Word)
  uv    : List Word
  /-- The word issued in the handler (R465). -/
  inH   : Bool := false
  flag  : Option Nat
  cls   : Option Cls
  /-- Operand-log entry. -/
  logi  : Option Nat := none
  chunk : Nat := 0
  st    : OpState := .queued
  recs  : List RecMark := []
  xl    : List Xl := []
  /-- Channel pointers taken at issue, or results obtained so far, as the class says. -/
  aux   : List Nat := []
  /-- Bytes of global memory as they stood before later stores of the warp, for an engine operation that has not ended (R256):
  owner, physical address and byte. -/
  kept  : List (Nat × Nat × Byte) := []
  /-- Its checks have passed once, and a shoot-down has it translated afresh (R480): its lanes may stand past it. -/
  again : Bool := false
  /-- For RUSE: the records and halo copies of each virtual die as they stood at its issue (R557). -/
  stores : List (Sparse (BitVec 256) × Sparse (BitVec 256)) := []
  deriving DecidableEq, Repr

/-- An exact ratio, its sign in the numerator. -/
structure Ratio where
  num : Int
  den : Nat
  deriving DecidableEq, Repr

/-- A triangle that a traversal has met, with the words of its record and of the instance that holds it (R340);
`inst` is none in world space. -/
structure TriHit where
  tri   : Nat
  data  : List Word
  inst  : Option Nat
  idata : List Word
  deriving DecidableEq, Repr

/-- An entry of a traversal's stack (R340, R475): the reference, its entry distance, and whether it lies in the space of
the traversal's instance. -/
structure StackEnt where
  ref    : Word64
  te     : Ratio
  inInst : Bool
  parent : Nat := 0
  child  : Nat := 0
  deriving DecidableEq, Repr

/-- What a lane keeps of a traversal (R331, R340). -/
structure Trav where
  seq    : Nat := 0
  /-- 0 idle, 1 running, 2 paused, 3 done. -/
  st     : Nat := 0
  ray    : List Word := []
  flags  : Word := 0
  root   : Word64 := 0
  visits : Nat := 0
  /-- Box visits since the last request to pre-empt (R347). -/
  since  : Nat := 0
  hit    : Option TriHit := none
  cand   : Option TriHit := none
  /-- The leaf in progress, in which space, and its next triangle. -/
  leaf   : Option (Word64 × Bool) := none
  tri    : Nat := 0
  /-- The instance of the entries that lie in one: its address and its words. -/
  inst   : Nat := 0
  idata  : List Word := []
  /-- Top entry first; entries past the lowest 16 lie in the spill area (R429). -/
  stack  : List StackEnt := []
  deriving DecidableEq, Repr

/-- A runahead episode: the shadow copies that its words read and write, while the warp's own registers hold the
checkpoint (R106), and the unknown marks (R107). A word that issues in the episode works on the two exchanged. -/
structure Runahead where
  v      : Sparse Word
  u      : Sparse Word
  m      : Sparse Word
  ccC    : LaneMask
  ccZ    : LaneMask
  ccN    : LaneMask
  ccV    : LaneMask
  lanes  : List LaneEnt
  rcb    : Sparse Rcb
  run    : Option Run
  sched  : Sched
  /-- The access that blocks the warp. -/
  blocker : Nat
  /-- Lanes that have left the episode. -/
  left   : LaneMask
  unkV   : List Nat
  unkU   : List Nat
  unkM   : List Nat
  unkC   : LaneMask
  deriving DecidableEq, Repr

/-- The details of a machine check (R500), and one that awaits its trap (R467). -/
structure MCheck where
  location : Word := 0
  lanes    : LaneMask := 0
  addr     : Word64 := 0
  pc       : Word64 := 0
  deriving DecidableEq, Repr

/-- Flags of a floating-point word that has issued, which are ORed in when its latency ends (R162): the time by which it has
ended, the flags, and, once the issue has noted them, the registers that the word writes, uniform ones from 256 on, and
whether it writes condition codes. -/
structure LateFlags where
  due   : Nat
  fl    : BitVec 5
  fresh : Bool := true
  dst   : List Nat := []
  cc    : Bool := false
  deriving DecidableEq, Repr

/-- A resident warp (R25, R90 to R103). -/
structure Warp where
  id     : Nat
  wg     : Nat
  idx    : Nat := 0
  slot   : Nat := 0
  win    : Nat := 1
  /-- Lane register r of lane l at key 32 r + l. -/
  v      : Sparse Word := []
  u      : Sparse Word := []
  /-- Lane masks m1 to m7. -/
  m      : Sparse Word := []
  /-- Condition codes C, Z, N, V of the lanes (R132). -/
  ccC    : LaneMask := 0
  ccZ    : LaneMask := 0
  ccN    : LaneMask := 0
  ccV    : LaneMask := 0
  lanes  : List LaneEnt
  rcb    : Sparse Rcb := []
  run    : Option Run := none
  sched  : Sched := {}
  /-- The reading of s.time at which SLEEP ends (R126). -/
  sleep  : Option Nat := none
  /-- Sticky flags NV, DZ, OF, UF, NX, in the bit order of R74. -/
  sticky : BitVec 5 := 0
  /-- Of these, the flags of words whose latency has not ended: FSTKCLR does not clear them (R162, R492). -/
  late   : List LateFlags := []
  th     : Handler := {}
  inHandler : Bool := false
  halted : Bool := false
  single : Bool := false
  /-- The debugger has resumed the warp: the word it stands at issues past a breakpoint (R478). -/
  passBp : Bool := false
  shadow : Option Shadow := none
  sync   : Sync := {}
  trav   : Sparse Trav := []
  mc     : MCheck := {}
  /-- Machine checks that await their traps, oldest first (R467). -/
  mcPend : List MCheck := []
  outs   : List Out := []
  /-- Operations issued so far by class, and engine writes not yet counted by a WAITC: class and number (R257). -/
  clsN   : Sparse Nat := []
  gdone  : List (Nat × Nat) := []
  /-- Accesses not yet performed, oldest first. -/
  pend   : List Op := []
  /-- Words with parked lanes whose accesses go past the core's engines (R456). -/
  parked : List Op := []
  /-- Words that wait for a condition or for the hub's or the host's answer. -/
  waits  : List Op := []
  /-- CARVE has issued and its last step is not done (R217). -/
  carving : Bool := false
  ra     : Option Runahead := none
  /-- The blocking access that has already had its episode (R105). -/
  raDone : List Nat := []
  /-- All 32 lanes have exited (R121). -/
  ended  : Bool := false
  /-- Its slot and its windows have returned to the core (R121): what is left are accesses still to be performed. -/
  released : Bool := false
  /-- On the micro-core of Loess: what CALRET has returned for each evaluation (R397, R398). -/
  ret    : List (Nat × Word × List Word) := []
  deriving DecidableEq, Repr

/-! ### A workgroup -/

/-- A barrier record (R263). -/
structure BarRec where
  arr : LaneMask := 0
  ph  : Bool := false
  set : Bool := false
  exp : Nat := 0
  deriving DecidableEq, Repr

/-- An ordered remote channel (R254). -/
structure Ordered where
  opened : Bool := false
  loc    : Bool := false
  die    : Nat := 0
  deriving DecidableEq, Repr

/-- A reservation on a channel (R283, R284): `left` bytes have still to enter their banks. -/
structure Resv where
  op    : Nat
  warp  : Nat
  p     : Nat
  n     : Nat
  fired : Bool := false
  /-- A reservation of CHPROD.rsv, completed by CHPROD.pub. -/
  byPub : Bool := false
  done  : Nat := 0
  complete : Bool := false
  deriving DecidableEq, Repr

/-- The place of an input operation (R285). -/
structure Place where
  op : Nat
  n  : Nat
  deriving DecidableEq, Repr

/-- A channel (R280). -/
structure Chan where
  pp    : Word := 0
  wp    : Word := 0
  cp    : Word := 0
  dfn   : Bool := false
  lsz   : Nat := 0
  base  : Nat := 0
  outs  : List Resv := []
  ins   : List Place := []
  deriving DecidableEq, Repr

/-- A workgroup (R23, R427). -/
structure Wg where
  id     : Nat
  launch : Nat := 0
  /-- The node of a node workgroup (R447): node index, record count and record size. -/
  node   : Option Nat := none
  nrec   : Nat := 0
  rsz    : Nat := 0
  index  : Nat := 0
  /-- Virtual die, and core within the die. -/
  die    : Nat := 0
  core   : Nat := 0
  /-- The launch record as accepted (R420). -/
  lrec   : BitVec 2048 := 0
  base   : Nat := 0
  size   : Nat := 0
  /-- wb0 to wb15 at 0 to 15, g0 to g3 at 16 to 19. -/
  bars   : Sparse BarRec := []
  oc     : Sparse Ordered := []
  ch     : Sparse Chan := []
  scratch : Sparse Byte := []
  pmc    : Sparse Word64 := []
  pmcEv  : Sparse Byte := []
  /-- Indices in the group table of the workgroup's groups, by slot (R422). -/
  groups : List Nat := []
  /-- The completion event has occurred (R430, R448). -/
  event  : Bool := false
  /-- Warps that have not ended and been released. -/
  live   : Nat := 0
  deriving DecidableEq, Repr

/-! ### Memory and caches -/

/-- A line of a cache: 128 bytes with masks of valid and dirty bytes (R208, R211). `tag` is the
address divided by 128: virtual with the context in L1 and guest lines, physical with the slice in
home lines (R207). -/
structure Line where
  tag   : Nat
  ctx   : Nat
  slice : Nat := 0
  /-- The way of its set in which a line of L1 stands (R217; log entry 53). -/
  way   : Nat := 0
  evp   : Nat := 0
  /-- A home line of a page that the memory controller may compress (R201, R484). -/
  cmp   : Bool := false
  data  : BitVec 1024 := 0
  valid : BitVec 128 := 0
  dirty : BitVec 128 := 0
  deriving DecidableEq, Repr

/-- A cached translation (R204): `slice` is that of a slice TLB, `late` marks an entry that runahead
filled (R109), `drain` one that a shoot-down marks (R480). -/
structure TlbEnt where
  ctx   : Nat
  slice : Nat := 0
  page  : Nat
  size  : Nat
  frame : Nat
  leaf  : Nat
  /-- Where the leaf entry lies, for the A and D bits (R205). -/
  addr  : Nat
  late  : Bool := false
  drain : Bool := false
  deriving DecidableEq, Repr

/-- An upper-level entry of the walk cache (R202). -/
structure WalkEnt where
  ctx   : Nat
  addr  : Nat
  entry : Word64
  deriving DecidableEq, Repr

/-- An entry of a release table (R251). -/
structure Release where
  slice : Nat
  line  : Nat
  core  : Nat
  ctx   : Nat
  scope : Nat
  deriving DecidableEq, Repr

/-! ### A core -/

/-- The weight field and the matrix status (R301, R302, R324, R328). -/
structure Mtx where
  /-- Code of cell (k, n) of plane p at key 131072 p + 512 k + n. -/
  cells  : Sparse (BitVec 4) := []
  /-- Sign, magnitude and class of element (k, n) of a BF16 or FP16 plane p at key 32768 p + 128 k + n. -/
  elems  : Sparse (BitVec 15) := []
  /-- Entry (b, n) of plane p at key 4096 p + 512 b + n, as R471 lays it out: type in [15:14], NaN in [13], the
  exponent in [8:0]. -/
  blocks : Sparse (BitVec 16) := []
  /-- Of a BF16 or FP16 plane, the groups of 32 columns that its last WLD has loaded, as bits: cells elsewhere are zero (R318). -/
  loaded : Sparse Nat := []
  /-- Format tags of planes P0 and P1 (R302). -/
  tag    : Sparse Nat := []
  plane  : Nat := 0
  mstat  : Word := 0
  bidx   : Word := 0xFFFFFFFF
  /-- The entry buffer: address and entry, newest first (R324). -/
  ebuf   : List (Nat × Word128) := []
  deriving DecidableEq, Repr

/-- A core (R19). Cores that are not listed in the state are as `Core` with its default fields. -/
structure Core where
  /-- Virtual die and number within the die. -/
  die    : Nat
  num    : Nat
  ways   : Nat := 4
  l1     : List Line := []
  tlb    : List TlbEnt := []
  /-- Operand-log entries in use (R456), with the operation that holds each. -/
  log    : List (Nat × Nat) := []
  copyq  : List Op := []
  mtxq   : List Op := []
  rayq   : List Op := []
  rsvq   : List Op := []
  mtx    : Mtx := {}
  /-- The launch whose fusion holds the cluster (R22). -/
  fused  : Option Nat := none
  deriving DecidableEq, Repr

/-! ### A die -/

/-- A write-back to a compressed page held in a memory channel (R485): the context in focus when it was held, the page, the chunks
that it needs, its bytes, and whether the hub has told of it. -/
structure HeldWrite where
  ctx   : Nat
  addr  : Nat
  since : Nat
  chunks : Nat
  bytes : List (Nat × Byte) := []
  told  : Bool := false
  deriving DecidableEq, Repr

/-- A page migration (R482): state 1 copying, 2 copied, 3 remapped. -/
structure Migration where
  ctx    : Nat
  st     : Nat
  va     : Nat
  size   : Nat
  old    : Nat
  new    : Nat
  deriving DecidableEq, Repr

/-- A packet on a link (R504, R505): its ends by physical position, 4 for the hub, its virtual channel, and its number of
network flits; the access whose request it is, or 0; and the time by which it leaves a FIFO that a relock has held (R509). -/
structure Packet where
  src   : Nat
  dst   : Nat
  vc    : Nat
  flits : Nat
  op    : Nat := 0
  due   : Option Nat := none
  deriving DecidableEq, Repr

/-- A Welub link of the die (R504, R519); `far` is a physical die or 4 for the hub. -/
structure Link where
  far      : Nat
  modules  : Nat := 8
  training : Bool := false
  failed   : Nat := 0
  down     : Bool := false
  retrains : Nat := 0
  /-- The reference timer when the retrain in progress began (R507). -/
  since    : Nat := 0
  sent     : Nat := 0
  received : Nat := 0
  /-- Packets that the die sends and the far end has not received: those in the retry buffer or behind a relock too (R507,
  R509). -/
  queue    : List Packet := []
  /-- On a hub link, those that the hub sends to the die. -/
  back     : List Packet := []
  deriving DecidableEq, Repr

/-- A candidate evaluation of a quad (R392, R394): its pixel of the quad, the source's index and place, the source record,
and how far it has come: 0 ready, 1 awaiting its ray, 2 done. -/
structure LEval where
  pix   : Nat
  idx   : Nat
  q     : Word
  src   : BitVec 256
  st    : Nat := 0
  value : Word := 0
  ray   : List Word := []
  deriving DecidableEq, Repr

/-- A pixel of the quad: its place, its G-buffer entry, and the record of the candidate layer. -/
structure LPix where
  x   : Nat
  y   : Nat
  g   : List Word
  cen : BitVec 256
  deriving DecidableEq, Repr

/-- The 2 × 2 quad that Loess has in flight, for the operation at the head of its queue (R391 to R397). -/
structure Loess where
  op    : Nat
  pixs  : List LPix
  evals : List LEval
  /-- The traversal of the visibility ray that is being traced. -/
  trav  : Option Trav := none
  deriving DecidableEq, Repr

/-- A compute die. -/
structure Die where
  /-- Physical position. -/
  phys    : Nat
  present : Bool := true
  /-- GDDR-7 bytes by physical address on the die (R522). -/
  mem     : Sparse Byte := []
  capacity : Nat := Config.logicalCapacity
  l2      : List Line := []
  guest   : List Line := []
  stlb    : List TlbEnt := []
  walks   : List WalkEnt := []
  rel     : List Release := []
  /-- F (R210). -/
  guestWays : Nat := 4
  /-- The split in force in every slice of the die (R210): R, and F. -/
  resWays : Nat := 0
  gstWays : Nat := 4
  step    : Nat := 6
  prev    : Nat := 6
  steps   : Nat := 0
  stepAt  : Nat := 0
  /-- End of the relock in progress (R508), and the ticks that its clocks still run before they stop at an edge that falls on a tick
  (log entry 40). -/
  relock  : Option Nat := none
  lead    : Nat := 0
  /-- The accumulator of s.ncyc in units of 1/2,520 (R511), and the quarters of an arithmetic clock that have passed since its last
  edge (R13). -/
  ncyc    : Nat := 0
  quarters : Nat := 0
  dcnt    : Sparse Word64 := []
  links   : List Link := []
  /-- Junction temperature in tenths of a degree (R532) and power in watts (R531). -/
  temp    : Nat := 250
  draw    : Nat := 0
  /-- The sensor has read 95 °C and not yet below 90 °C (R532). -/
  hot     : Bool := false
  /-- The latest evaluation found the die hot, and its step down has not begun yet (R532). -/
  owed    : Bool := false
  /-- The sensor has read 105 °C, and the die's step to 0 has not begun yet (R532). -/
  overheat : Bool := false
  /-- Lowest and highest step that the host allows (R531). -/
  lo      : Nat := 0
  hi      : Nat := 6
  /-- Reservoir records and halo copies (R371, R373). -/
  rsv     : Sparse (BitVec 256) := []
  halo    : Sparse (BitVec 256) := []
  loessQ  : List Op := []
  loess   : Option Loess := none
  loessStat : BitVec 4 := 0
  /-- Radiance query units' operations (R408), and status flags (R419). -/
  radq    : List Op := []
  radStat : BitVec 4 := 0
  /-- Free chunks (log entry 12), the chunks that each compressed page takes, held writes and offered frames (R484, R485). -/
  pool    : Nat := Config.logicalCapacity / 512
  chunks  : Sparse Nat := []
  held    : List HeldWrite := []
  offered : List Nat := []
  /-- Cores that are power-gated (R253). -/
  gated   : List Nat := []
  mig     : Option Migration := none
  deriving DecidableEq, Repr

/-! ### A context -/

/-- A launch (R425, R432, R452). -/
structure Launch where
  num     : Nat
  lrec    : BitVec 2048
  reason  : Nat := 0
  cancelled : Bool := false
  /-- Workgroups handed out so far, and those whose event has occurred. -/
  started : List Nat := []
  events  : List Nat := []
  groups  : List (List Nat) := []
  complete : Bool := false
  deriving DecidableEq, Repr

/-- A node of a graph (R436, R438). -/
structure Node where
  ent     : BitVec 256
  tmpl    : BitVec 2048
  /-- Records in the queue on the hub, oldest first. -/
  queue   : List (List Byte) := []
  /-- Records behind them in the spill area, oldest first: the 16-byte units of the area that each takes. -/
  spill   : List (List Nat) := []
  /-- Records that a drain has set aside for one more workgroup (R439). -/
  due     : Nat := 0
  /-- Workgroups started, resident, and those whose event has occurred. -/
  started : Nat := 0
  running : Nat := 0
  ended   : Nat := 0
  deriving DecidableEq, Repr

/-- A work graph (R436 to R440). -/
structure Graph where
  num    : Nat
  desc   : BitVec 256
  nodes  : List Node
  reason : Nat := 0
  node   : Nat := 0
  ovf    : Bool := false
  abt    : Bool := false
  complete : Bool := false
  deriving DecidableEq, Repr

/-- A submission that the hub has received and not yet accepted or refused (R424, R450). -/
structure Submit where
  op    : Nat
  addr  : Nat
  pred  : Option Nat
  graph : Bool := false
  input : Nat := 0
  count : Nat := 0
  deriving DecidableEq, Repr

/-- A group barrier at the hub (R266, R277): the members that have arrived, with their values. -/
structure GroupBar where
  launch  : Nat
  group   : Nat
  arrived : List Nat
  values  : List (Nat × Word)
  deriving DecidableEq, Repr

/-- The release of a group barrier on its way to a member whose die relocks (R266, R509): the member, its slot, the members of
the group, and the values of a collective. -/
structure GroupEnd where
  wg      : Nat
  slot    : Nat
  members : List Nat
  values  : List (Nat × Word)
  deriving DecidableEq, Repr

/-- A call in the host mailbox (R497). -/
structure Call where
  id     : Nat
  data   : Word64
  code   : Nat
  /-- The waiting HCALLW. -/
  wait   : Option Nat
  taken  : Bool := false
  deriving DecidableEq, Repr

/-- A write of a reservoir operation to a record, or to a halo copy, that need not happen before a later RUSE (R377, R557):
virtual die and place, the warp, its workgroup and the operation's number in its class, what stood there before, and whether a
WAITC of the warp has counted the operation. -/
structure RsvWrite where
  die     : Nat
  halo    : Bool
  key     : Nat
  warp    : Nat
  wg      : Nat
  num     : Nat
  prev    : BitVec 256
  counted : Bool := false
  deriving DecidableEq, Repr

/-- A lane-fault record that is not settled (R461). -/
structure Unsettled where
  seq   : Nat
  slot  : Nat
  kind  : Nat
  op    : Nat
  warp  : Nat
  va    : Nat
  read  : Bool
  write : Bool
  exec  : Bool
  since : Nat
  deriving DecidableEq, Repr

/-- A message to the debug port (R495). -/
structure DbgMsg where
  lane  : Nat
  value : Word
  tag   : Nat
  deriving DecidableEq, Repr

/-- The radiance state of a context (R402). Parameters by their numbers (R400); a sample by its slot, as its key, its 32
inputs and its 4 targets (R403). -/
structure Rad where
  gen    : Word64 := 0
  sdn    : Nat := 0
  ns     : Nat := 0
  t      : Word64 := 0
  lr     : Word := 0
  b1     : Word := 0
  b2     : Word := 0
  eps    : Word := 0
  master : Sparse Word := []
  m1     : Sparse Word := []
  m2     : Sparse Word := []
  /-- BF16 patterns. -/
  query  : Sparse Word := []
  opened : Sparse (List Word) := []
  closed : Sparse (List Word) := []
  /-- A step of Yarrow is in progress (R405). -/
  step   : Bool := false
  deriving DecidableEq, Repr

/-- A context: what its descriptor sets (R528) and what the hub keeps for it. -/
structure Ctx where
  num     : Nat
  thv     : Word64 := 0
  fqBase  : Nat := 0
  fqLog   : Nat := 6
  policy  : Nat := 0
  ways    : Nat := 0
  timeout : Nat := 1
  saveAt  : Nat := 0
  wroots  : List Nat := [0, 0, 0, 0]
  sroots  : List Nat := [0, 0, 0, 0]
  hroot   : Nat := 0
  proot   : Nat := 0
  headAt  : Nat := 0
  vdt     : BitVec 16 := 0xBA98
  fqTail  : Nat := 0
  fqSeq   : Nat := 0
  fqPh    : Bool := true
  fqHeld  : List (BitVec 512) := []
  unsettled : List Unsettled := []
  rsvDesc : Word64 := 0
  /-- Writes of reservoir operations that their warps have not yet counted and released, oldest first. -/
  rsvOpen : List RsvWrite := []
  rot     : Word := 0
  rad     : Rad := {}
  launches : List Launch := []
  graphs  : List Graph := []
  /-- One more than the count of numbers issued so far (R425). -/
  nextNum : Nat := 1
  submits : List Submit := []
  gbars   : List GroupBar := []
  gheld   : List GroupEnd := []
  mailbox : List Call := []
  /-- The context has ended (R464, R496) and is not yet destroyed: its fault queue is still served. -/
  ended   : Bool := false
  preempt : Bool := false
  acks    : List Nat := []
  debugger : Bool := false
  bps     : List Word64 := []
  deriving DecidableEq, Repr

/-- A context that is not in focus, with all that it has in the package: one that is switched out (R469 to R477), or one that
runs beside the one in focus. -/
structure Saved where
  ctx   : Ctx
  wgs   : List Wg
  warps : List Warp
  cores : List Core
  /-- Of each virtual die: reservoir records and halo copies, the Loess queue and its status, and the query units'
  operations and status. -/
  rsv   : List (Sparse (BitVec 256) × Sparse (BitVec 256))
  loess : List (List Op × BitVec 4)
  radq  : List (List Op × BitVec 4)
  /-- Of each virtual die, what Loess has in flight; nothing of a context that is switched out. -/
  flight : List (Option Loess) := []
  deriving DecidableEq, Repr

/-! ### The package -/

/-- A shoot-down in progress (R480): 1 drain, 2 confirm. -/
structure ShootDown where
  ctx   : Nat
  base  : Nat
  size  : Nat
  phase : Nat
  acks  : List Nat
  deriving DecidableEq, Repr

/-- A dirty line that an uncorrectable error has kept from being written back (R468): its location as R467 codes it, 0 for a line
of an L1, its physical die and tag, and the contexts that own it. -/
structure Lost where
  location : Nat
  die   : Nat
  line  : Nat
  ctxs  : List Nat
  deriving DecidableEq, Repr

/-- The hub: boot status (R526), staged image (R525), declared ranges (R523), power limits (R531). -/
structure Hub where
  state   : BitVec 4 := 0
  fails   : BitVec 4 := 0
  reason  : BitVec 8 := 0
  /-- s.time at the latest reset, at START and at the firmware's entry. -/
  since   : Nat := 0
  /-- The staging window of BAR2, from offset 0; what was not written reads as zero. -/
  image   : List Byte := []
  coherent : List (Nat × Nat) := []
  peers   : List (Nat × Nat) := []
  cap     : Nat := 1800
  nextEval : Nat := 50000
  lowEvals : Nat := 0
  /-- End of the latest relock (R508). -/
  relocked : Nat := 0
  /-- Measured power in watts. -/
  power   : Nat := 0
  nextCtx : Nat := 1
  shoot   : List ShootDown := []
  /-- Answers over the DOE mailbox, newest first (R528, R530). -/
  doe     : List (List Byte) := []
  /-- Data and poison of the latest host read (R522), and device error events. -/
  readData : List Byte := []
  poison  : Bool := false
  errors  : Nat := 0
  /-- Records of ended contexts' error events to the host (R485, R527). -/
  events  : List Nat := []
  /-- The debug port's message FIFO, and the messages that found it full (R495). -/
  dbg     : List DbgMsg := []
  dbgDropped : Nat := 0
  /-- Of the firmware that runs: its digest and security version (R525), and the seed of its alias key with the identity key's
  signature of the public half (R529). -/
  digest  : BitVec 512 := 0
  version : Nat := 0
  aliasSeed : List Byte := []
  aliasSig  : List Byte := []
  /-- The virtual-die table that firmware will install when it restores a context: the context's number, and the table (R502). -/
  remap   : Option (Nat × BitVec 16) := none
  /-- Lines that could not be written back, whose contexts have still to end (R468), oldest first. -/
  lost    : List Lost := []
  deriving DecidableEq, Repr

/-- The machine. -/
structure State where
  /-- The warp in focus, its workgroup and its core. -/
  w      : Warp
  g      : Wg
  c      : Core
  ws     : List Warp
  gs     : List Wg
  cs     : List Core
  /-- Dies by physical position. -/
  dies   : List Die
  ctx    : Option Ctx
  saved  : List Saved
  /-- The contexts that run beside the one in focus (log entry 2). -/
  others : List Saved
  hub    : Hub
  host   : Sparse Byte
  peer   : Sparse Byte
  /-- The reference timer (R510). -/
  time   : Nat
  /-- Places that hold an uncorrectable error: location (R467), virtual die, and address in units of the place
  (log entry 16). -/
  bad    : List (Nat × Nat × Nat)
  /-- Inputs from outside the package, not yet delivered, oldest first. -/
  inputs : List Instr
  /-- Stores of the host to its own memory that are on their way: host physical address and bytes, oldest first (R262, R524). -/
  hostStores : List (Nat × List Byte)
  /-- The warp whose next word issues in the next step, where that is settled (log entry 3): the model's own. -/
  turn   : Option Nat
  /-- The model's step count, from which the free choices of Config are drawn. -/
  n      : Nat
  /-- The next identity of an operation, a warp or a workgroup. -/
  nextId : Nat
  deriving DecidableEq, Repr

/-- Why the machine stops with a fault: never. The specification gives every fault of a program an
effect (a parked lane, a warp trap, an ended context) after which the package goes on, so this type has
no constructor. -/
inductive Fault where
  deriving DecidableEq, Repr

/-- Why a step has no meaning. -/
inductive Refusal where
  /-- The instruction has no meaning in the model: raised by the dispatch. Safe: nothing is claimed of it. -/
  | notModelled (mnemonic : String)
  /-- The event's conditions do not hold in this state, so the part takes no such step now: raised by
  the events. Safe. -/
  | notEnabled (mnemonic : String)
  deriving DecidableEq, Repr

/-- The 32 lanes of a warp at an address. -/
def lanesAt (st : LaneState) (pc : Word64) : List LaneEnt := List.replicate 32 { st := st, pc := pc }

/-- The links of a die (R9): neighbours 0-1, 0-2, 1-3, 2-3, and the hub. -/
def Link.ofDie (p : Nat) : List Link :=
  [{ far := p ^^^ 1 }, { far := p ^^^ 2 }, { far := 4 }]

/-- The machine right after reset: the boot ROM runs (R525, R526), no context exists, and no warp is resident. The record of
the warp in focus is an exited one (log entry 9). -/
def State.reset : State :=
  { w := { id := 0, wg := 0, lanes := lanesAt .exited 0, ended := true },
    g := { id := 0 }, c := { die := 0, num := 0 }, ws := [], gs := [], cs := [],
    dies := [{ phys := 0, links := Link.ofDie 0 }, { phys := 1, links := Link.ofDie 1 },
             { phys := 2, links := Link.ofDie 2 }, { phys := 3, links := Link.ofDie 3 }],
    ctx := none, saved := [], others := [], hub := {}, host := [], peer := [], time := 0, bad := [], inputs := [], hostStores := [], turn := none, n := 0, nextId := 1 }

end Sys2Proof.Machine
end

