-- ==== Sys2Proof/Machine/Memory.lean ====
section
/-! DEFINITION. Memory: translation at the owner (R28 to R30, R199 to R207), the caches (R207 to
R213), the points of coherence (R242, R243), and the release and acquire steps (R247, R248). -/

namespace Sys2Proof.Machine

/-! ### Small helpers -/

/-- Bits [h:l] of a number (R89). -/
def bitsOf (x h l : Nat) : Nat := x / 2 ^ l % 2 ^ (h + 1 - l)

/-- A signed reading of the low `n` bits. -/
def sextN (n x : Nat) : Int := if x % 2 ^ n < 2 ^ (n - 1) then (x % 2 ^ n : Nat) else (x % 2 ^ n : Nat) - (2 ^ n : Nat)

/-- The number `i` modulo 2^n. -/
def wrapN (n : Nat) (i : Int) : Nat := (i % (2 ^ n : Nat)).toNat

/-- One entry of a list replaced. -/
def updateAt {α : Type} (xs : List α) (i : Nat) (g : α → α) : List α :=
  xs.mapIdx fun j x => if j = i then g x else x

/-! ### Dies and cores by number -/

/-- The entry of a virtual die in the context's table (R501). -/
def Ctx.vdEntry (k : Ctx) (v : Nat) : Nat := bitsOf k.vdt.toNat (4 * v + 3) (4 * v)

/-- The number of virtual dies: the entries with PRES = 1 (R502). -/
def Ctx.ndie (k : Ctx) : Nat := (List.range 4).countP fun v => decide (8 ≤ k.vdEntry v)

def State.ndie (s : State) : Nat :=
  match s.ctx with
  | some k => k.ndie
  | none => (s.dies.filter (·.present)).length

/-- The physical position of a virtual die (R501). -/
def State.phys (s : State) (v : Nat) : Nat :=
  match s.ctx with
  | some k => k.vdEntry v % 4
  | none => v

/-- A die by physical position. -/
def State.dieAt (s : State) (p : Nat) : Die := (s.dies[p]?).getD { phys := p, present := false }
def State.updDieAt (s : State) (p : Nat) (g : Die → Die) : State := { s with dies := updateAt s.dies p g }

/-- A die by virtual number. -/
def State.die (s : State) (v : Nat) : Die := s.dieAt (s.phys v)
def State.updDie (s : State) (v : Nat) (g : Die → Die) : State := s.updDieAt (s.phys v) g

/-- A core by virtual die and number; a core that is not listed is as `Core` gives it. -/
def State.core (s : State) (d n : Nat) : Core :=
  if s.c.die = d ∧ s.c.num = n then s.c
  else (s.cs.find? fun c => c.die == d && c.num == n).getD { die := d, num := n }

def State.updCore (s : State) (d n : Nat) (g : Core → Core) : State :=
  if s.c.die = d ∧ s.c.num = n then { s with c := g s.c }
  else { s with cs := g (s.core d n) :: s.cs.filter fun c => !(c.die == d && c.num == n) }

/-- The context number of the running context; 0 when there is none. -/
def State.ctxNum (s : State) : Nat :=
  match s.ctx with
  | some k => k.num
  | none => 0

def State.updCtx (s : State) (g : Ctx → Ctx) : State := { s with ctx := s.ctx.map g }

/-! ### Contexts in and out of focus (log entry 2) -/

/-- The state of the context in focus on the dies, by virtual die. -/
def State.takeDies (s : State) (v : Saved) : Saved :=
  let all {α : Type} (f : Die → α) (z : α) : List α := (List.range 4).map fun d => if d < s.ndie then f (s.die d) else z
  { v with
    rsv := all (fun d => (d.rsv, d.halo)) ([], []), loess := all (fun d => (d.loessQ, d.loessStat)) ([], 0)
    radq := all (fun d => (d.radq, d.radStat)) ([], 0), flight := all (·.loess) none }

/-- A die with nothing of a context but what its caches hold. -/
def Die.bare (d : Die) : Die :=
  { d with rsv := [], halo := [], loessQ := [], loess := none, loessStat := 0, radq := [], radStat := 0 }

/-- The state of a context on the dies: that of each virtual die written to its place. -/
def State.putDies (s : State) (v : Saved) : State :=
  (List.range s.ndie).foldl (fun s d => s.updDie d fun q =>
    let r := (v.rsv[d]?).getD ([], [])
    let l := (v.loess[d]?).getD ([], 0)
    let a := (v.radq[d]?).getD ([], 0)
    { q with rsv := r.1, halo := r.2, loessQ := l.1, loess := (v.flight[d]?).getD none, loessStat := l.2, radq := a.1,
             radStat := a.2 })
    { s with dies := s.dies.map Die.bare }

/-- No warp: what stands in focus where there is none. -/
def Warp.idle : Warp := { id := 0, wg := 0, lanes := lanesAt .exited 0, ended := true }

/-- The machine with a context in the place of the one in focus. -/
def State.withPart (s : State) (v : Saved) : State :=
  ({ s with w := Warp.idle, ws := v.warps, g := { id := 0 }, gs := v.wgs, c := v.cores.headD { die := 0, num := 0 },
            cs := v.cores.tail, ctx := some v.ctx } : State).putDies v

/-- The context in focus with all that it has in the package. -/
def State.part (s : State) (k : Ctx) : Saved :=
  s.takeDies
    { ctx := k, wgs := (s.g :: s.gs).filter (·.id != 0), warps := (s.w :: s.ws).filter (·.id != 0), cores := s.c :: s.cs,
      rsv := [], loess := [], radq := [] }

/-- A context that runs brought into focus by its number; nothing changes where it is there, or where none runs. -/
def State.swapTo (s : State) (num : Nat) : State :=
  if s.ctxNum = num then s
  else
    match s.others.find? fun v => v.ctx.num == num with
    | none => s
    | some v =>
      let rest := s.others.filter fun x => x.ctx.num != num
      ({ s with others := match s.ctx with
          | some k => s.part k :: rest
          | none => rest } : State).withPart v

/-- The warp by identity, brought into focus with its workgroup and its core. -/
def State.focus (s : State) (id : Nat) : Option State :=
  if s.w.id = id then some s
  else
    match s.ws.find? (·.id == id) with
    | none => none
    | some w =>
      let ws := (if s.w.id = 0 then [] else [s.w]) ++ s.ws.filter (·.id != id)
      let s1 : State := { s with w := w, ws := ws }
      let s2 : State :=
        if s1.g.id = w.wg then s1
        else
          match s1.gs.find? (·.id == w.wg) with
          | some g => { s1 with g := g, gs := (if s1.g.id = 0 then [] else [s1.g]) ++ s1.gs.filter (·.id != w.wg) }
          | none => s1
      if s2.c.die = s2.g.die ∧ s2.c.num = s2.g.core then some s2
      else
        some { s2 with
          c := s2.core s2.g.die s2.g.core,
          cs := s2.c :: s2.cs.filter fun c => !(c.die == s2.g.die && c.num == s2.g.core) }

/-- Something done to a context that runs; the one in focus stays there, and its warp. -/
def State.inCtx (s : State) (num : Nat) (f : State → State) : State :=
  if s.ctxNum = num then f s
  else if s.others.any fun v => v.ctx.num == num then
    let t := (f (s.swapTo num)).swapTo s.ctxNum
    (t.focus s.w.id).getD t
  else s

/-- The machine with each context that runs in focus. -/
def State.views (s : State) : List State := s :: s.others.map fun v => s.swapTo v.ctx.num

/-- The machine with the tables of a context that runs in the place of those in focus. -/
def State.asCtx (s : State) (num : Nat) : State :=
  if s.ctxNum = num then s
  else
    match s.others.find? fun v => v.ctx.num == num with
    | some v => { s with ctx := some v.ctx }
    | none => s

/-- What the other contexts that run have on the Loess of a die, which serves every context (R390, R391): their operations that
wait or are under way, and whether one has a quad in flight. -/
def State.loessElse (s : State) (v : Nat) : List Op :=
  s.others.flatMap fun x => (List.range 4).flatMap fun d =>
    if d < x.ctx.ndie ∧ x.ctx.vdEntry d % 4 = s.phys v then ((x.loess[d]?).getD ([], 0)).1 else []
def State.loessTaken (s : State) (v : Nat) : Bool :=
  s.others.any fun x => (List.range 4).any fun d =>
    decide (d < x.ctx.ndie) && decide (x.ctx.vdEntry d % 4 = s.phys v) && ((x.flight[d]?).getD none).isSome
/-- An operation of the die's Loess goes before those of the other contexts: Loess takes one at a time, in the order in which they
arrive, and has none of another context in flight (R391). -/
def State.loessTurn (s : State) (v : Nat) (o : Op) : Bool :=
  !(s.loessTaken v) && (s.loessElse v).all fun p =>
    if p.st = .queued then decide (o.st ≠ .queued) || decide (o.id < p.id) else decide (o.st ≠ .queued) && decide (o.id < p.id)
def State.loessCount (s : State) (v : Nat) : Nat := (s.die v).loessQ.length + (s.loessElse v).length

/-! ### Messages between the dies (R10, R504, R505, R509) -/

/-- The next stop of a packet from a physical die, 4 naming the hub: a diagonal route passes through the lower-numbered
position that is present (R10). -/
def State.nextHop (s : State) (p q : Nat) : Nat :=
  if q = 4 ∨ p + q ≠ 3 then q
  else if (s.dieAt (min (p ^^^ 1) (p ^^^ 2))).present then min (p ^^^ 1) (p ^^^ 2) else max (p ^^^ 1) (p ^^^ 2)

/-- A packet enters the FIFO of a link (R504): what the hub sends stands at the die's hub link. -/
def State.sendPacket (s : State) (p : Nat) (k : Packet) : State :=
  if p = 4 then
    s.updDieAt k.dst fun d => { d with links := d.links.map fun l => if l.far = 4 then { l with back := l.back ++ [k] } else l }
  else
    let put (l : Link) : Link := if l.far = s.nextHop p k.dst then { l with queue := l.queue ++ [k] } else l
    s.updDieAt p fun d => { d with links := d.links.map put }

/-- The virtual channels, in their order of dependence (R17). -/
def vcRequest : Nat := 0
def vcForward : Nat := 1
def vcResponse : Nat := 2
def vcWriteback : Nat := 3
def vcEngine : Nat := 4
def vcManagement : Nat := 5

/-- One message between physical positions, with the data bytes that it carries: a flit of its own and one for each 64 bytes, three
at most (R504; log entry 18). -/
def State.post (s : State) (p q vc bytes : Nat) (op : Nat := 0) : State :=
  if p = q then s
  else s.sendPacket p { src := p, dst := q, vc := vc, flits := 1 + (min bytes 128 + 63) / 64, op := op }

/-- The position of an owner: the hub for host and peer memory. -/
def State.ownerPos (s : State) (own : Nat) : Nat := if own < 4 then s.phys own else 4

/-- A die on the route from a physical position to another relocks, and holds every message between them (R509); so it is from a
virtual die to an owner. -/
def State.posHeld (s : State) (p q : Nat) : Bool :=
  decide (q < 4) && decide (p ≠ q) && ((s.dieAt q).relock.isSome || (s.dieAt (s.nextHop p q)).relock.isSome)
def State.routeHeld (s : State) (die own : Nat) : Bool := s.posHeld (s.phys die) (s.ownerPos own)

/-- A request of the die in focus to an owner, and the response to it. -/
def State.ask (s : State) (own vc bytes back : Nat) : State :=
  let p := s.phys s.g.die
  (s.post p (s.ownerPos own) vc bytes).post (s.ownerPos own) p vcResponse back

/-- A message between the hub and a physical position, and its answer: of a host access, on the forward class (R522), or a
request of the collective class (R480). -/
def State.tellDie (s : State) (p vc bytes back : Nat) : State := (s.post 4 p vc bytes).post p 4 vcResponse back
/-- A message of a virtual die to the hub, or of the hub to it, that asks for no data: barriers and acknowledgements (R266,
R481). -/
def State.tellHub (s : State) (v : Nat) : State := s.post (s.phys v) 4 vcManagement 0
def State.hubTells (s : State) (v : Nat) : State := s.post 4 (s.phys v) vcManagement 0

/-- Some die relocks (R508). -/
def State.relocks (s : State) : Bool := s.dies.any fun d => d.relock.isSome

/-- The request of an access stands on a link still. -/
def State.onLinks (s : State) (op : Nat) : Bool :=
  s.dies.any fun d => d.links.any fun l => l.queue.any fun k => k.op == op

/-- The clocks of a virtual die stop while it relocks (R508). -/
def State.stopped (s : State) (v : Nat) : Bool := (s.die v).relock.isSome

/-- The global number of a core. -/
def coreId (die core : Nat) : Nat := die * 160 + core

/-- The cluster of a core (R12). -/
def cluster (n : Nat) : Nat := n / 8

/-! ### Bytes of memory -/

/-- What a byte that nothing has written reads as (log entry 1). -/
def byte0 : Byte := 0

def readBytes (m : Sparse Byte) (a : Nat) : Nat → List Byte
  | 0 => []
  | n + 1 => m.get byte0 a :: readBytes m (a + 1) n

def writeBytes (m : Sparse Byte) (a : Nat) : List Byte → Sparse Byte
  | [] => m
  | b :: bs => writeBytes (m.set byte0 a b) (a + 1) bs

/-- The canonical form of every memory of the package. -/
def Memory.wf (m : Sparse Byte) : Bool := m.wf byte0

/-- Bytes at the HDM offset `o` (R522): die position in bits [38:37], frame address below. -/
def State.hdmRead (s : State) (o n : Nat) : List Byte :=
  readBytes (s.dieAt (bitsOf o 38 37)).mem (o % 2 ^ 37) n
def State.hdmWrite (s : State) (o : Nat) (bs : List Byte) : State :=
  s.updDieAt (bitsOf o 38 37) fun d => { d with mem := writeBytes d.mem (o % 2 ^ 37) bs }

/-! ### Owners (R28, R29) -/

/-- The owner of a virtual address: 0 to 3, 0xC or 0xD; none where the access raises the
address-space fault (R2, R28, R29). -/
def ownerOf (ndie va : Nat) : Option Nat :=
  if va / 2 ^ 56 ≠ 0 then none
  else
    let w := bitsOf va 55 52
    if w < 4 then (if w < ndie then some w else none)
    else if w = 8 then some (bitsOf va 47 16 % ndie)
    else if w = 0xC ∨ w = 0xD then some w
    else none

def State.owner (s : State) (va : Nat) : Option Nat := ownerOf s.ndie va

/-- The home slice of an address (R207). -/
def sliceOf (va : Nat) : Nat := bitsOf va 51 9 % 50

/-- The root of the table that translates an address (R200). -/
def Ctx.root (k : Ctx) (own va : Nat) : Nat :=
  if own = 0xC then k.hroot
  else if own = 0xD then k.proot
  else if bitsOf va 55 52 = 8 then (k.sroots[own]?).getD 0
  else (k.wroots[own]?).getD 0

/-! ### Translation (R199 to R203) -/

/-- What a walk finds: the status code of R202; where it is 0 the page's first address and size, its
frame, the low 8 bits of the leaf, and where the leaf entry that carries A and D lies. -/
structure Walk where
  status : Nat
  page   : Nat := 0
  size   : Nat := 0
  frame  : Nat := 0
  leaf   : Nat := 0
  addr   : Nat := 0
  /-- Upper-level entries read, for the walk cache. -/
  upper  : List (Nat × Nat) := []
  deriving DecidableEq, Repr

/-- FRAME of an entry, as an address (R201). -/
def frameOf (e : Nat) : Nat := bitsOf e 55 12 * 4096

/-- The size of a leaf of a level (R199). -/
def leafSize (level : Nat) (c : Bool) : Nat :=
  (if level = 3 then 2 ^ 30 else if level = 2 then 2 ^ 21 else 4096) * (if c then 16 else 1)

/-- Status of one entry at a level (R202, R203): 0 where it passes. -/
def entryStatus (level e : Nat) : Nat :=
  let lf := e / 128 % 2
  let c := e / 256 % 2
  if e % 2 = 0 then 2
  else if bitsOf e 63 60 ≠ 0 ∨ bitsOf e 11 9 ≠ 0 then 3
  else if (level = 1 ∧ lf = 0) ∨ (level = 4 ∧ lf = 1) then 3
  else if c = 1 ∧ lf = 0 then 3
  else if lf = 1 ∧ frameOf e % leafSize level (decide (c = 1)) ≠ 0 then 3
  else 0

/-- Status of a coalesced group's first entry, checked as the entry that the VA indexes was: a leaf's FRAME against the coalesced
page size (R203). -/
def firstStatus (level e : Nat) : Nat := entryStatus level (if e / 128 % 2 = 1 then e ||| 256 else e)

/-- The walk from a table at `table` on `level` (R199 to R203). `rd` reads an entry: at an upper
level through the walk cache. `outside` says that a frame lies past what the owner maps (status 0x5). DESIGN CHOICE (log entry
52): of the codes that R202 gives one leaf, 0x5 goes before 0x4 and 0x7, and 0x4 before 0x7. -/
def walkFrom (rd : Bool → Nat → Nat) (outside : Nat → Bool) (stripe : Bool) (va : Nat) (table : Nat)
    (upper : List (Nat × Nat)) : Nat → Walk
  | 0 => { status := 3 }
  | n + 1 =>
    let level := n + 1
    let idx := bitsOf va (12 + 9 * n + 8) (12 + 9 * n)
    let at_ := table + 8 * idx
    let e := rd (decide (level ≠ 1)) at_
    let st := entryStatus level e
    if st ≠ 0 then { status := st, upper := upper }
    else if outside (frameOf e) then { status := 5, upper := upper }
    else if e / 128 % 2 = 0 then walkFrom rd outside stripe va (frameOf e) ((at_, e) :: upper) n
    else if e / 256 % 2 = 0 then
      let size := leafSize level false
      if stripe ∧ size > 65536 then { status := 7, upper := upper }
      else { status := 0, page := va / size * size, size := size, frame := frameOf e, leaf := e % 256, addr := at_,
             upper := upper }
    else
      let size := leafSize level true
      let at1 := table + 8 * (idx / 16 * 16)
      let e1 := rd false at1
      if e1 % 2 = 0 then { status := 4, upper := upper }
      else if firstStatus level e1 ≠ 0 then { status := firstStatus level e1, upper := upper }
      else if e1 / 256 % 2 = 0 ∨ frameOf e1 ≠ frameOf e then { status := 4, upper := upper }
      else if stripe ∧ size > 65536 then { status := 7, upper := upper }
      else { status := 0, page := va / size * size, size := size, frame := frameOf e1, leaf := e1 % 256, addr := at1,
             upper := upper }

/-- Whether a frame lies outside what the owner may map: at or beyond the logical capacity of a die
(R202 status 0x5), or, for window 0xD, outside every peer aperture (R523). -/
def State.frameOutside (s : State) (own f : Nat) : Bool :=
  if own < 4 then decide ((s.die own).capacity ≤ f)
  else if own = 0xD then !(s.hub.peers.any fun r => decide (r.1 ≤ f) && decide (f < r.1 + r.2))
  else false

/-- A table entry as the owner's walker reads it: from GDDR-7, or through the hub (R202). -/
def State.readEntry (s : State) (own : Nat) (cached : Bool) (a : Nat) : Nat :=
  if own < 4 then
    match (s.die own).walks.find? fun w => cached && w.addr == a && w.ctx == s.ctxNum with
    | some w => w.entry.toNat
    | none => leNat (readBytes (s.die own).mem a 8)
  else leNat (readBytes s.host a 8)

/-- The walk of an address at its owner. Frames of the peer window are checked at the leaf alone, its
tables being host frames. DESIGN CHOICE (log entry 52): 0x6 goes before the 0x2 of a root of 0. -/
def State.walk (s : State) (va : Nat) : Walk :=
  match s.owner va, s.ctx with
  | some own, some k =>
    if bitsOf va 51 48 ≠ 0 then { status := 6 }
    else if k.root own va = 0 then { status := 2 }
    else
      let w := walkFrom (s.readEntry own) (fun f => decide (own < 4) && s.frameOutside own f)
        (decide (bitsOf va 55 52 = 8)) (va % 2 ^ 48) (k.root own va) [] 4
      if w.status = 0 ∧ own = 0xD ∧ s.frameOutside own (w.frame + (va % 2 ^ 48 - w.page)) then { status := 5 }
      else { w with page := w.page + va / 2 ^ 48 * 2 ^ 48 }
  | _, _ => { status := 1 }

/-- What an access is, for permission and for the A and D bits (R205). -/
inductive Kind where
  | read | write | atomic | fetch | quiet
  deriving DecidableEq, Repr

def Kind.writes (k : Kind) : Bool := decide (k = .write) || decide (k = .atomic)

/-- The bits A and D that a confirmed access sets (R205): bit 5, and bit 6 for a write. -/
def Kind.adBits : Kind → Nat
  | .read | .fetch => 0x20
  | .write | .atomic => 0x60
  | .quiet => 0

/-- Permission against the leaf (R205): R is bit 1, W bit 2, X bit 3. -/
def Kind.permitted (k : Kind) (leaf : Nat) : Bool :=
  match k with
  | .read => leaf / 2 % 2 == 1
  | .write => leaf / 4 % 2 == 1
  | .atomic => leaf / 2 % 2 == 1 && leaf / 4 % 2 == 1
  | .fetch => leaf / 8 % 2 == 1
  | .quiet => true

/-- Bits of a number set as of a mask. -/
def orBits (x m : Nat) : Nat := x ||| m

/-- Sets A and D in the leaf entry in memory (R205). -/
def State.setAD (s : State) (own addr ad : Nat) : State :=
  if own < 4 then
    s.updDie own fun d =>
      { d with mem := writeBytes d.mem addr (leBytes 1 (orBits (d.mem.get byte0 addr).toNat ad)) }
  else { s with host := writeBytes s.host addr (leBytes 1 (orBits (s.host.get byte0 addr).toNat ad)) }

/-- A hit among cached translations (R204). Entries that drain are not used (R480). -/
def tlbFind (es : List TlbEnt) (ctx va : Nat) (slice : Option Nat) : Option TlbEnt :=
  es.find? fun e => e.ctx == ctx && !e.drain && decide (e.page ≤ va) && decide (va < e.page + e.size)
    && (match slice with
        | some n => e.slice == n
        | none => true)

/-- A cached translation, draining or not: writes made under the old mapping use it until the confirm phase (R480). -/
def tlbAny (es : List TlbEnt) (ctx va : Nat) : Option TlbEnt :=
  es.find? fun e => e.ctx == ctx && decide (e.page ≤ va) && decide (va < e.page + e.size)

/-- The cached translation that an access of a core uses: the core's own for addresses of its die,
else one of the home slice (R30, R204). -/
def State.tlbHit (s : State) (die core va : Nat) : Option TlbEnt :=
  match s.owner va with
  | none => none
  | some own =>
    if own < 4 then
      match (if own = die then tlbFind (s.core die core).tlb s.ctxNum va none else none) with
      | some e => some e
      | none => tlbFind (s.die own).stlb s.ctxNum va (some (sliceOf va))
    else none

/-- A translation as an access uses it. -/
structure Tr where
  status : Nat
  own    : Nat
  pa     : Nat
  leaf   : Nat
  deriving DecidableEq, Repr

def Walk.tr (w : Walk) (own va : Nat) : Tr :=
  { status := w.status, own := own, pa := w.frame + (va - w.page), leaf := w.leaf }
def TlbEnt.tr (e : TlbEnt) (own va : Nat) : Tr := { status := 0, own := own, pa := e.frame + (va - e.page), leaf := e.leaf }

/-- Whether a cached entry serves an access of a kind without a walk: a write needs D (R205). -/
def TlbEnt.serves (e : TlbEnt) (k : Kind) : Bool := !k.writes || e.leaf / 64 % 2 == 1

/-- A slice's TLB with one more entry: 8 ways in each of 128 sets (R204). Of a full set the oldest leaves. -/
def putSliceTlb (es : List TlbEnt) (e : TlbEnt) : List TlbEnt :=
  let rest := es.filter fun x => !(x.ctx == e.ctx && x.page == e.page && x.slice == e.slice)
  if rest.countP (fun x => x.slice == e.slice) < 8 then e :: rest
  else
    let set := rest.filter fun x => x.slice == e.slice && Config.tlbSet x.page % 128 == Config.tlbSet e.page % 128
    if set.length < 8 then e :: rest
    else
      match set.getLast? with
      | some old => e :: rest.filter (· ≠ old)
      | none => e :: rest

/-- A core's own TLB with one more entry: 64, of which the oldest leaves (R204). -/
def putCoreTlb (es : List TlbEnt) (e : TlbEnt) : List TlbEnt :=
  (e :: es.filter fun x => !(x.ctx == e.ctx && x.page == e.page)).take 64

/-- Fills the slice TLB, the walk cache and, on the owning die, the core's TLB (R204). `late` marks an
entry that sets no bits (R109). -/
def State.fillTlb (s : State) (die core va : Nat) (w : Walk) (late : Bool) : State :=
  match s.owner va with
  | none => s
  | some own =>
    if own < 4 then
      let s1 := s.updDie own fun d => { d with walks :=
        (w.upper.map (fun p => ({ ctx := s.ctxNum, addr := p.1, entry := BitVec.ofNat 64 p.2 } : WalkEnt)) ++
          d.walks.filter fun x => !(w.upper.any fun p => p.1 == x.addr && x.ctx == s.ctxNum)).take 512 }
      if w.status = 0 then
        let e : TlbEnt := { ctx := s.ctxNum, slice := sliceOf va, page := w.page, size := w.size, frame := w.frame,
                            leaf := w.leaf, addr := w.addr, late := late }
        let s2 := s1.updDie own fun d => { d with stlb := putSliceTlb d.stlb e }
        if own = die then s2.updCore die core fun c => { c with tlb := putCoreTlb c.tlb e } else s2
      else s1
    else s

/-- A walk for an access: its status, and the machine with A and D set and the TLBs filled (R202, R205). A
permission that fails sets no bit. -/
def State.doWalk (s : State) (die core va : Nat) (k : Kind) : Walk × State :=
  let w := s.walk va
  match s.owner va with
  | none => (w, s)
  | some own =>
    if w.status = 0 ∧ k.permitted w.leaf then
      let w1 := { w with leaf := orBits w.leaf k.adBits }
      (w1, (if k.adBits = 0 then s else s.setAD own w.addr k.adBits).fillTlb die core va w1 (decide (k = .quiet)))
    else (w, s.fillTlb die core va w true)

/-- A cached entry serves an access: the core's own TLB takes one that a slice held for the core's die (R204), and a confirmed
access sets the bits that a late entry has not set (R109). -/
def State.useEntry (s : State) (die core own : Nat) (e : TlbEnt) (k : Kind) : State :=
  let s0 :=
    if own = die ∧ (tlbFind (s.core die core).tlb s.ctxNum e.page none).isNone then
      s.updCore die core fun c => { c with tlb := putCoreTlb c.tlb e }
    else s
  if e.late ∧ k.adBits ≠ 0 then
    let g (x : TlbEnt) : TlbEnt :=
      if x.ctx = e.ctx ∧ x.page = e.page then { x with late := false, leaf := orBits x.leaf k.adBits } else x
    ((s0.setAD own e.addr k.adBits).updDie own fun d => { d with stlb := d.stlb.map g }).updCore die core
      fun c => { c with tlb := c.tlb.map g }
  else s0

/-! ### Lines -/

def Line.byte (l : Line) (i : Nat) : Byte := l.data.extractLsb' (8 * i) 8
def Line.hasByte (l : Line) (i : Nat) : Bool := l.valid.getLsbD i
def Line.isDirty (l : Line) (i : Nat) : Bool := l.dirty.getLsbD i

/-- One byte of a line set. -/
def Line.setByte (l : Line) (i : Nat) (b : Byte) (dirty : Bool) : Line :=
  let m : BitVec 128 := (1 : BitVec 128) <<< i
  { l with
    data := (l.data &&& ~~~((0xFF : BitVec 1024) <<< (8 * i))) ||| ((b.setWidth 1024) <<< (8 * i)),
    valid := l.valid ||| m, dirty := if dirty then l.dirty ||| m else l.dirty }

/-- The sector of a byte (R208): bytes [32 k, 32 k + 32). -/
def sectorMask (i : Nat) : BitVec 128 := (0xFFFFFFFF : BitVec 128) <<< (i / 32 * 32)

/-- Sets every byte of the sector of `i` that the line does not hold, from `rd`. -/
def Line.fill (l : Line) (i : Nat) (rd : Nat → Byte) : Line :=
  (List.range 32).foldl (fun l j =>
    let b := i / 32 * 32 + j
    if l.hasByte b then l else l.setByte b (rd b) false) l

def lineIs (ctx slice tag : Nat) (l : Line) : Bool := l.ctx == ctx && l.slice == slice && l.tag == tag

def findLine (ls : List Line) (ctx slice tag : Nat) : Option Line := ls.find? (lineIs ctx slice tag)

/-- The line put first, as most recently used. -/
def putLine (ls : List Line) (l : Line) : List Line := l :: ls.filter fun x => !(lineIs l.ctx l.slice l.tag x)

/-- A line touched by an access with an EVP; 6 leaves the line's own (R213). -/
def Line.touch (l : Line) (evp : Nat) : Line := if evp = 6 then l else { l with evp := evp }

/-- The order in which victims are chosen (R213). -/
def victimRank (evp : Nat) : Nat :=
  if evp = 5 then 0 else if evp = 4 then 1 else if evp = 3 then 2 else if evp = 2 then 3 else if evp = 1 then 4
  else if evp = 0 then 5 else 6

/-- The victim of a set: lowest rank, and within it the least recently used, which stands last. -/
def victim : List Line → Option Line
  | [] => none
  | l :: ls =>
    match victim ls with
    | none => some l
    | some v => if victimRank l.evp < victimRank v.evp then some l else some v

/-- The set of a line in an L1 of 256 sets (R208), and in a slice of 2,048 (R14, R21); the index is not stated (log entry 10). -/
def l1SetOf (tag : Nat) : Nat := Config.l1Set tag % 256
def l2SetOf (tag : Nat) : Nat := Config.l2Set tag % 2048

/-- The line that must leave a cache before one more line of the set of `tag` enters it. No line leaves a cache that holds fewer
than `ways` lines. -/
def evictee (ls : List Line) (ways : Nat) (setOf : Nat → Nat) (tag : Nat) : Option Line :=
  if ls.length < ways then none
  else
    let set := ls.filter fun l => setOf l.tag == setOf tag
    if set.length < ways then none else victim set

/-- A line that must leave a cache that holds more than `ways` lines of some set. -/
def overfull (ls : List Line) (ways : Nat) (setOf : Nat → Nat) : Option Line :=
  if ls.length ≤ ways then none
  else
    ls.findSome? fun l =>
      let set := ls.filter fun x => setOf x.tag == setOf l.tag
      if set.length ≤ ways then none else victim set

/-- The lowest way of its set in which no line stands (log entry 53). -/
def freeWay (ls : List Line) (setOf : Nat → Nat) (tag : Nat) : Nat :=
  if ls.isEmpty then 0
  else ((List.range 16).find? fun k => !(ls.any fun l => setOf l.tag == setOf tag && l.way == k)).getD 0

def dropLine (ls : List Line) (l : Line) : List Line := ls.filter fun x => !(lineIs l.ctx l.slice l.tag x)

/-- The dirty bytes of a line, with their places. -/
def Line.dirtyBytes (l : Line) : List (Nat × Byte) :=
  ((List.range 128).filter l.isDirty).map fun i => (i, l.byte i)

def Line.clean (l : Line) : Line := { l with dirty := 0 }

/-- The bytes of the sectors that hold a dirty byte. -/
def Line.dirtySectors (l : Line) : BitVec 128 :=
  (List.range 4).foldl (fun m k => if l.dirty &&& sectorMask (32 * k) = 0 then m else m ||| sectorMask (32 * k)) 0

/-- The line without its clean sectors: a dirty one stays whole (R236). -/
def Line.dropSectors (l : Line) : Option Line :=
  if l.dirty = 0 then none else some { l with valid := l.valid &&& l.dirtySectors }

/-- The line without its clean bytes; none when nothing is left. What an acquire leaves of a dirty sector: a clean byte beside a
dirty one could be older than a value that R250 makes it read (log entry 53). -/
def Line.dropClean (l : Line) : Option Line :=
  if l.dirty = 0 then none else some { l with valid := l.valid &&& l.dirty }

/-! ### Home lines and memory -/

/-- A place in memory: the virtual address, its owner and the physical address at the owner. -/
structure Loc where
  va  : Nat
  own : Nat
  pa  : Nat
  /-- The memory controller may compress the page (R201). -/
  cmp : Bool := false
  deriving DecidableEq, Repr

/-- CMP of a leaf entry (R201). -/
def cmpOf (leaf : Nat) : Bool := leaf / 16 % 2 == 1

/-- A byte of a die's memory; one that a held write-back carries is read from there (R485). -/
def Die.memByte (d : Die) (pa : Nat) : Byte :=
  if d.held.isEmpty then d.mem.get byte0 pa
  else ((d.held.reverse.findSome? fun h => h.bytes.find? fun b => b.1 == pa).map (·.2)).getD (d.mem.get byte0 pa)

/-- Bytes written to a die's memory: no held write-back of an earlier time still carries them. -/
def Die.putMem (d : Die) (bs : List (Nat × Byte)) : Die :=
  { d with
    mem := bs.foldl (fun m b => m.set byte0 b.1 b.2) d.mem
    held := d.held.map fun h => { h with bytes := h.bytes.filter fun q => !(bs.any fun b => b.1 == q.1) } }

/-- Bytes of memory behind the home slice of an owner, or behind the hub. -/
def State.ownerByte (s : State) (own pa : Nat) : Byte :=
  if own < 4 then (s.die own).memByte pa
  else if own = 0xC then s.host.get byte0 pa
  else s.peer.get byte0 pa

def State.setOwnerByte (s : State) (own pa : Nat) (b : Byte) : State :=
  if own < 4 then s.updDie own fun d => d.putMem [(pa, b)]
  else if own = 0xC then { s with host := s.host.set byte0 pa b }
  else { s with peer := s.peer.set byte0 pa b }

/-! ### The contexts that own a frame (R468, R485) -/

/-- Every context, and its number. -/
def State.ctxs (s : State) : List Ctx := s.ctx.toList ++ (s.others ++ s.saved).map (·.ctx)
def State.ctxNums (s : State) : List Nat := s.ctxs.map (·.num)

/-- Some leaf below a table, of those that `ok` takes, maps a frame (R200). -/
def tableMaps (rd : Nat → Nat) (ok : Nat → Bool) (frame : Nat) (table : Nat) : Nat → Bool
  | 0 => false
  | n + 1 =>
    (List.range 512).any fun i =>
      let e := rd (table + 8 * i)
      if entryStatus (n + 1) e ≠ 0 then false
      else if e / 128 % 2 = 1 then
        ok e && decide (frameOf e ≤ frame) && decide (frame < frameOf e + leafSize (n + 1) (decide (e / 256 % 2 = 1)))
      else tableMaps rd ok frame (frameOf e) n

/-- A context maps a frame of a die, by a leaf that `ok` takes. -/
def State.mapsFrame (s : State) (k : Ctx) (phys frame : Nat) (ok : Nat → Bool := fun _ => true) : Bool :=
  (List.range 4).any fun v =>
    decide (k.vdEntry v = 8 + phys)
      && ([(k.wroots[v]?).getD 0, (k.sroots[v]?).getD 0].any fun r =>
        decide (r ≠ 0) && tableMaps (fun a => leNat (readBytes (s.dieAt phys).mem a 8)) ok frame r 4)

/-- The contexts that own a frame of a die. -/
def State.ownersOf (s : State) (phys frame : Nat) : List Nat :=
  (s.ctxs.filter fun k => s.mapsFrame k phys frame).map (·.num)

/-! ### Compressed pages (R484, R485) -/

/-- The page of a frame is all zero with some bytes written. -/
def Die.pageZero (d : Die) (frame : Nat) (bs : List (Nat × Byte)) : Bool :=
  bs.all (fun b => b.2 == byte0) && !(d.mem.any fun p =>
    decide (frame ≤ p.1) && decide (p.1 < frame + 4096) && !(bs.any fun b => b.1 == p.1))

/-- The chunks that a compressed page takes now. -/
def Die.chunksAt (d : Die) (frame : Nat) : Nat := d.chunks.get 0 (frame / 4096)

/-- The chunks that it takes with some bytes written (log entry 12). -/
def State.chunksFor (s : State) (p frame : Nat) (bs : List (Nat × Byte)) : Nat :=
  if (s.dieAt p).pageZero frame bs then 0 else 1 + Config.chunksNeeded s.n (frame / 4096) % 8

/-- Bytes of a compressed page written, with its chunks taken from the pool or given back. -/
def Die.putPage (d : Die) (frame need : Nat) (bs : List (Nat × Byte)) : Die :=
  { d.putMem bs with pool := d.pool + d.chunksAt frame - need, chunks := d.chunks.set 0 (frame / 4096) need }

/-- A dirty line that holds an uncorrectable error is not written back: the contexts that own it are to end (R468). -/
def State.lose (s : State) (location die line : Nat) (ctxs : List Nat) : State :=
  { s with hub := { s.hub with lost := s.hub.lost ++ [{ location := location, die := die, line := line, ctxs := ctxs }] } }

/-- Bytes of a compressed page that reach the memory of a physical position: those that need chunks which the pool cannot give, or
that come after held ones of the page, are held in their memory channel (R485). -/
def State.writePage (s : State) (p frame : Nat) (bs : List (Nat × Byte)) : State :=
  let need := s.chunksFor p frame bs
  let d := s.dieAt p
  if need ≤ d.pool + d.chunksAt frame ∧ !(d.held.any fun h => h.addr == frame) then s.updDieAt p fun d => d.putPage frame need bs
  else
    s.updDieAt p fun d => { d with held := d.held ++
      [{ ctx := s.ctxNum, addr := frame, since := s.time, chunks := need - d.chunksAt frame, bytes := bs }] }

/-- The chunks of a compressed page taken anew, as what it holds has changed past the memory channels: as many as the pool can give
(log entry 12). -/
def State.rechunk (s : State) (p frame : Nat) : State :=
  let d := s.dieAt p
  if d.chunksAt frame = 0 ∧ !(s.ctxs.any fun k => s.mapsFrame k p frame cmpOf) then s
  else s.updDieAt p fun d => d.putPage frame (min (s.chunksFor p frame []) (d.pool + d.chunksAt frame)) []

/-- A home line written back at a physical position (R209). -/
def State.writeLine (s : State) (p : Nat) (l : Line) : State :=
  let bs := l.dirtyBytes.map fun b => (l.tag * 128 + b.1, b.2)
  if l.dirty ≠ 0 ∧ s.bad.contains (1, p, l.tag) = true then s.lose 1 p l.tag (s.ownersOf p (l.tag * 128))
  else if !l.cmp || bs.isEmpty then s.updDieAt p fun d => d.putMem bs
  else s.writePage p (l.tag / 32 * 4096) bs

/-- A home line written back to the owner's memory (R209). -/
def State.homeWriteback (s : State) (own : Nat) (l : Line) : State := s.writeLine (s.phys own) l

/-- A byte written past the home slice to memory. -/
def State.writeThrough (s : State) (a : Loc) (b : Byte) : State :=
  if a.own < 4 ∧ a.cmp = true then s.writePage (s.phys a.own) (a.pa / 4096 * 4096) [(a.pa, b)]
  else s.setOwnerByte a.own a.pa b

/-- An uncorrectable error where a home slice reads a byte (R467): its location. -/
def State.homeBad (s : State) (a : Loc) : Option Nat :=
  if s.bad.isEmpty ∨ 4 ≤ a.own then none
  else if (findLine (s.die a.own).l2 0 (sliceOf a.va) (a.pa / 128)).any fun l => l.hasByte (a.pa % 128) then
    (if s.bad.contains (1, s.phys a.own, a.pa / 128) then some 1 else none)
  else if s.bad.contains (5, s.phys a.own, a.pa / 32) then some 5
  else none

/-- The byte that a home slice holds, or memory's. -/
def State.homeByte (s : State) (a : Loc) : Byte :=
  if a.own < 4 then
    match findLine (s.die a.own).l2 0 (sliceOf a.va) (a.pa / 128) with
    | some l => if l.hasByte (a.pa % 128) then l.byte (a.pa % 128) else s.ownerByte a.own a.pa
    | none => s.ownerByte a.own a.pa
  else s.ownerByte a.own a.pa

/-- The ways of home lines and of guest lines in a slice, as the last context switch has left them (R210). -/
def Die.guestLines (d : Die) : Nat := min d.gstWays (14 - d.resWays)
def State.guestWays (s : State) (v : Nat) : Nat := (s.die v).guestLines
def State.homeWays (s : State) (v : Nat) : Nat := 16 - s.guestWays v - (s.die v).resWays

/-- The home line of a place, made present; a line that must leave is written back first. R209 lets a slice keep a superblock
of four lines compressed under one tag and evict them together: the model never does so, and each line has a tag of its own
(DESIGN CHOICE, log entry 10). -/
def State.homeAlloc (s : State) (a : Loc) (evp : Nat) : State × Line :=
  let slice := sliceOf a.va
  match findLine (s.die a.own).l2 0 slice (a.pa / 128) with
  | some l => (s, l.touch evp)
  | none =>
    let mine := (s.die a.own).l2.filter (·.slice == slice)
    let s1 := match evictee mine (s.homeWays a.own) l2SetOf (a.pa / 128) with
      | some v => (s.homeWriteback a.own v).updDie a.own fun d => { d with l2 := dropLine d.l2 v }
      | none => s
    (s1, { tag := a.pa / 128, ctx := 0, slice := slice, evp := if evp = 6 then 0 else evp })

def State.putHome (s : State) (own : Nat) (l : Line) : State := s.updDie own fun d => { d with l2 := putLine d.l2 l }

/-- A line, where there is one, holds a byte. -/
def holdsByte (l : Option Line) (i : Nat) : Bool :=
  match l with
  | some l => l.hasByte i
  | none => false

/-- The home line of a place. -/
def State.homeLine (s : State) (a : Loc) : Option Line := findLine (s.die a.own).l2 0 (sliceOf a.va) (a.pa / 128)

/-- A write at the home slice, or at the hub. With EVP 6 a byte that the slice does not hold goes to memory (R213). -/
def State.homeWrite (s : State) (a : Loc) (b : Byte) (evp : Nat) : State :=
  if a.own < 4 then
    if evp = 6 ∧ holdsByte (s.homeLine a) (a.pa % 128) = false then s.writeThrough a b
    else
      let (s1, l) := s.homeAlloc a evp
      s1.putHome a.own { l.setByte (a.pa % 128) b true with cmp := l.cmp || a.cmp }
  else s.setOwnerByte a.own a.pa b

/-- A sector of which a line lacks some byte. -/
def lacksSector (l : Option Line) (i : Nat) : Bool := (List.range 32).any fun j => !(holdsByte l (i / 32 * 32 + j))

/-- The sector of a place fetched into the home line from memory (R208, R209). With EVP 6 nothing is allocated, and a hit is
served in place (R213); nor is a sector fetched of which memory holds an uncorrectable error, which is never delivered (R467). -/
def State.homeFill (s : State) (a : Loc) (evp : Nat) : State :=
  if 4 ≤ a.own then s
  else if evp = 6 then
    match s.homeLine a with
    | some l => if l.hasByte (a.pa % 128) then s.putHome a.own l else s
    | none => s
  else if s.bad.contains (5, s.phys a.own, a.pa / 32) && lacksSector (s.homeLine a) (a.pa % 128) then s
  else
    let (s1, l) := s.homeAlloc a evp
    s1.putHome a.own (l.fill (a.pa % 128) fun i => s1.ownerByte a.own (a.pa / 128 * 128 + i))

/-! ### Guest lines (R211) -/

/-- The physical place of another byte of the same 128-byte line; pages hold whole lines. -/
def Loc.inLine (a : Loc) (i : Nat) : Loc := { a with va := a.va / 128 * 128 + i, pa := a.pa / 128 * 128 + i }

/-- A place moved by a translation that the owner makes again, as a guest line's write-back needs: the guest tag
is virtual (R207). Bytes without a translation are dropped. -/
def State.locOf (s : State) (va : Nat) : Option Loc :=
  match s.owner va with
  | none => none
  | some own =>
    match (if own < 4 then tlbAny (s.die own).stlb s.ctxNum va else none) with
    | some e => some { va := va, own := own, pa := e.frame + (va - e.page), cmp := cmpOf e.leaf }
    | none =>
      let w := s.walk va
      if w.status = 0 then some { va := va, own := own, pa := w.frame + (va - w.page), cmp := cmpOf w.leaf } else none

/-- Dirty bytes of a guest or L1 line carried to the owner's home slices. DESIGN CHOICE (log entry 10): the home lines take the
EVP of the line that is written back, on which R213, which speaks of accesses, is silent. -/
def State.writeHomeBytes (s : State) (l : Line) : State :=
  let t := s.asCtx l.ctx
  match t.locOf (l.tag * 128) with
  | none => s
  | some a => { l.dirtyBytes.foldl (fun s p => s.homeWrite (a.inLine p.1) p.2 l.evp) t with ctx := s.ctx }

/-- A dirty guest line of a physical die written to its owner, as a message of its own (R211, R504). -/
def State.guestWriteback (s : State) (p : Nat) (l : Line) : State :=
  let t := s.asCtx l.ctx
  if l.dirty ≠ 0 ∧ s.bad.contains (2, p, l.tag) = true then s.lose 2 p l.tag [l.ctx]
  else
  match t.owner (l.tag * 128) with
  | some own => (s.writeHomeBytes l).post p (t.ownerPos own) vcWriteback l.dirtyBytes.length
  | none => s.writeHomeBytes l

def State.guestLine (s : State) (die va : Nat) : Option Line :=
  findLine (s.die die).guest s.ctxNum (sliceOf va) (va / 128)

def State.guestByte (s : State) (die : Nat) (a : Loc) : Byte :=
  match s.guestLine die a.va with
  | some l => if l.hasByte (a.va % 128) then l.byte (a.va % 128) else s.homeByte a
  | none => s.homeByte a

def State.putGuest (s : State) (die : Nat) (l : Line) : State := s.updDie die fun d => { d with guest := putLine d.guest l }

/-- The guest line of an address, made present; a dirty line that must leave goes to its owner (R211). -/
def State.guestAlloc (s : State) (die va evp : Nat) : State × Line :=
  match s.guestLine die va with
  | some l => (s, l.touch evp)
  | none =>
    let mine := (s.die die).guest.filter (·.slice == sliceOf va)
    let s1 := match evictee mine (s.guestWays die) l2SetOf (va / 128) with
      | some v => (s.guestWriteback (s.phys die) v).updDie die fun d => { d with guest := dropLine d.guest v }
      | none => s
    (s1, { tag := va / 128, ctx := s.ctxNum, slice := sliceOf va, evp := if evp = 6 then 0 else evp })

/-- A write into the guest partition, held dirty (R211, R243); with no guest way it goes to the owner. -/
def State.guestWrite (s : State) (die : Nat) (a : Loc) (b : Byte) (evp : Nat) : State :=
  if s.guestWays die = 0 then s.homeWrite a b evp
  else
    let (s1, l) := s.guestAlloc die a.va evp
    s1.putGuest die (l.setByte (a.va % 128) b true)

/-- An uncorrectable error where the guest partition, or else the home slice, reads a byte (R467). -/
def State.guestBad (s : State) (die : Nat) (a : Loc) : Option Nat :=
  if s.bad.isEmpty then none
  else if (s.guestLine die a.va).any fun l => l.hasByte (a.va % 128) then
    (if s.bad.contains (2, s.phys die, a.va / 128) then some 2 else none)
  else s.homeBad a

/-- A byte of a place's sector that a line lacks meets an uncorrectable error where it is read, so that the sector is not
fetched (R467). -/
def State.sectorBad (s : State) (l : Option Line) (a : Loc) (bad : Loc → Option Nat) : Bool :=
  !s.bad.isEmpty && (List.range 32).any fun j =>
    let i := a.va % 128 / 32 * 32 + j
    !(holdsByte l i) && (bad (a.inLine i)).isSome

/-- The sector of a place fetched into the guest partition, unless EVP is 6 (R211) or the owner finds an error (R467). What the
partition does not serve is an access to the owner's home line, which it touches (R213). -/
def State.guestFill (s : State) (die : Nat) (a : Loc) (evp : Nat) : State :=
  let line := s.guestLine die a.va
  if s.guestWays die = 0 then s.homeFill a evp
  else if evp = 6 then
    match line with
    | some l => if l.hasByte (a.va % 128) then s.putGuest die l else s.homeFill a evp
    | none => s.homeFill a evp
  else if s.sectorBad line a s.homeBad then s
  else
    let s0 := if lacksSector line (a.va % 128) then s.homeFill a evp else s
    let (s1, l) := s0.guestAlloc die a.va evp
    s1.putGuest die (l.fill (a.va % 128) fun i => s1.homeByte (a.inLine i))

/-- A byte that a store performed at the owner leaves in the guest partition on its way, clean (R211, R243). -/
def State.guestPass (s : State) (die : Nat) (a : Loc) (b : Byte) (evp : Nat) : State :=
  if s.guestWays die = 0 then s
  else
    let (s1, l) := s.guestAlloc die a.va evp
    let i := a.va % 128
    s1.putGuest die { l.setByte i b false with dirty := l.dirty &&& ~~~((1 : BitVec 128) <<< i) }

/-! ### L1 (R208) -/

/-- Whether the cluster of a core is fused (R22). -/
def State.fusedAt (s : State) (die core : Nat) : Bool :=
  (List.range 8).any fun i => (s.core die (cluster core * 8 + i)).fused.isSome

/-- The core whose L1 serves an address: of a fused cluster, the one that VA[9:7] gives (R208). -/
def State.l1Core (s : State) (die core va : Nat) : Nat :=
  if s.fusedAt die core then cluster core * 8 + bitsOf va 9 7 else core

def State.l1Line (s : State) (die core va : Nat) : Option Line :=
  findLine (s.core die (s.l1Core die core va)).l1 s.ctxNum 0 (va / 128)

def State.putL1 (s : State) (die core va : Nat) (l : Line) : State :=
  s.updCore die (s.l1Core die core va) fun c => { c with l1 := putLine c.l1 l }

/-- A dirty L1 line of a core written to the die's L2 points (R242). Only lines that the die owns are dirty. -/
def State.l1Writeback (s : State) (die core : Nat) (l : Line) : State :=
  if l.dirty ≠ 0 ∧ s.bad.contains (0, coreId (s.phys die) core, l.tag) = true then s.lose 0 (s.phys die) l.tag [l.ctx]
  else s.writeHomeBytes l

def State.l1Alloc (s : State) (die core va evp : Nat) : State × Line :=
  match s.l1Line die core va with
  | some l => (s, l.touch evp)
  | none =>
    let n := s.l1Core die core va
    let s1 := match evictee (s.core die n).l1 (s.core die n).ways l1SetOf (va / 128) with
      | some v => (s.l1Writeback die n v).updCore die n fun c => { c with l1 := dropLine c.l1 v }
      | none => s
    (s1, { tag := va / 128, ctx := s.ctxNum, evp := if evp = 6 then 0 else evp, way := freeWay (s1.core die n).l1 l1SetOf (va / 128) })

/-- The byte behind L1: the home slice of an address that the die owns, else the guest partition. -/
def State.l2Byte (s : State) (die : Nat) (a : Loc) : Byte :=
  if a.own = die then s.homeByte a else s.guestByte die a

/-- The byte that a load at scope 0 to 2 reads (R243). -/
def State.l1Byte (s : State) (die core : Nat) (a : Loc) : Byte :=
  match s.l1Line die core a.va with
  | some l => if l.hasByte (a.va % 128) then l.byte (a.va % 128) else s.l2Byte die a
  | none => s.l2Byte die a

/-- An uncorrectable error in L2 where a byte would be fetched into L1 (R467). -/
def State.l2Bad (s : State) (die : Nat) (a : Loc) : Option Nat := if a.own = die then s.homeBad a else s.guestBad die a

/-- A read at L1: a hit touches its line; a miss fetches the sector into L1 and the L2 line on the way, but with EVP 6 (R208,
R213), or where L2 finds an error (R467). -/
def State.l1Fill (s : State) (die core : Nat) (a : Loc) (evp : Nat) : State :=
  let line := s.l1Line die core a.va
  let l2 (s : State) : State := if a.own = die then s.homeFill a evp else s.guestFill die a evp
  if holdsByte line (a.va % 128) then
    match line with
    | some l => s.putL1 die core a.va (l.touch evp)
    | none => s
  else if evp = 6 then l2 s
  else if s.sectorBad line a (s.l2Bad die) then s
  else
    let (s1, l) := (l2 s).l1Alloc die core a.va evp
    s1.putL1 die core a.va (l.fill (a.va % 128) fun i => s1.l2Byte die (a.inLine i))

/-- Updates an L1 copy that holds the byte; the copy stays as clean as it was (R243). -/
def State.l1Update (s : State) (die core : Nat) (a : Loc) (b : Byte) (evp : Nat) : State :=
  match s.l1Line die core a.va with
  | some l =>
    if l.hasByte (a.va % 128) then
      let i := a.va % 128
      s.putL1 die core a.va { ((l.touch evp).setByte i b false) with dirty := l.dirty &&& ~~~((1 : BitVec 128) <<< i) }
    else s
  | none => s

/-- Updates a guest copy that holds the byte, which stays clean (R211, R243). -/
def State.guestUpdate (s : State) (die : Nat) (a : Loc) (b : Byte) (evp : Nat) : State :=
  match s.guestLine die a.va with
  | some l =>
    if l.hasByte (a.va % 128) then
      let i := a.va % 128
      s.putGuest die { ((l.touch evp).setByte i b false) with dirty := l.dirty &&& ~~~((1 : BitVec 128) <<< i) }
    else s
  | none => s

/-! ### Points of coherence (R242) -/

/-- Where an access is performed. -/
inductive Point where
  | l1 | guest | home
  deriving DecidableEq, Repr

/-- Scope 7 is performed as scope 4 or 5 (R241); other scopes as they are. -/
def effScope (single : Bool) (scope : Nat) : Nat := if scope = 7 then (if single then 4 else 5) else scope

/-- The point of an access at a scope from 0 to 6. -/
def pointOf (fused : Bool) (scope die own : Nat) : Point :=
  if scope ≤ 2 ∨ (scope = 3 ∧ fused) then .l1
  else if own = die then .home
  else if scope ≤ 4 then .guest
  else .home

/-- The byte at a point. -/
def State.pointByte (s : State) (p : Point) (die core : Nat) (a : Loc) : Byte :=
  match p with
  | .l1 => s.l1Byte die core a
  | .guest => s.guestByte die a
  | .home => s.homeByte a

/-- An L1 copy that a read passes is touched, and a clean byte of it takes the value that was read (R213, R243). -/
def State.refreshL1 (s : State) (die core : Nat) (a : Loc) (b : Byte) (evp : Nat) : State :=
  match s.l1Line die core a.va with
  | some l =>
    let l := l.touch evp
    s.putL1 die core a.va (if l.hasByte (a.va % 128) && !l.isDirty (a.va % 128) then l.setByte (a.va % 128) b false else l)
  | none => s

/-- So is a guest copy (R213, R243). -/
def State.refreshGuest (s : State) (die : Nat) (a : Loc) (b : Byte) (evp : Nat) : State :=
  match s.guestLine die a.va with
  | some l =>
    let l := l.touch evp
    s.putGuest die (if l.hasByte (a.va % 128) && !l.isDirty (a.va % 128) then l.setByte (a.va % 128) b false else l)
  | none => s

/-- The home byte under the dirty guest byte of the die (R243). -/
def State.homeUnderGuest (s : State) (die : Nat) (a : Loc) : Byte :=
  if a.own = die then s.homeByte a
  else
    match s.guestLine die a.va with
    | some l => if l.isDirty (a.va % 128) then l.byte (a.va % 128) else s.homeByte a
    | none => s.homeByte a

/-- What a load reads: a dirty byte of the core's L1, then a dirty guest byte of the die, override what
is fetched from the point, so a warp never reads past its own writes (R243). -/
def State.loadByte (s : State) (p : Point) (die core : Nat) (a : Loc) : Byte :=
  let fetched := match p with
    | .home => s.homeUnderGuest die a
    | p => s.pointByte p die core a
  match s.l1Line die core a.va with
  | some l => if l.isDirty (a.va % 128) then l.byte (a.va % 128) else fetched
  | none => fetched

/-- What an engine reads at scope 4: as a load, without the dirty bytes of the core's L1 (R256). -/
def State.engineByte (s : State) (die : Nat) (a : Loc) : Byte := s.l2Byte die a

/-- What a load of a byte leaves in the caches: fills at its point, and copies on the way refreshed (R243). -/
def State.loadFill (s : State) (p : Point) (die core : Nat) (a : Loc) (evp : Nat) : State :=
  match p with
  | .l1 => s.l1Fill die core a evp
  | .guest => (s.guestFill die a evp).refreshL1 die core a (s.loadByte p die core a) evp
  | .home =>
    let b := s.loadByte p die core a
    let s1 := s.homeFill a evp
    let s2 := if a.own = die then s1 else (s1.guestFill die a evp).refreshGuest die a b evp
    s2.refreshL1 die core a b evp

/-- A store of one byte at its point (R243): tagged stores and those with EVP 6 to another owner go to the
owner at once (R211, R213), and one at the owner's point leaves its bytes in the guest partition on its way (R211). -/
def State.storeByte (s : State) (p : Point) (die core : Nat) (a : Loc) (b : Byte) (evp : Nat) (toOwner : Bool) :
    State :=
  if a.own = die then
    match p with
    | .l1 =>
      if evp = 6 ∧ holdsByte (s.l1Line die core a.va) (a.va % 128) = false then s.homeWrite a b evp
      else
        let (s1, l) := s.l1Alloc die core a.va evp
        s1.putL1 die core a.va (l.setByte (a.va % 128) b true)
    | _ => (s.l1Update die core a b evp).homeWrite a b evp
  else
    let s1 := s.l1Update die core a b evp
    if toOwner || evp == 6 then (s1.guestUpdate die a b evp).homeWrite a b evp
    else
      match p with
      | .home => (s1.guestPass die a b evp).homeWrite a b evp
      | _ => s1.guestWrite die a b evp

/-! ### Release and acquire steps (R247, R248) -/

/-- Every dirty L1 sector of a core for the context written to the L2 points; the lines stay, clean. -/
def State.flushL1 (s : State) (die core : Nat) : State :=
  let ls := (s.core die core).l1.filter fun l => l.ctx == s.ctxNum && decide (l.dirty ≠ 0)
  (ls.foldl (fun t l => t.l1Writeback die core l) s).updCore die core fun c =>
    { c with l1 := c.l1.map fun l => if l.ctx = s.ctxNum then l.clean else l }

/-- The cores whose L1 a core's release and acquire steps reach: the fused L1 whole. -/
def State.l1Cores (s : State) (die core : Nat) : List Nat :=
  if s.fusedAt die core then (List.range 8).map (cluster core * 8 + ·) else [core]

/-- Every dirty guest byte of a die for the context written to its owner. -/
def State.flushGuest (s : State) (die : Nat) : State :=
  let ls := (s.die die).guest.filter fun l => l.ctx == s.ctxNum && decide (l.dirty ≠ 0)
  (ls.foldl (fun t l => t.guestWriteback (s.phys die) l) s).updDie die fun d =>
    { d with guest := d.guest.map fun l => if l.ctx = s.ctxNum then l.clean else l }

/-- The release steps of a scope from 0 to 6, but for the waiting (R247). -/
def State.releaseSteps (s : State) (die core scope : Nat) : State :=
  if scope ≤ 2 then s
  else if scope = 3 ∧ s.fusedAt die core then s
  else
    let s1 := (s.l1Cores die core).foldl (fun s n => s.flushL1 die n) s
    if scope ≤ 4 then s1 else s1.flushGuest die

/-- Clean L1 sectors of the context dropped on the cores given (R248, R257). -/
def State.dropL1 (s : State) (die : Nat) (cores : List Nat) : State :=
  cores.foldl (fun s n => s.updCore die n fun c =>
    { c with l1 := c.l1.filterMap fun l => if l.ctx = s.ctxNum then l.dropClean else some l }) s

/-- The acquire steps of a scope from 0 to 6 (R248). -/
def State.acquireSteps (s : State) (die core scope : Nat) : State :=
  if scope ≤ 2 then s
  else if scope = 3 ∧ s.fusedAt die core then s
  else
    let s1 := s.dropL1 die (s.l1Cores die core)
    if scope ≤ 4 then s1
    else s1.updDie die fun d =>
      { d with guest := d.guest.filterMap fun l => if l.ctx = s.ctxNum then l.dropClean else some l }

/-! ### The division of the slices (R210) -/

/-- Home lines, and guest lines, of a physical die leave until no set of a slice holds more than its ways. -/
def State.trimHome (s : State) (p : Nat) : Nat → State
  | 0 => s
  | n + 1 =>
    let d := s.dieAt p
    match (d.l2.map (·.slice)).eraseDups.findSome? fun k =>
        overfull (d.l2.filter (·.slice == k)) (16 - d.guestLines - d.resWays) l2SetOf with
    | some v => ((s.writeLine p v).updDieAt p fun d => { d with l2 := dropLine d.l2 v }).trimHome p n
    | none => s
def State.trimGuest (s : State) (p : Nat) : Nat → State
  | 0 => s
  | n + 1 =>
    let d := s.dieAt p
    match (d.guest.map (·.slice)).eraseDups.findSome? fun k =>
        overfull (d.guest.filter (·.slice == k)) d.guestLines l2SetOf with
    | some v => ((s.guestWriteback p v).updDieAt p fun d => { d with guest := dropLine d.guest v }).trimGuest p n
    | none => s

/-- The reservoir ways of a physical die at a context switch: the most that a context which runs there has (log entry 2). -/
def State.waysOn (s : State) (p : Nat) : Nat :=
  ((s.ctx.toList ++ s.others.map (·.ctx)).filter fun k => (List.range 4).any fun v => k.vdEntry v == 8 + p).foldl
    (fun r k => max r k.ways) 0

/-- The division of every slice as a context switch leaves it (R210). -/
def State.resplit (s : State) : State :=
  (List.range 4).foldl (fun s p =>
    let t := s.updDieAt p fun d => { d with resWays := s.waysOn p, gstWays := d.guestWays }
    let u := t.trimGuest p (t.dieAt p).guest.length
    u.trimHome p (u.dieAt p).l2.length) s

/-! ### Release tables and promotion (R251, R252) -/

/-- Whether the scope instance of a release, taken at its core, contains a thread of another core (R240). -/
def instanceHolds (scope releaser die core : Nat) : Bool :=
  if scope ≤ 2 then decide (releaser = coreId die core)
  else if scope = 3 then decide (releaser / 160 = die) && decide (cluster (releaser % 160) = cluster core)
  else if scope = 4 then decide (releaser / 160 = die)
  else true

/-- A release promoted: the release steps of scope 5 on the releasing core, for the context that released; one that runs no
more has written its lines back (R252, R253). -/
def State.promote (s : State) (r : Release) : State := s.inCtx r.ctx fun s => s.releaseSteps (r.core / 160) (r.core % 160) 5

/-- The note that a releasing store or atomic sends to the line's home slice (R251). -/
def State.releaseNote (s : State) (die core : Nat) (a : Loc) (scope : Nat) : State :=
  if a.own < 4 ∧ 2 ≤ scope then
    let slice := sliceOf a.va
    let line := a.pa / 128
    let keep := (s.die a.own).rel.filter fun r => !(r.slice == slice && r.line == line)
    if 5 ≤ scope then s.updDie a.own fun d => { d with rel := keep }
    else
      let mine := keep.filter (·.slice == slice)
      let note : Release := { slice := slice, line := line, core := coreId die core, ctx := s.ctxNum, scope := scope }
      match (if mine.length < 256 then none else mine.getLast?) with
      | some old => (s.promote old).updDie a.own fun d => { d with rel := note :: keep.filter (· ≠ old) }
      | none => s.updDie a.own fun d => { d with rel := note :: keep }
  else s

/-- The entry that a .racq access finds and must have promoted first (R252). -/
def State.racqEntry (s : State) (die core : Nat) (a : Loc) : Option Release :=
  if a.own < 4 then
    match (s.die a.own).rel.find? fun r => r.slice == sliceOf a.va && r.line == a.pa / 128 with
    | some r => if instanceHolds r.scope r.core die core then none else some r
    | none => none
  else none

def State.dropEntry (s : State) (own : Nat) (r : Release) : State :=
  s.updDie own fun d => { d with rel := d.rel.filter (· ≠ r) }

/-! ### Scratch (R198) -/

def State.scratchRead (s : State) (a n : Nat) : List Byte := readBytes s.g.scratch a n
def State.scratchWrite (s : State) (a : Nat) (bs : List Byte) : State :=
  { s with g := { s.g with scratch := writeBytes s.g.scratch a bs } }

end Sys2Proof.Machine
end

