-- ==== Sys2Proof/Machine/Numbers.lean ====
section
/-! DEFINITION. Number formats, rounding and the helper functions of R65 to R89: exact values are
dyadic, and where an exact value is not dyadic it is carried with a bit that says so. -/

namespace Sys2Proof.Machine

/-! ### Formats and values -/

/-- A binary format (R65). -/
structure Fmt where
  p     : Nat
  ebits : Nat
  deriving DecidableEq, Repr

def f32 : Fmt := { p := 24, ebits := 8 }
def f16 : Fmt := { p := 11, ebits := 5 }
def bf16 : Fmt := { p := 8, ebits := 8 }

def Fmt.bias (f : Fmt) : Int := 2 ^ (f.ebits - 1) - 1
def Fmt.emin (f : Fmt) : Int := 1 - f.bias
def Fmt.width (f : Fmt) : Nat := f.p + f.ebits
/-- The encoding of positive infinity, one above the largest finite value. -/
def Fmt.infBits (f : Fmt) : Nat := (2 ^ f.ebits - 1) * 2 ^ (f.p - 1)
def Fmt.signBit (f : Fmt) : Nat := 2 ^ (f.width - 1)
/-- The canonical quiet NaN (R68). -/
def Fmt.nan (f : Fmt) : Nat := f.infBits + 2 ^ (f.p - 2)

/-- An exact value: `fin s m e` is m × 2^e, negative when `s`; zeros keep their sign. -/
inductive FVal where
  | nan
  | inf (neg : Bool)
  | fin (neg : Bool) (m : Nat) (e : Int)
  deriving DecidableEq, Repr

/-- The value of an encoding (R66). -/
def fval (f : Fmt) (x : Nat) : FVal :=
  let b := x % 2 ^ f.width
  let s := decide (f.signBit ≤ b)
  let a := b % f.signBit
  let ex := a / 2 ^ (f.p - 1)
  let fr := a % 2 ^ (f.p - 1)
  if a > f.infBits then .nan
  else if a = f.infBits then .inf s
  else if ex = 0 then .fin s fr (f.emin - f.p + 1)
  else .fin s (2 ^ (f.p - 1) + fr) ((ex : Int) - f.bias - f.p + 1)

def isNan (f : Fmt) (x : Nat) : Bool := decide (f.infBits < x % 2 ^ f.width % f.signBit)
/-- A signalling NaN: top fraction bit 0 (R66). -/
def isSnan (f : Fmt) (x : Nat) : Bool := isNan f x && decide (x / 2 ^ (f.p - 2) % 2 = 0)

/-! ### Flags (R74) -/

abbrev Flags := BitVec 5
def flNV : Flags := 16
def flDZ : Flags := 8
def flOF : Flags := 4
def flUF : Flags := 2
def flNX : Flags := 1

/-- An encoding with the flags that forming it raises. -/
structure FRes where
  bits : Nat
  fl   : Flags := 0
  deriving DecidableEq, Repr

def FRes.nan (f : Fmt) (fl : Flags := 0) : FRes := { bits := f.nan, fl := fl }
def FRes.inf (f : Fmt) (neg : Bool) (fl : Flags := 0) : FRes :=
  { bits := f.infBits + (if neg then f.signBit else 0), fl := fl }
def FRes.zero (f : Fmt) (neg : Bool) (fl : Flags := 0) : FRes := { bits := if neg then f.signBit else 0, fl := fl }

/-! ### Rounding (R71 to R73, R89) -/

/-- The rounding modes (R71). -/
inductive Rm where
  | rne | rtz | rdn | rup
  deriving DecidableEq, Repr

def Rm.ofCode (c : Nat) : Rm := if c % 4 = 0 then .rne else if c % 4 = 1 then .rtz else if c % 4 = 2 then .rdn else .rup

/-- m / 2^sh rounded to an integer under a mode, for a magnitude of the given sign; exact for sh = 0. -/
def rndShift (rm : Rm) (neg : Bool) (m sh : Nat) : Nat :=
  let q := m / 2 ^ sh
  let r := m % 2 ^ sh
  if r = 0 then q
  else
    match rm with
    | .rne => if 2 * r > 2 ^ sh ∨ (2 * r = 2 ^ sh ∧ q % 2 = 1) then q + 1 else q
    | .rtz => q
    | .rdn => if neg then q + 1 else q
    | .rup => if neg then q else q + 1

/-- m × 2^e on the grid 2^q, rounded, and whether that is inexact. -/
def rndGrid (rm : Rm) (neg : Bool) (m : Nat) (e q : Int) : Nat × Bool :=
  if q ≤ e then (m * 2 ^ (e - q).toNat, false)
  else (rndShift rm neg m (q - e).toNat, decide (m % 2 ^ (q - e).toNat ≠ 0))

/-- round_f of a finite value (R89, R72, R73). -/
def roundF (f : Fmt) (rm : Rm) (sat : Bool) (neg : Bool) (m : Nat) (e : Int) : FRes :=
  if m = 0 then .zero f neg
  else
    let e0 : Int := (Nat.log2 m : Int) + e
    let q : Int := max e0 f.emin - f.p + 1
    let (y, nx) := rndGrid rm neg m e q
    let bits : Int := (q + f.p - 1 + f.bias) * 2 ^ (f.p - 1) + y - 2 ^ (f.p - 1)
    let s := if neg then f.signBit else 0
    if bits ≥ f.infBits then
      let toMax := sat || (match rm with
        | .rne => false
        | .rtz => true
        | .rdn => !neg
        | .rup => neg)
      { bits := (if toMax then f.infBits - 1 else f.infBits) + s, fl := flOF ||| flNX }
    else
      let unb := (rndGrid rm neg m e (e0 - f.p + 1)).1
      -- |y_unb| < 2^emin, where y_unb is at most 2^(e0 + 1)
      let tiny := decide (e0 < f.emin) && !(decide (e0 + 1 = f.emin) && unb == 2 ^ f.p)
      { bits := bits.toNat + s, fl := (if nx then flNX else 0) ||| (if nx && tiny then flUF else 0) }

/-- The encoding of any value, rounded (R89). -/
def roundV (f : Fmt) (rm : Rm) (sat : Bool) : FVal → FRes
  | .nan => .nan f
  | .inf s => .inf f s
  | .fin s m e => roundF f rm sat s m e

/-! ### Exact arithmetic on values -/

def FVal.neg : FVal → FVal
  | .nan => .nan
  | .inf s => .inf (!s)
  | .fin s m e => .fin (!s) m e

def FVal.abs : FVal → FVal
  | .nan => .nan
  | .inf _ => .inf false
  | .fin _ m e => .fin false m e

/-- The signed significand of a finite value on the grid 2^g, for g at most its exponent. -/
def onGrid (s : Bool) (m : Nat) (e g : Int) : Int := (if s then -1 else 1) * ((m * 2 ^ (e - g).toNat : Nat) : Int)

/-- The sum of two finite values; an exact zero takes the sign of R70. -/
def addFin (rm : Rm) (s1 : Bool) (m1 : Nat) (e1 : Int) (s2 : Bool) (m2 : Nat) (e2 : Int) : FVal :=
  let g := min e1 e2
  let x := onGrid s1 m1 e1 g + onGrid s2 m2 e2 g
  if x = 0 then
    if m1 = 0 ∧ m2 = 0 ∧ s1 = s2 then .fin s1 0 0 else .fin (decide (rm = .rdn)) 0 0
  else .fin (decide (x < 0)) x.natAbs g

/-- A sum of values and whether it is invalid (∞ − ∞). -/
def addV (rm : Rm) : FVal → FVal → FVal × Bool
  | .nan, _ => (.nan, false)
  | _, .nan => (.nan, false)
  | .inf s, .inf t => if s = t then (.inf s, false) else (.nan, true)
  | .inf s, .fin .. => (.inf s, false)
  | .fin .., .inf t => (.inf t, false)
  | .fin s1 m1 e1, .fin s2 m2 e2 => (addFin rm s1 m1 e1 s2 m2 e2, false)

/-- A product of values and whether it is invalid (0 × ∞). -/
def mulV : FVal → FVal → FVal × Bool
  | .nan, _ => (.nan, false)
  | _, .nan => (.nan, false)
  | .inf s, .inf t => (.inf (s != t), false)
  | .inf s, .fin t m _ => if m = 0 then (.nan, true) else (.inf (s != t), false)
  | .fin s m _, .inf t => if m = 0 then (.nan, true) else (.inf (s != t), false)
  | .fin s1 m1 e1, .fin s2 m2 e2 => (.fin (s1 != s2) (m1 * m2) (e1 + e2), false)

/-- The order of R167: less, equal, greater, or none when a NaN takes part. Zeros are equal. -/
def cmpV : FVal → FVal → Option Ordering
  | .nan, _ => none
  | _, .nan => none
  | .inf s, .inf t => some (if s = t then .eq else if s then .lt else .gt)
  | .inf s, .fin .. => some (if s then .lt else .gt)
  | .fin .., .inf t => some (if t then .gt else .lt)
  | .fin s1 m1 e1, .fin s2 m2 e2 =>
    let g := min e1 e2
    some (compare (onGrid s1 m1 e1 g) (onGrid s2 m2 e2 g))

def FVal.isNeg : FVal → Bool
  | .nan => false
  | .inf s => s
  | .fin s _ _ => s

def FVal.isZero : FVal → Bool
  | .fin _ m _ => decide (m = 0)
  | _ => false

def FVal.isInf : FVal → Bool
  | .inf _ => true
  | _ => false

/-! ### Operations with flags (R168 to R172) -/

/-- NV for a signalling NaN among encodings. -/
def snanFl (f : Fmt) (xs : List Nat) : Flags := if xs.any (isSnan f) then flNV else 0

def fAdd (f : Fmt) (rm : Rm) (a b : Nat) : FRes :=
  let (v, bad) := addV rm (fval f a) (fval f b)
  let r := roundV f rm false v
  { r with fl := r.fl ||| snanFl f [a, b] ||| (if bad then flNV else 0) }

def fMul (f : Fmt) (rm : Rm) (a b : Nat) : FRes :=
  let (v, bad) := mulV (fval f a) (fval f b)
  let r := roundV f rm false v
  { r with fl := r.fl ||| snanFl f [a, b] ||| (if bad then flNV else 0) }

/-- a × b + c with one rounding; 0 × ∞ is invalid even with a quiet NaN in c (R168). -/
def fFma (f : Fmt) (rm : Rm) (a b c : Nat) : FRes :=
  let (p, bad1) := mulV (fval f a) (fval f b)
  let (v, bad2) := addV rm p (fval f c)
  let r := roundV f rm false v
  { r with fl := r.fl ||| snanFl f [a, b, c] ||| (if bad1 || bad2 then flNV else 0) }

/-- The order of R171: that of R167 with −0 below +0. -/
def minLt (f : Fmt) (a b : Nat) : Bool :=
  match cmpV (fval f a) (fval f b) with
  | some .lt => true
  | some .eq => (fval f a).isNeg && !(fval f b).isNeg
  | _ => false

def fMin (f : Fmt) (a b : Nat) : FRes :=
  let fl := snanFl f [a, b]
  if isNan f a then (if isNan f b then .nan f fl else { bits := b % 2 ^ f.width, fl := fl })
  else if isNan f b then { bits := a % 2 ^ f.width, fl := fl }
  else { bits := (if minLt f b a then b else a) % 2 ^ f.width, fl := fl }

def fMax (f : Fmt) (a b : Nat) : FRes :=
  let fl := snanFl f [a, b]
  if isNan f a then (if isNan f b then .nan f fl else { bits := b % 2 ^ f.width, fl := fl })
  else if isNan f b then { bits := a % 2 ^ f.width, fl := fl }
  else { bits := (if minLt f a b then b else a) % 2 ^ f.width, fl := fl }

/-- The integer nearest to a finite value under a mode (R89 rnd_int). -/
def rndInt (rm : Rm) (s : Bool) (m : Nat) (e : Int) : Int :=
  let n := (rndGrid rm s m e 0).1
  if s then -(n : Int) else n

/-- to_int (R89): the pattern of the n-bit result, with flags. -/
def toInt (n : Nat) (signed : Bool) (rm : Rm) (v : FVal) : FRes :=
  let lo : Int := if signed then -(2 ^ (n - 1)) else 0
  let hi : Int := if signed then 2 ^ (n - 1) - 1 else 2 ^ n - 1
  let pat (i : Int) : Nat := (i % (2 ^ n)).toNat
  match v with
  | .nan => { bits := 0, fl := flNV }
  | .inf s => { bits := pat (if s then lo else hi), fl := flNV }
  | .fin s m e =>
    -- magnitudes past 2^80 are out of every range, and are not shifted out
    if m ≠ 0 ∧ (Nat.log2 m : Int) + e > 80 then { bits := pat (if s then lo else hi), fl := flNV }
    else
      let i := rndInt rm s m e
      if i < lo then { bits := pat lo, fl := flNV }
      else if hi < i then { bits := pat hi, fl := flNV }
      else { bits := pat i, fl := if (rndGrid rm s m e 0).2 then flNX else 0 }

/-- The value of an integer. -/
def intVal (i : Int) : FVal := .fin (decide (i < 0)) i.natAbs 0

/-! ### Roots and quotients -/

/-- The integer square root, by bits from `n` down. -/
def isqrtAux (x : Nat) : Nat → Nat → Nat
  | 0, r => r
  | n + 1, r => let t := r + 2 ^ n
                isqrtAux x n (if t * t ≤ x then t else r)

def isqrt (x : Nat) : Nat := isqrtAux x (Nat.log2 x / 2 + 1) 0

/-- A value that lies at `q` on the grid 2^e, or strictly between `q` and `q + 1` where `more`: half a grid
step stands for what lies above, which rounds the same way (R178). -/
def stickyV (s : Bool) (q : Nat) (more : Bool) (e : Int) : FVal := .fin s (2 * q + (if more then 1 else 0)) (e - 1)

/-- The quotient of finite non-zero values with 64 bits beyond any rounding position. -/
def divFin (s1 : Bool) (m1 : Nat) (e1 : Int) (s2 : Bool) (m2 : Nat) (e2 : Int) : FVal :=
  let k := 64 + Nat.log2 m2
  let n := m1 * 2 ^ k
  stickyV (s1 != s2) (n / m2) (decide (n % m2 ≠ 0)) (e1 - e2 - k)

/-- The square root of a positive finite value. -/
def sqrtFin (m : Nat) (e : Int) : FVal :=
  let (m1, e1) := if e % 2 = 0 then (m, e) else (2 * m, e - 1)
  let n := m1 * 2 ^ 128
  let q := isqrt n
  stickyV false q (decide (q * q ≠ n)) (e1 / 2 - 64)

/-- The reciprocal square root of a positive finite value. -/
def rsqrtFin (m : Nat) (e : Int) : FVal :=
  let (m1, e1) := if e % 2 = 0 then (m, e) else (2 * m, e - 1)
  let k := 64 + Nat.log2 m1
  let q := isqrt (2 ^ (2 * k) / m1)
  stickyV false q (decide (q * q * m1 ≠ 2 ^ (2 * k))) (-(e1 / 2) - k)

/-! ### Fixed-point series (R178, log entry 6): 448 fraction bits -/

def fixP : Nat := 448
/-- π and ln 2 in units of 2^-448, rounded down. -/
def piFix : Nat := 0x3243f6a8885a308d313198a2e03707344a4093822299f31d0082efa98ec4e6c89452821e638d01377be5466cf34e90c6cc0ac29b7c97c50dd
def ln2Fix : Nat := 0xb17217f7d1cf79abc9e3b39803f2f6af40f343267298b62d8a0d175b8baafa2be7b876206debac98559552fb4afa1b10ed2eae35c1382144

/-- The sum of x^k / k! from the term `t` of index `k` on. -/
def expSeries (x : Nat) : Nat → Nat → Nat → Nat
  | 0, _, _ => 0
  | n + 1, k, t => t + expSeries x n (k + 1) (t * x / 2 ^ fixP / (k + 1))

/-- e^x for a fixed-point x below 1. -/
def expFix (x : Nat) : Nat := expSeries x 100 0 (2 ^ fixP)

/-- The alternating sum of the sine and cosine series from a term on; `y` is x squared. -/
def trigSeries (y : Nat) : Nat → Nat → Int → Int
  | 0, _, _ => 0
  | n + 1, k, t => t + trigSeries y n (k + 2) (-(t * y / 2 ^ fixP / ((k + 1) * (k + 2))))

/-- sin x and cos x for a fixed-point x from 0 to π/2. -/
def sinFix (x : Nat) : Nat := (trigSeries (x * x / 2 ^ fixP) 70 1 x).toNat
def cosFix (x : Nat) : Nat := (trigSeries (x * x / 2 ^ fixP) 70 0 (2 ^ fixP)).toNat

/-- The sum of y^(2k+1) / (2k+1), half the logarithm of (1 + y) / (1 − y). -/
def atanhSeries (y2 : Nat) : Nat → Nat → Nat → Nat
  | 0, _, _ => 0
  | n + 1, k, t => t / k + atanhSeries y2 n (k + 2) (t * y2 / 2 ^ fixP)

/-- log2 of a significand x in [1, 2), in fixed point. -/
def log2Fix (x : Nat) : Nat :=
  let one := 2 ^ fixP
  let y := (x - one) * one / (x + one)
  2 * atanhSeries (y * y / one) 160 1 y * one / ln2Fix

/-- 2^a for a finite a: exact for an integer a, else with the sticky bit set. Exponents past ±2^12 are
cut off there: every format overflows or underflows long before. -/
def exp2V (s : Bool) (m : Nat) (e : Int) : FVal :=
  if m ≠ 0 ∧ (Nat.log2 m : Int) + e > 12 then .fin false 1 (if s then -4096 else 4096)
  else
    -- a on the grid 2^-448, exact because every operand lies on a coarser grid
    let i : Int := (if s then -1 else 1) * ((m * 2 ^ (e + fixP).toNat : Nat) : Int)
    let n := i / 2 ^ fixP
    let t := (i % 2 ^ fixP).toNat
    if t = 0 then .fin false 1 n
    else stickyV false (expFix (t * ln2Fix / 2 ^ fixP) / 2 ^ 200) true (n - 248)

/-- log2 of a positive finite value: exact for a power of two. -/
def log2V (m : Nat) (e : Int) : FVal :=
  let k := Nat.log2 m
  let n : Int := k + e
  if m = 2 ^ k then intVal n
  else
    let x := m * 2 ^ fixP / 2 ^ k
    let i : Int := n * 2 ^ fixP + log2Fix x
    stickyV (decide (i < 0)) (i.natAbs / 2 ^ 100) true (100 - fixP)

/-- sin(π a) or cos(π a) of a finite a, by reduction modulo 2 half-turns: exact at multiples of 1/2. -/
def trigV (cosine : Bool) (s : Bool) (m : Nat) (e : Int) : FVal :=
  let two := 2 ^ (fixP + 1)
  -- a modulo 2 on the grid 2^-448
  let r := if e + fixP ≥ 0 then m * 2 ^ (e + fixP).toNat % two else m / 2 ^ (-(e + fixP)).toNat % two
  let half := 2 ^ (fixP - 1)
  let quad := r / half
  let t := r % half
  let x := t * piFix / 2 ^ fixP
  -- quadrant and sign: sin over quadrants 0 to 3 is +sin, +cos, -sin, -cos; cos is +cos, -sin, -cos, +sin
  let useCos := if cosine then quad % 2 == 0 else quad % 2 == 1
  let neg := if cosine then quad == 1 || quad == 2 else decide (2 ≤ quad)
  if t = 0 then
    if useCos then .fin (if cosine then neg else (neg != s)) 1 0
    else .fin (if cosine then false else s) 0 0
  else stickyV (if cosine then neg else (neg != s)) ((if useCos then cosFix x else sinFix x) / 2 ^ 60) true (60 - (fixP : Int))

/-! ### Special functions (R178, R179) -/

/-- A function of one operand: the canonical NaN for a NaN, `g` for the rest. -/
def fUnary (f : Fmt) (a : Nat) (g : FVal → FRes) : FRes :=
  match fval f a with
  | .nan => .nan f (snanFl f [a])
  | v => g v

def fRcp (f : Fmt) (rm : Rm) (a : Nat) : FRes := fUnary f a fun
  | .nan => .nan f
  | .inf s => .zero f s
  | .fin s m e => if m = 0 then .inf f s flDZ else roundV f rm false (divFin s 1 0 false m e)

def fRsq (f : Fmt) (rm : Rm) (a : Nat) : FRes := fUnary f a fun
  | .nan => .nan f
  | .inf s => if s then .nan f flNV else .zero f false
  | .fin s m e =>
    if m = 0 then .inf f s flDZ else if s then .nan f flNV else roundV f rm false (rsqrtFin m e)

def fSqrt (f : Fmt) (rm : Rm) (a : Nat) : FRes := fUnary f a fun
  | .nan => .nan f
  | .inf s => if s then .nan f flNV else .inf f false
  | .fin s m e => if m = 0 then .zero f s else if s then .nan f flNV else roundV f rm false (sqrtFin m e)

def fDiv (f : Fmt) (rm : Rm) (a b : Nat) : FRes :=
  match fval f a, fval f b with
  | .nan, _ => .nan f (snanFl f [a, b])
  | _, .nan => .nan f (snanFl f [a, b])
  | .inf _, .inf _ => .nan f flNV
  | .inf s, .fin t _ _ => .inf f (s != t)
  | .fin s _ _, .inf t => .zero f (s != t)
  | .fin s m e, .fin t n k =>
    if n = 0 then (if m = 0 then .nan f flNV else .inf f (s != t) flDZ)
    else if m = 0 then .zero f (s != t)
    else roundV f rm false (divFin s m e t n k)

def fExp2 (f : Fmt) (rm : Rm) (a : Nat) : FRes := fUnary f a fun
  | .nan => .nan f
  | .inf s => if s then .zero f false else .inf f false
  | .fin s m e => roundV f rm false (exp2V s m e)

def fLog2 (f : Fmt) (rm : Rm) (a : Nat) : FRes := fUnary f a fun
  | .nan => .nan f
  | .inf s => if s then .nan f flNV else .inf f false
  | .fin s m e =>
    if m = 0 then .inf f true flDZ else if s then .nan f flNV else roundV f rm false (log2V m e)

def fSin (f : Fmt) (rm : Rm) (a : Nat) : FRes := fUnary f a fun
  | .nan => .nan f
  | .inf _ => .nan f flNV
  | .fin s m e => if m = 0 then .zero f s else roundV f rm false (trigV false s m e)

def fCos (f : Fmt) (rm : Rm) (a : Nat) : FRes := fUnary f a fun
  | .nan => .nan f
  | .inf _ => .nan f flNV
  | .fin s m e => if m = 0 then roundV f rm false (.fin false 1 0) else roundV f rm false (trigV true s m e)

/-! ### Conversions (R175, R176, R180) -/

def fRnd (f : Fmt) (rm : Rm) (a : Nat) : FRes := fUnary f a fun
  | .nan => .nan f
  | .inf s => .inf f s
  | .fin s m e => if 0 ≤ e then { bits := a % 2 ^ f.width } else roundF f rm false s (rndGrid rm s m e 0).1 0

/-- FLDEXP: exponents past ±4,096 act as there, all of them overflowing or underflowing alike. -/
def fLdexp (f : Fmt) (rm : Rm) (a : Nat) (i : Int) : FRes := fUnary f a fun
  | .nan => .nan f
  | .inf s => .inf f s
  | .fin s m e => if m = 0 then .zero f s else roundF f rm false s m (e + max (-4096) (min 4096 i))

def fCvt (src dst : Fmt) (rm : Rm) (a : Nat) : FRes :=
  match fval src a with
  | .nan => .nan dst (snanFl src [a])
  | v => roundV dst rm false v

/-- FCLASS (R174). -/
def fClass (f : Fmt) (a : Nat) : Nat :=
  match fval f a with
  | .nan => if isSnan f a then 2 ^ 8 else 2 ^ 9
  | .inf s => if s then 1 else 2 ^ 7
  | .fin s m _ =>
    if m = 0 then (if s then 2 ^ 3 else 2 ^ 4)
    else if m < 2 ^ (f.p - 1) then (if s then 2 ^ 2 else 2 ^ 5)
    else (if s then 2 else 2 ^ 6)

/-! ### Q4 (R80 to R86, R184 to R186) -/

/-- The magnitudes of codes 0 to 7 in eighths, by type (R81). -/
def q4Eighths (t c : Nat) : Nat :=
  ((if t = 1 then [0, 4, 8, 12, 16, 24, 32, 48]
    else if t = 2 then [0, 1, 2, 4, 8, 16, 32, 64]
    else [0, 8, 16, 24, 32, 48, 64, 96])[c]?).getD 0

/-- The value of a code under a type (R81), with −0 kept. -/
def q4Val (c t : Nat) : FVal :=
  if t = 0 then
    let i : Int := if c % 16 < 8 then (c % 16 : Nat) else ((c % 16 : Nat) : Int) - 16
    intVal i
  else .fin (decide (8 ≤ c % 16)) (q4Eighths t (c % 8)) (-3)

/-- Fields of operand X of a slot (R84): X is 0 for A, 1 for B, 2 for O. -/
def slotFmtOf (s : Word64) (x : Nat) : Nat := s.toNat / 2 ^ (4 + 4 * x) % 16
def slotSS (s : Word64) (x : Nat) : Nat := s.toNat / 2 ^ (16 + 2 * x) % 4
def slotQF (s : Word64) (x : Nat) : Bool := decide (s.toNat / 2 ^ (22 + 3 * x) % 2 = 1)
def slotQT (s : Word64) (x : Nat) : Nat := s.toNat / 2 ^ (23 + 3 * x) % 4
def slotTen (s : Word64) (x : Nat) : Nat :=
  s.toNat / 2 ^ (if x = 0 then 48 else if x = 1 then 56 else 40) % 256
def slotSat (s : Word64) : Bool := decide (s.toNat / 2 ^ 31 % 2 = 1)

/-- q4_type (R89). -/
def q4Type (s : Word64) (x sw : Nat) : Nat := if slotQF s x then slotQT s x else sw / 256 % 4

/-- scale_k (R86, R89): none for NaN. -/
def scaleK (s : Word64) (x sw : Nat) : Option Int :=
  let eb := sw % 256
  let te := slotTen s x
  match slotSS s x with
  | 0 => some 0
  | 1 => if eb = 255 then none else some ((eb : Int) - 127)
  | 2 => if te = 255 then none else some ((te : Int) - 127)
  | _ => if eb = 255 ∨ te = 255 then none else some ((eb : Int) - 127 + ((te : Int) - 127))

def FVal.scale (k : Int) : FVal → FVal
  | .fin s m e => .fin s m (e + k)
  | v => v

/-- q4_scaled (R89). -/
def q4Scaled (s : Word64) (x sw c : Nat) : FVal :=
  match scaleK s x sw with
  | none => .nan
  | some k => (q4Val c (q4Type s x sw)).scale k

/-- The code nearest to a finite y in units of eighths: candidates in ascending value, rounded under rm. -/
def q4Candidates (t : Nat) : List (Nat × Int) :=
  (List.range 16).filterMap fun c =>
    if t = 0 then some (c, 8 * (if c < 8 then (c : Int) else (c : Int) - 16))
    else if c = 8 then none
    else some (c, if c < 8 then (q4Eighths t c : Int) else -(q4Eighths t (c - 8) : Int))

/-- The greatest candidate at or below y, and the least at or above it; y is n × 2^e in eighths. -/
def q4Floor (t : Nat) (le : Int → Bool) : Option (Nat × Int) :=
  (q4Candidates t).foldl (fun b c => if le c.2 then (match b with
    | some d => if d.2 < c.2 then some c else b
    | none => some c) else b) none
def q4Ceil (t : Nat) (ge : Int → Bool) : Option (Nat × Int) :=
  (q4Candidates t).foldl (fun b c => if ge c.2 then (match b with
    | some d => if c.2 < d.2 then some c else b
    | none => some c) else b) none

/-- QENC of a value (R185). -/
def q4Encode (s : Word64) (sw : Nat) (rm : Rm) (v : FVal) : FRes :=
  let t := q4Type s 2 sw
  let big (neg : Bool) : Nat := if t = 0 then (if neg then 8 else 7) else if neg then 15 else 7
  match v, scaleK s 2 sw with
  | .nan, _ => { bits := 0, fl := flNV }
  | _, none => { bits := 0, fl := flNV }
  | .inf neg, _ => { bits := big neg, fl := flNV }
  | .fin neg m e, some k =>
    -- y in eighths is (m) × 2^(e - k + 3); compare integers on a common grid
    let ee := e - k + 3
    if m ≠ 0 ∧ (Nat.log2 m : Int) + ee > 12 then { bits := big neg, fl := flOF ||| flNX }
    else
      let up : Nat := 2 ^ (if ee < 0 then (-ee).toNat else 0)
      let y : Int := (if neg then -1 else 1) * ((m * 2 ^ ee.toNat : Nat) : Int)
      match q4Floor t (fun c => decide (c * up ≤ y)), q4Ceil t (fun c => decide (y ≤ c * up)) with
      | some lo, some hi =>
        let code :=
          if lo.2 = hi.2 then lo.1
          else
            let dl := y - lo.2 * up
            let dh := hi.2 * up - y
            match rm with
            | .rdn => lo.1
            | .rup => hi.1
            | .rtz => if neg then hi.1 else lo.1
            | .rne => if dl < dh then lo.1 else if dh < dl then hi.1 else if lo.1 % 2 = 0 then lo.1 else hi.1
        { bits := if t ≠ 0 ∧ code = 0 ∧ neg then 8 else code, fl := if lo.2 = hi.2 then 0 else flNX }
      | _, _ => { bits := big neg, fl := flOF ||| flNX }

/-- The least k with m × 2^e at most g × 2^k (R186). -/
def leastScale (g m : Nat) (e : Int) : Int :=
  let k0 : Int := (Nat.log2 m : Int) + e - 4
  let fits (k : Int) : Bool :=
    if k ≤ e then decide (m * 2 ^ (e - k).toNat ≤ g) else decide (m ≤ g * 2 ^ (k - e).toNat)
  ((List.range 10).find? fun i => fits (k0 + i)).elim k0 fun i => k0 + i

/-- QSCL (R186). -/
def q4MakeScale (s : Word64) (b : Nat) (v : FVal) : FRes :=
  let t := if slotQF s 2 then slotQT s 2 else b % 4
  let g := if t = 0 then 7 else if t = 1 then 6 else if t = 2 then 8 else 12
  let put (e : Nat) (fl : Flags) : FRes := { bits := t * 256 + e, fl := fl }
  match v with
  | .nan => put 255 flNV
  | .inf _ => put 255 flNV
  | .fin _ m e =>
    let kt : Int := if slotSS s 2 = 3 then (slotTen s 2 : Int) - 127 else 0
    let k : Int := if m = 0 then 0 else leastScale g m e
    let x := k - kt + 127
    if x > 254 then put 254 flOF else if x < 0 then put 0 0 else put x.toNat 0

end Sys2Proof.Machine
end

