-- ==== Sys2Proof/Machine/Ops.lean ====
section
/-! DEFINITION. The named operations over registers, lanes and the warp's progress, fault records
(R459 to R461), the end of a context (R464, R496), taking a warp trap (R462 to R465) and the return
from its handler (R490). -/

namespace Sys2Proof.Machine

/-- What a meaning answers. -/
abbrev Result := Host.Outcome State Fault Refusal

/-! ### Sets of lanes -/

/-- The number whose bit l, for l below n, is `p l`. -/
def laneSetN (p : Nat → Bool) : Nat → Nat
  | 0 => 0
  | n + 1 => laneSetN p n + (if p n then 2 ^ n else 0)

/-- The set of lanes for which `p` holds. -/
def laneSet (p : Nat → Bool) : LaneMask := BitVec.ofNat 32 (laneSetN p 32)

/-- Membership of a lane. -/
abbrev inSet (m : LaneMask) (l : Nat) : Bool := m.getLsbD l

/-- The lanes of a set in ascending order. -/
def lanesOf (m : LaneMask) : List Nat := (List.range 32).filter fun l => inSet m l

/-- The lowest lane of a set. -/
def lowestLane (m : LaneMask) : Option Nat := (List.range 32).find? fun l => inSet m l

/-! ### The executing set (R49, R91) -/

/-- m0: the head run as it stands (R91). -/
def State.m0 (s : State) : LaneMask :=
  match s.w.run with
  | some r => r.mask
  | none => 0

/-- A lane condition on the four codes (R49). -/
def condHolds (k : Cond) (c z n v : Bool) : Bool :=
  match k with
  | .always => true
  | .eq => z | .ne => !z | .hs => c | .lo => !c | .mi => n | .pl => !n | .vs => v | .vc => !v
  | .hi => c && !z | .ls => !c || z | .ge => n == v | .lt => n != v | .gt => !z && n == v | .le => z || n != v

/-- The executing set of a word: the lanes of m0 whose condition holds. -/
def State.execSet (s : State) (k : Cond) : LaneMask :=
  laneSet fun l => inSet s.m0 l
    && condHolds k (inSet s.w.ccC l) (inSet s.w.ccZ l) (inSet s.w.ccN l) (inSet s.w.ccV l)

/-! ### Registers -/

def vKey (r l : Nat) : Nat := 32 * r + l

/-- Lane register r of lane l. -/
def State.v (s : State) (r l : Nat) : Word := s.w.v.get 0 (vKey r l)
/-- Uniform register r. -/
def State.u (s : State) (r : Nat) : Word := s.w.u.get 0 r
/-- Lane mask k: m0 reads the head run (R187). -/
def State.m (s : State) (k : Nat) : LaneMask := if k = 0 then s.m0 else s.w.m.get 0 k

/-- Lane register r of the lanes of a set written, from lane n − 1 down to 0. -/
def setLanesN (v : Sparse Word) (r : Nat) (e : LaneMask) (x : Nat → Word) : Nat → Sparse Word
  | 0 => v
  | n + 1 => setLanesN (if inSet e n then v.set 0 (vKey r n) (x n) else v) r e x n

/-- Lane register r written in each lane of a set. -/
def State.setV (s : State) (r : Nat) (e : LaneMask) (x : Nat → Word) : State :=
  { s with w := { s.w with v := setLanesN s.w.v r e x 32 } }

/-- A lane pair written: the low word in register r (R67). -/
def State.setV2 (s : State) (r : Nat) (e : LaneMask) (x : Nat → Word64) : State :=
  (s.setV r e fun l => (x l).setWidth 32).setV (r + 1) e fun l => (x l).extractLsb' 32 32

/-- A lane quad written. -/
def State.setV4 (s : State) (r : Nat) (e : LaneMask) (x : Nat → Word128) : State :=
  (((s.setV r e fun l => (x l).setWidth 32).setV (r + 1) e fun l => (x l).extractLsb' 32 32).setV (r + 2) e
    fun l => (x l).extractLsb' 64 32).setV (r + 3) e fun l => (x l).extractLsb' 96 32

/-- A uniform register written. -/
def State.setU (s : State) (r : Nat) (x : Word) : State := { s with w := { s.w with u := s.w.u.set 0 r x } }
def State.setU2 (s : State) (r : Nat) (x : Word64) : State :=
  (s.setU r (x.setWidth 32)).setU (r + 1) (x.extractLsb' 32 32)
def State.setU4 (s : State) (r : Nat) (x : Word128) : State :=
  (((s.setU r (x.setWidth 32)).setU (r + 1) (x.extractLsb' 32 32)).setU (r + 2) (x.extractLsb' 64 32)).setU (r + 3)
    (x.extractLsb' 96 32)

/-- A lane mask m1 to m7 written. -/
def State.setM (s : State) (k : Nat) (x : LaneMask) : State := { s with w := { s.w with m := s.w.m.set 0 k x } }

/-- Condition codes C, Z, N, V of the lanes of a set written (R133). -/
def State.setCC (s : State) (e : LaneMask) (c z n v : Nat → Bool) : State :=
  let upd (old : LaneMask) (p : Nat → Bool) : LaneMask := laneSet fun l => if inSet e l then p l else inSet old l
  { s with w := { s.w with ccC := upd s.w.ccC c, ccZ := upd s.w.ccZ z, ccN := upd s.w.ccN n, ccV := upd s.w.ccV v } }

/-! ### Lanes -/

def State.lane (s : State) (l : Nat) : LaneEnt := (s.w.lanes[l]?).getD { st := .exited }

/-- Every lane's entry changed by a function of its number. -/
def State.mapLanes (s : State) (g : Nat → LaneEnt → LaneEnt) : State :=
  { s with w := { s.w with lanes := s.w.lanes.mapIdx g } }

/-- The lanes in a state. -/
def Warp.lanesIn (w : Warp) (st : LaneState) : LaneMask :=
  laneSet fun l => match w.lanes[l]? with
    | some e => decide (e.st = st)
    | none => decide (st = .exited)

/-- Lanes that have not exited. -/
def Warp.liveLanes (w : Warp) : LaneMask := ~~~(w.lanesIn .exited)

/-! ### Progress through a clause (R38, R41, R92) -/

/-- The address after a word: the 4 bytes at offset 28 of a block are skipped (R38). -/
def nextWord (pc : Word64) (len : Nat) : Word64 :=
  let p := pc + BitVec.ofNat 64 len
  if p.toNat % 32 = 28 then p + 4 else p

/-- The length in bytes of a format A word. -/
def fmtLen (f : FmtA) : Nat :=
  match f.lit with
  | some _ => 12
  | none => 8

/-- The run ends: each of its lanes that is ready takes the PC that `pcOf` gives, standing inside a clause
where `mid` says so. The lanes that have executed YIELD in the clause are passed over for the next choice (R125), and
single-step halts the warp after each clause (R478). -/
def State.endRun (s : State) (pcOf : Nat → Word64) (mid : Option Mid := none) : State :=
  match s.w.run with
  | none => s
  | some r =>
    { s with w := { s.w with
        lanes := s.w.lanes.mapIdx fun l e =>
          if inSet r.mask l && decide (e.st = .ready) then { e with pc := pcOf l, mid := mid, via := none } else e
        run := none
        sched := { s.w.sched with passed := s.w.sched.yielded, yielded := 0 }
        halted := s.w.halted || s.w.single } }

/-- The run goes on to the next word, or ends after its last (R92). -/
def State.advance (s : State) (len : Nat) : State :=
  match s.w.run with
  | none => s
  | some r =>
    if r.left ≤ 1 then s.endRun fun _ => nextWord r.pc len
    else { s with w := { s.w with run := some { r with pc := nextWord r.pc len, left := r.left - 1 } } }

/-- The address of the word in issue; 0 where no run is in progress. -/
def State.pc (s : State) : Word64 :=
  match s.w.run with
  | some r => r.pc
  | none => 0

def State.hdr (s : State) : Word64 :=
  match s.w.run with
  | some r => r.hdr
  | none => 0

/-- Where the word in issue stands in its clause, and the word after it. -/
def State.midHere (s : State) : Option Mid := s.w.run.map fun r => { hdr := r.hdr, left := r.left }
def State.midNext (s : State) : Option Mid :=
  match s.w.run with
  | some r => if r.left ≤ 1 then none else some { hdr := r.hdr, left := r.left - 1 }
  | none => none

/-- A format A word is done: its result holds and the run goes on. -/
def State.retire (s : State) (f : FmtA) : Result := .next (s.advance (fmtLen f))

/-- A 128-bit word is done issuing. -/
def State.retireLong (s : State) : Result := .next (s.advance 16)

/-! ### Other warps and workgroups -/

/-- The workgroup by identity. -/
def State.wgOf (s : State) (id : Nat) : Option Wg := if s.g.id = id then some s.g else s.gs.find? (·.id == id)

/-- The workgroup by identity, brought into focus where none of its warps need be. -/
def State.updWg (s : State) (id : Nat) (f : Wg → Wg) : State :=
  if s.g.id = id then { s with g := f s.g }
  else { s with gs := s.gs.map fun g => if g.id = id then f g else g }

/-- A warp by identity changed. -/
def State.updWarp (s : State) (id : Nat) (f : Warp → Warp) : State :=
  if s.w.id = id then { s with w := f s.w }
  else { s with ws := s.ws.map fun w => if w.id = id then f w else w }

def State.warpOf (s : State) (id : Nat) : Option Warp := if s.w.id = id then some s.w else s.ws.find? (·.id == id)

/-- Every warp of the machine. -/
def State.warps (s : State) : List Warp := s.w :: s.ws

/-! ### Completion flags and outstanding operations (R34, R43) -/

/-- The flag that a long-latency word sets: FSEL picks the field of the clause header (R44). -/
def State.flagFor (s : State) (f : FmtA) : Option Nat :=
  match s.w.run with
  | some r => if f.fsel then r.flag1 else r.flag0
  | none => none

def Warp.flagSet (w : Warp) (k : Nat) : Bool := w.outs.any fun o => o.flag == some k

/-- The word that an operation's class counts. -/
def Out.key (o : Out) : Nat := if o.word = 0 then o.id else o.word

/-- The count of a class (R34): a word whose lanes have parked in parts counts once (R212, R273). -/
def Warp.ocnt (w : Warp) (c : Cls) : Nat := ((w.outs.filter fun o => o.cls == some c).map Out.key).eraseDups.length

/-- Completions are reported in issue order within a class; an operation that is done and may be reported
leaves the list (R34). `held` collects the classes that have an older operation not done. -/
def reap : List Cls → List Out → List Out
  | _, [] => []
  | held, o :: os =>
    match o.cls with
    | none => if o.done then reap held os else o :: reap held os
    | some c =>
      if o.done && !(held.contains c) then reap held os
      else o :: reap (if o.done then held else c :: held) os

/-- The operations that have left the list, with global writes that no WAITC has counted yet (R257). -/
def reaped (before after : List Out) : List (Nat × Nat) :=
  before.filterMap fun o =>
    match o.cls with
    | some c => if o.glob && !(after.any fun p => p.id == o.id) then some (c.code, o.num) else none
    | none => none

/-- An operation is complete. -/
def Warp.finish (w : Warp) (id : Nat) : Warp :=
  let outs := reap [] (w.outs.map fun o =>
    if o.id = id then { o with done := true, vdst := [], wdst := [] } else o)
  { w with outs := outs, gdone := w.gdone ++ reaped w.outs outs }

/-- The destinations of an operation are written and its flag clears, while its class still counts it. -/
def Warp.finishFlag (w : Warp) (id : Nat) : Warp :=
  { w with outs := w.outs.map fun o => if o.id = id then { o with flag := none, vdst := [], wdst := [] } else o }

/-! ### Performance counters (R494) -/

/-- Counts an event in a workgroup's counters that select it. -/
def Wg.count (g : Wg) (ev n : Nat) : Wg :=
  { g with pmc := (List.range 8).foldl (fun t k =>
      if (g.pmcEv.get 0 k).toNat = ev then t.set 0 k (t.get 0 k + BitVec.ofNat 64 n) else t) g.pmc }

def State.count (s : State) (ev : Nat) (n : Nat := 1) : State := { s with g := s.g.count ev n }

/-! ### Fault records (R459 to R461) -/

/-- The fields of a record but for SEQ and PH (R459). -/
structure RecordInfo where
  va    : Nat := 0
  epc   : Nat := 0
  lmask : LaneMask := 0
  pcm   : LaneMask := 0
  chunk : Nat := 0
  lnum  : Nat := 0
  wg    : Nat := 0
  logi  : Nat := 0xFFFF
  slot  : Nat := 0
  core  : Nat := 0
  die   : Nat := 0
  acc   : Nat := 0
  st    : Nat := 0
  kind  : Nat
  detail : Nat := 0
  deriving DecidableEq, Repr

/-- A record with everything but PH (R459). -/
def RecordInfo.bits (r : RecordInfo) (time ctx seq : Nat) : BitVec 512 :=
  BitVec.ofNat 512 (
    time % 2 ^ 64 * 2 ^ 448 + r.va % 2 ^ 64 * 2 ^ 384 + r.epc % 2 ^ 64 * 2 ^ 320 + r.lmask.toNat * 2 ^ 288
    + r.pcm.toNat * 2 ^ 256 + r.chunk % 2 ^ 24 * 2 ^ 232 + r.lnum % 2 ^ 32 * 2 ^ 192 + r.wg % 2 ^ 32 * 2 ^ 160
    + r.logi % 2 ^ 16 * 2 ^ 144 + r.slot % 2 ^ 8 * 2 ^ 136 + r.core % 2 ^ 8 * 2 ^ 128 + r.die % 2 ^ 8 * 2 ^ 120
    + r.acc % 2 ^ 8 * 2 ^ 112 + r.st % 2 ^ 8 * 2 ^ 104 + r.kind % 2 ^ 8 * 2 ^ 96 + r.detail % 2 ^ 32 * 2 ^ 64
    + ctx % 2 ^ 32 * 2 ^ 32 + seq % 2 ^ 16 * 2 ^ 16)

/-- The queue is full when the tail slot is the slot just before the head index (R461). -/
def State.queueFull (s : State) (k : Ctx) : Bool :=
  (k.fqTail + 1) % 2 ^ k.fqLog == leNat (s.hdmRead k.headAt 4) % 2 ^ k.fqLog

/-- A record written at the tail, with the phase of the pass (R459, R461). -/
def State.writeRecord (s : State) (k : Ctx) (b : BitVec 512) : State :=
  let s1 := s.hdmWrite (k.fqBase + 64 * k.fqTail) (leBytes 64 (b.toNat + (if k.fqPh then 1 else 0)))
  let t := (k.fqTail + 1) % 2 ^ k.fqLog
  s1.updCtx fun k => { k with fqTail := t, fqPh := if t = 0 then !k.fqPh else k.fqPh }

/-- The records that wait are written as far as the queue has room. -/
def State.drainRecords (s : State) : Nat → State
  | 0 => s
  | n + 1 =>
    match s.ctx with
    | none => s
    | some k =>
      match k.fqHeld with
      | [] => s
      | b :: bs =>
        if s.queueFull k then s
        else ((s.writeRecord k b).updCtx fun k => { k with fqHeld := bs }).drainRecords n

/-- A new record: written at the tail, or held while the queue is full, so none is lost (R461). Its SEQ. -/
def State.record (s : State) (r : RecordInfo) : State :=
  match s.ctx with
  | none => s
  | some k =>
    let b := r.bits s.time k.num k.fqSeq
    let s1 := s.updCtx fun k => { k with fqSeq := k.fqSeq + 1, fqHeld := k.fqHeld ++ [b] }
    s1.drainRecords (k.fqHeld.length + 1)

/-- What a record says of the warp in focus. -/
def State.recordHere (s : State) (r : RecordInfo) : RecordInfo :=
  { r with lnum := s.g.launch, wg := s.g.index, slot := s.w.slot, core := s.g.core, die := s.g.die }

/-! ### The end of a context -/

/-- Every warp stops without issuing again, engine operations are discarded, and dirty lines of the
context are written back as they stand (R496). -/
def State.stopContext (s : State) : State :=
  let cores := s.c :: s.cs
  let s1 := cores.foldl (fun s c => s.flushL1 c.die c.num) s
  let s2 := (List.range 4).foldl (fun s v => if v < s.ndie then s.flushGuest v else s) s1
  let idle (c : Core) : Core := { c with log := [], copyq := [], mtxq := [], rayq := [], rsvq := [], fused := none }
  { s2 with
    w := Warp.idle, ws := [], g := { id := 0 }, gs := [], c := idle s2.c, cs := s2.cs.map idle,
    dies := s2.dies.map fun d => { d with loessQ := [], loess := none, radq := [] },
    ctx := s2.ctx.map fun k =>
      { k with ended := true, launches := [], graphs := [], submits := [], gbars := [], mailbox := [],
               unsettled := [], preempt := false, acks := [] } }

/-- A context ends with a record (R464, R465, R467, R486, R496). -/
def State.endContext (s : State) (r : RecordInfo) : State := (s.record r).stopContext

/-! ### Warp traps (R462 to R465) -/

/-- The word of th.info: ARG in [31:16], HY and HX, FLG in [12:8], REASON in [7:0] (R463). -/
def infoWord (arg reason : Nat) (flg : Flags := 0) (hx hy : Bool := false) : Word :=
  BitVec.ofNat 32 (arg % 2 ^ 16 * 2 ^ 16 + (if hy then 2 ^ 15 else 0) + (if hx then 2 ^ 14 else 0)
    + flg.toNat * 2 ^ 8 + reason % 2 ^ 8)

/-- Entry into the handler (R464): the lane PC table with the run's lanes at their resume point, the
barriers and the synchronisation state go to the trap shadow; the handler registers are written; all 32
lanes become ready at THV, the barriers are cleared and HOLD becomes 0. With no handler installed the
context ends with a record of kind 0x14, and a trap inside the handler ends it with kind 0x15 (R465). -/
def State.warpTrap (s : State) (cause : Nat) (info : Word) (fmask amask : LaneMask) (epc : Word64)
    (resume : Option (Word64 × Option Mid)) : State :=
  match s.ctx with
  | none => s
  | some k =>
    let here := s.recordHere { kind := 0x14, detail := cause, epc := epc.toNat }
    if s.w.inHandler then s.endContext { here with kind := 0x15 }
    else if k.thv = 0 then s.endContext here
    else
      let s1 := match resume with
        | some p => s.endRun (fun _ => p.1) p.2
        | none => s
      { s1 with w := { s1.w with
          shadow := some { lanes := s1.w.lanes, rcb := s1.w.rcb, sync := s1.w.sync,
                           passed := s.w.sched.passed, yielded := s.w.sched.yielded }
          sched := { s1.w.sched with passed := 0, yielded := 0 }
          th := { amask := amask, fmask := fmask, cause := BitVec.ofNat 8 cause, epc := epc.setWidth 56, info := info }
          lanes := lanesAt .ready k.thv, rcb := [], sync := {}, run := none, inHandler := true, sleep := none } }

/-- A trap whose resume point is the trapping word, and which has no effect of its own (R462). -/
def State.trapHere (s : State) (cause reason : Nat) (fmask : LaneMask) (arg : Nat := 0) : State :=
  s.warpTrap cause (infoWord arg reason) fmask s.m0 s.pc (some (s.pc, s.midHere))

/-- A trap whose resume point is the word after (R462): the word has had its effect. -/
def State.trapAfter (s : State) (cause : Nat) (info : Word) (fmask : LaneMask) (len : Nat) : State :=
  s.warpTrap cause info fmask s.m0 s.pc (some (nextWord s.pc len, s.midNext))

/-- The return from a handler (R490): the trap shadow takes the place of the live lane PC table, barriers
and synchronisation state. `target`, with RETH.t, moves the lanes of th.amask whose shadow state is ready. -/
def State.leaveHandler (s : State) (target : Option Word64) : State :=
  match s.w.shadow with
  | none => s
  | some h =>
    let lanes := match target with
      | none => h.lanes
      | some t => h.lanes.mapIdx fun l e =>
          if inSet s.w.th.amask l && decide (e.st = .ready) then { e with pc := t, mid := none, via := some s.pc } else e
    { s with w := { s.w with lanes := lanes, rcb := h.rcb, sync := h.sync, run := none, shadow := none,
                             sched := { s.w.sched with passed := h.passed, yielded := h.yielded }
                             inHandler := false } }

/-! ### The launch record (R420, R421) -/

/-- A field of a launch record. -/
def lrField (r : BitVec 2048) (lo n : Nat) : Nat := (r.extractLsb' lo n).toNat
def lrEntry (r : BitVec 2048) : Word64 := r.extractLsb' 0 64
def lrNwg (r : BitVec 2048) : Nat := lrField r 104 24
def lrNwarp (r : BitVec 2048) : Nat := lrField r 94 6
def lrWin (r : BitVec 2048) : Nat := lrField r 88 6
def lrUregs (r : BitVec 2048) : Nat := lrField r 81 7
def lrCarv (r : BitVec 2048) : Nat := lrField r 76 5
def lrFuse (r : BitVec 2048) : Bool := r.getLsbD 75
def lrSolo (r : BitVec 2048) : Bool := r.getLsbD 74
def lrMtx (r : BitVec 2048) : Bool := r.getLsbD 73
def lrGang (r : BitVec 2048) : Bool := r.getLsbD 72
def lrAff (r : BitVec 2048) : Nat := lrField r 128 4
def lrCscope (r : BitVec 2048) : Nat := lrField r 132 3
def lrPrio (r : BitVec 2048) : Nat := lrField r 136 4
def lrCeil (r : BitVec 2048) : Nat := lrField r 140 4
def lrTen (r : BitVec 2048) : Nat := lrField r 144 5
def lrScr (r : BitVec 2048) : Nat := lrField r 149 11
def lrDimy (r : BitVec 2048) : Nat := lrField r 160 16
def lrDimx (r : BitVec 2048) : Nat := lrField r 176 16

/-- The affinity mask names exactly one virtual die (R241). -/
def lrSingle (r : BitVec 2048) : Bool := (List.range 4).countP (fun d => (lrAff r).testBit d) == 1

/-! ### Reconvergence barriers (R95, R96) -/

/-- The release check of R96 on one barrier: every lane of EXP is in ARR or has exited. -/
def Warp.releaseRcb (w : Warp) (b : Nat) : Warp :=
  let r := w.rcb.get {} b
  if (r.exp &&& ~~~r.arr &&& w.liveLanes) = 0 ∧ (r.exp ≠ 0 ∨ r.arr ≠ 0) then
    { w with
      rcb := w.rcb.set {} b {}
      lanes := w.lanes.mapIdx fun l e =>
        if inSet r.arr l && decide (e.st = .waiting) then { e with st := .ready, bidx := 0 } else e }
  else w

/-- The release check on all eight barriers. -/
def Warp.releaseAll (w : Warp) : Warp := (List.range 8).foldl Warp.releaseRcb w

/-- The target of a direct transfer (R113): hdr + 8 × T. -/
def immTarget (f : FmtA) : Word64 :=
  match f.sa with
  | .imm b => b.signExtend 64
  | _ => (f.lit.getD 0).signExtend 64

def State.target (s : State) (f : FmtA) : Word64 := s.hdr + (immTarget f <<< 3)

end Sys2Proof.Machine
end

