-- ==== Sys2Proof/Machine/Operands.lean ====
section
/-! DEFINITION. What an operand reads (R48, R54, R137, R165), in every form. -/

namespace Sys2Proof.Machine

/-- The literal of a 96-bit word. -/
def litOf (f : FmtA) : Word := f.lit.getD 0

/-- Two, and four, registers as one value, the lowest register first (R67). -/
def join2 (a b : Word) : Word64 := b ++ a
def join4 (a b c d : Word) : Word128 := d ++ c ++ b ++ a

/-- A 32-bit operand of lane l (R48, R137). -/
def State.src32 (s : State) (f : FmtA) (o : Src) (l : Nat) : Word :=
  match o with
  | .lane n => s.v n.toNat l
  | .uni n => s.u n.toNat
  | .imm b => b.signExtend 32
  | .mask k => s.m k.toNat
  | .litS => litOf f
  | .litZ => litOf f
  | .zero => 0
  | .laneIdx => BitVec.ofNat 32 l

/-- A 64-bit operand of lane l. -/
def State.src64 (s : State) (f : FmtA) (o : Src) (l : Nat) : Word64 :=
  match o with
  | .lane n => join2 (s.v n.toNat l) (s.v (n.toNat + 1) l)
  | .uni n => join2 (s.u n.toNat) (s.u (n.toNat + 1))
  | .imm b => b.signExtend 64
  | .litS => (litOf f).signExtend 64
  | .litZ => (litOf f).setWidth 64
  | .zero => 0
  | .mask k => (s.m k.toNat).setWidth 64
  | .laneIdx => BitVec.ofNat 64 l

/-- A 128-bit operand of lane l: a quad, or constant zero. -/
def State.src128 (s : State) (f : FmtA) (o : Src) (l : Nat) : Word128 :=
  match o with
  | .lane n => join4 (s.v n.toNat l) (s.v (n.toNat + 1) l) (s.v (n.toNat + 2) l) (s.v (n.toNat + 3) l)
  | .uni n => join4 (s.u n.toNat) (s.u (n.toNat + 1)) (s.u (n.toNat + 2)) (s.u (n.toNat + 3))
  | o => (s.src64 f o l).signExtend 128

/-- A uniform operand: no lane register is accepted, so the lane does not matter. -/
def State.usrc32 (s : State) (f : FmtA) (o : Src) : Word := s.src32 f o 0
def State.usrc64 (s : State) (f : FmtA) (o : Src) : Word64 := s.src64 f o 0

/-- A float operand of a format: an immediate is converted exactly (R48, R165). -/
def State.srcF (s : State) (f : FmtA) (fm : Fmt) (o : Src) (l : Nat) : Nat :=
  match o with
  | .imm b => (roundV fm .rne false (intVal b.toInt)).bits
  | o => (s.src32 f o l).toNat % 2 ^ fm.width

/-- A packed pair of 16-bit floats: an immediate is converted and placed in both elements (R165). -/
def State.srcH (s : State) (f : FmtA) (fm : Fmt) (o : Src) (l : Nat) : Nat :=
  match o with
  | .imm b => (roundV fm .rne false (intVal b.toInt)).bits * (2 ^ 16 + 1)
  | o => (s.src32 f o l).toNat

/-- NEG on a float operand: the sign bit inverted, of NaNs and zeros as well (R69). -/
def negBits (fm : Fmt) (neg : Bool) (x : Nat) : Nat := if neg then x ^^^ fm.signBit else x

/-- NEG on a packed pair: the sign bit of each element. -/
def negPair (neg : Bool) (x : Nat) : Nat := if neg then x ^^^ 0x80008000 else x

/-- The base of a memory access for lane l (R54): a pair in the global space, 32 bits in the others. -/
def State.base (s : State) (f : FmtA) (space : BitVec 3) (l : Nat) : Nat :=
  if space = 0 then (s.src64 f f.sa l).toNat else (s.src32 f f.sa l).toNat

/-- The width of addresses in a space (R54, R198). -/
def addrBits (space : BitVec 3) : Nat := if space = 0 then 64 else 32

/-- A base with the signed OFFSET and a further displacement, in the space's width (R54, R227). -/
def effAddr (space : BitVec 3) (base : Nat) (offset : BitVec 24) (disp : Int := 0) : Nat :=
  wrapN (addrBits space) ((base : Int) + offset.toInt + disp)

end Sys2Proof.Machine
end

