-- ==== Sys2Proof/Machine/Flags.lean ====
section
/-! DEFINITION. Condition codes of integer and float results (R133, R138, R167), sticky flags and the
floating-point trap (R74 to R76). -/

namespace Sys2Proof.Machine

/-- The four condition codes of a lane (R132). -/
structure Codes where
  c : Bool
  z : Bool
  n : Bool
  v : Bool
  deriving DecidableEq, Repr

/-- N and Z of an n-bit pattern, with C and V as given (R133). -/
def codesOf (n x : Nat) (c v : Bool) : Codes :=
  { c := c, z := decide (x % 2 ^ n = 0), n := decide (2 ^ (n - 1) ≤ x % 2 ^ n), v := v }

/-- The reading of an n-bit pattern: unsigned where `u`, else signed. -/
def readInt (u : Bool) (n x : Nat) : Int := if u then (x % 2 ^ n : Nat) else sextN n x

/-- Outside the range of the n-bit type (R133). -/
def outOfRange (u : Bool) (n : Nat) (x : Int) : Bool :=
  if u then decide (x < 0) || decide (2 ^ n ≤ x) else decide (x < -(2 ^ (n - 1))) || decide (2 ^ (n - 1) ≤ x)

/-- sat_s and sat_n (R89), as an n-bit pattern. -/
def satN (u : Bool) (n : Nat) (x : Int) : Nat :=
  if u then wrapN n (max 0 (min (2 ^ n - 1) x)) else wrapN n (max (-(2 ^ (n - 1))) (min (2 ^ (n - 1) - 1) x))

/-- The pattern written for an exact value: wrapped, or clamped with .sat (R78). -/
def storeInt (u sat : Bool) (n : Nat) (x : Int) : Nat := if sat then satN u n x else wrapN n x

/-- The codes of ISUB on n-bit operands (R140, R148). -/
def codesSub (u : Bool) (n a b : Nat) : Codes :=
  let x := readInt u n a - readInt u n b
  codesOf n (wrapN n x) (decide (b % 2 ^ n ≤ a % 2 ^ n)) (outOfRange u n x)

/-- The codes of IADD on n-bit operands (R140). -/
def codesAdd (u : Bool) (n a b : Nat) : Codes :=
  let x := readInt u n a + readInt u n b
  codesOf n (wrapN n x) (decide (2 ^ n ≤ a % 2 ^ n + b % 2 ^ n)) (outOfRange u n x)

/-- The codes of a comparison of values (R167). -/
def codesCmp : Option Ordering → Codes
  | some .lt => { n := true, z := false, c := false, v := false }
  | some .eq => { n := false, z := true, c := true, v := false }
  | some .gt => { n := false, z := false, c := true, v := false }
  | none => { n := false, z := false, c := true, v := true }

/-- The codes of a float result against +0 (R167). -/
def codesFloat (fm : Fmt) (x : Nat) : Codes := codesCmp (cmpV (fval fm x) (.fin false 0 0))

/-- A compare code on codes (R139). -/
def cmpHolds (x : Nat) (k : Codes) : Bool := condHolds (.ofCode (BitVec.ofNat 4 x)) k.c k.z k.n k.v

/-- The codes of a lane as they stand. -/
def State.codes (s : State) (l : Nat) : Codes :=
  { c := inSet s.w.ccC l, z := inSet s.w.ccZ l, n := inSet s.w.ccN l, v := inSet s.w.ccV l }

/-- The codes written where WCC is set (R133). -/
def State.writeCodes (s : State) (wcc : Bool) (e : LaneMask) (k : Nat → Codes) : State :=
  if wcc then s.setCC e (fun l => (k l).c) (fun l => (k l).z) (fun l => (k l).n) (fun l => (k l).v) else s

/-- The trap-enable mask of the launch (R76, R421). -/
def State.ten (s : State) : Flags := s.g.lrec.extractLsb' (128 + 16) 5

/-- The union of the flags that the lanes of a set raise. -/
def unionFlags (e : LaneMask) (fl : Nat → Flags) : Flags := (lanesOf e).foldl (fun a l => a ||| fl l) 0

/-- The time by which a latency in arithmetic clocks has passed at the die's step (R13, R162). -/
def State.lateAt (s : State) (lat : Nat) : Nat :=
  let k := 3 + (s.die s.g.die).step
  s.time + (4 * lat + k - 1) / k

/-- The entries whose latency has not ended, and their flags. -/
def State.lateNow (s : State) : List LateFlags := s.w.late.filter fun p => decide (s.time < p.due)
def State.lateFlags (s : State) : Flags := s.lateNow.foldl (fun a p => a ||| p.fl) 0

/-- The end of a floating-point word (R75, R76): its results are written; its flags are ORed into the warp's, as R162 has it
when the latency `lat` ends, for which a launch that may trap waits (R163; log entry 3); where an enabled flag is raised the
warp trap follows. A warp that runs ahead sets no flag and takes no trap (R77). `half` marks the halves of a PAIR that raised
an enabled flag. -/
def State.retireFloat (s : State) (e : LaneMask) (fl : Nat → Flags) (len : Nat) (lat : Nat := 4)
    (half : Flags → Bool × Bool := fun _ => (false, false)) : Result :=
  if s.w.ra.isSome then .next (s.advance len)
  else
    let all := unionFlags e fl
    let en := s.ten
    let s1 : State := { s with w := { s.w with
      sticky := s.w.sticky ||| all
      late := if all = 0 ∨ en ≠ 0 then s.lateNow else s.lateNow ++ [{ due := s.lateAt lat, fl := all }] } }
    if all &&& en = 0 then .next (s1.advance len)
    else
      let h := half en
      .next (s1.trapAfter 4 (infoWord 0 0 (all &&& en) h.1 h.2) (e &&& laneSet fun l => decide (fl l &&& en ≠ 0)) len)

end Sys2Proof.Machine
end

