-- ==== Sys2Proof/Machine/Integer.lean ====
section
/-! DEFINITION. The integer and address class (R132 to R159). -/

namespace Sys2Proof.Machine

/-- An integer word into a lane register: the value and the codes of each executing lane (R133, R134). -/
def State.alu (s : State) (f : FmtA) (res : Nat → Nat) (codes : Nat → Codes) : Result :=
  let e := s.execSet f.cond
  ((s.setV f.dst.toNat e fun l => BitVec.ofNat 32 (res l)).writeCodes f.wcc e codes).retire f

/-- An integer word into a lane pair. -/
def State.alu64 (s : State) (f : FmtA) (res : Nat → Nat) (codes : Nat → Codes) : Result :=
  let e := s.execSet f.cond
  ((s.setV2 f.dst.toNat e fun l => BitVec.ofNat 64 (res l)).writeCodes f.wcc e codes).retire f

/-- The operands of a lane as numbers. -/
def State.a32 (s : State) (f : FmtA) (l : Nat) : Nat := (s.src32 f f.sa l).toNat
def State.b32 (s : State) (f : FmtA) (l : Nat) : Nat := (s.src32 f f.sb l).toNat
def State.c32 (s : State) (f : FmtA) (l : Nat) : Nat := (s.src32 f f.sc l).toNat
def State.a64 (s : State) (f : FmtA) (l : Nat) : Nat := (s.src64 f f.sa l).toNat
def State.b64 (s : State) (f : FmtA) (l : Nat) : Nat := (s.src64 f f.sb l).toNat
def State.c64 (s : State) (f : FmtA) (l : Nat) : Nat := (s.src64 f f.sc l).toNat

/-- MOD fields of the class (R136): SAT, U and X. -/
def satOf (f : FmtA) : Bool := f.md.getLsbD 0
def unsOf (f : FmtA) : Bool := f.md.getLsbD 1
def xOf (f : FmtA) : Nat := f.md.toNat / 4 % 16

/-! ### Add and subtract (R140 to R143) -/

/-- The sum or difference of n-bit operands (R140), and its codes. -/
def addRes (sub u sat : Bool) (n a b : Nat) : Nat :=
  storeInt u sat n (if sub then readInt u n a - readInt u n b else readInt u n a + readInt u n b)
def addCodes (sub u : Bool) (n a b : Nat) : Codes := if sub then codesSub u n a b else codesAdd u n a b

def State.addWord (s : State) (f : FmtA) (sub : Bool) : Result :=
  s.alu f (fun l => addRes sub (unsOf f) (satOf f) 32 (s.a32 f l) (s.b32 f l))
    fun l => addCodes sub (unsOf f) 32 (s.a32 f l) (s.b32 f l)
def State.addWord64 (s : State) (f : FmtA) (sub : Bool) : Result :=
  s.alu64 f (fun l => addRes sub (unsOf f) (satOf f) 64 (s.a64 f l) (s.b64 f l))
    fun l => addCodes sub (unsOf f) 64 (s.a64 f l) (s.b64 f l)

/-- IADD (R140): with NEG, as ISUB. -/
def execIadd (f : FmtA) (s : State) : Result := s.addWord f f.neg
/-- ISUB (R140): with NEG, as IADD. -/
def execIsub (f : FmtA) (s : State) : Result := s.addWord f (!f.neg)
/-- IADD.64 (R140). -/
def execIadd64 (f : FmtA) (s : State) : Result := s.addWord64 f f.neg
/-- ISUB.64 (R140). -/
def execIsub64 (f : FmtA) (s : State) : Result := s.addWord64 f (!f.neg)

/-- A carry as a number. -/
def bit (b : Bool) : Nat := if b then 1 else 0

/-- The exact sum of IADDC, and the exact difference of ISUBB (R141). -/
def addcExact (u : Bool) (a b : Nat) (c : Bool) : Int := readInt u 32 a + readInt u 32 b + bit c
def subbExact (u : Bool) (a b : Nat) (c : Bool) : Int := readInt u 32 a - readInt u 32 b - (1 - (bit c : Int))

/-- IADDC (R141). -/
def execIaddc (f : FmtA) (s : State) : Result :=
  let x (l : Nat) : Int := addcExact (unsOf f) (s.a32 f l) (s.b32 f l) (s.codes l).c
  s.alu f (fun l => wrapN 32 (x l)) fun l =>
    codesOf 32 (wrapN 32 (x l)) (decide (2 ^ 32 ≤ s.a32 f l + s.b32 f l + bit (s.codes l).c))
      (outOfRange (unsOf f) 32 (x l))
/-- ISUBB (R141). -/
def execIsubb (f : FmtA) (s : State) : Result :=
  let x (l : Nat) : Int := subbExact (unsOf f) (s.a32 f l) (s.b32 f l) (s.codes l).c
  s.alu f (fun l => wrapN 32 (x l)) fun l =>
    codesOf 32 (wrapN 32 (x l)) (decide (s.b32 f l + 1 - bit (s.codes l).c ≤ s.a32 f l)) (outOfRange (unsOf f) 32 (x l))

/-- The exact value of IADD3 under one reading of its operands (R142). -/
def add3Exact (u neg : Bool) (a b c : Nat) : Int :=
  readInt u 32 a + (if neg then -readInt u 32 b else readInt u 32 b) + readInt u 32 c

/-- IADD3 (R142). -/
def execIadd3 (f : FmtA) (s : State) : Result :=
  let x (u : Bool) (l : Nat) : Int := add3Exact u f.neg (s.a32 f l) (s.b32 f l) (s.c32 f l)
  s.alu f (fun l => storeInt (unsOf f) (satOf f) 32 (x (unsOf f) l)) fun l =>
    codesOf 32 (wrapN 32 (x (unsOf f) l)) (outOfRange true 32 (x true l)) (outOfRange (unsOf f) 32 (x (unsOf f) l))

/-- LEA (R143). -/
def execLea (f : FmtA) (s : State) : Result :=
  s.alu64 f (fun l => wrapN 64 ((s.a64 f l : Int) + readInt (unsOf f) 32 (s.b32 f l) * 2 ^ xOf f)) fun l => s.codes l

/-! ### Multiply and divide (R144, R145) -/

/-- The exact product, of a and −b with NEG. -/
def mulExact (u neg : Bool) (a b : Nat) : Int :=
  readInt u 32 a * (if neg then -readInt u 32 b else readInt u 32 b)

/-- IMUL.lo (R144). -/
def execImulLo (f : FmtA) (s : State) : Result :=
  let x (l : Nat) : Int := mulExact (unsOf f) f.neg (s.a32 f l) (s.b32 f l)
  s.alu f (fun l => storeInt (unsOf f) (satOf f) 32 (x l)) fun l =>
    codesOf 32 (wrapN 32 (x l)) false (outOfRange (unsOf f) 32 (x l))
/-- The high half of a product. -/
def mulHi (u : Bool) (a b : Nat) : Nat := wrapN 64 (mulExact u false a b) / 2 ^ 32
/-- IMUL.hi (R144). -/
def execImulHi (f : FmtA) (s : State) : Result :=
  let r (l : Nat) : Nat := mulHi (unsOf f) (s.a32 f l) (s.b32 f l)
  s.alu f r fun l => codesOf 32 (r l) false false
/-- IMUL.wide (R144). -/
def execImulWide (f : FmtA) (s : State) : Result :=
  let r (l : Nat) : Nat := wrapN 64 (mulExact (unsOf f) false (s.a32 f l) (s.b32 f l))
  s.alu64 f r fun l => codesOf 64 (r l) false false
/-- IMAD.lo (R144). -/
def execImadLo (f : FmtA) (s : State) : Result :=
  let x (l : Nat) : Int := mulExact (unsOf f) f.neg (s.a32 f l) (s.b32 f l) + readInt (unsOf f) 32 (s.c32 f l)
  s.alu f (fun l => storeInt (unsOf f) (satOf f) 32 (x l)) fun l =>
    codesOf 32 (wrapN 32 (x l)) false (outOfRange (unsOf f) 32 (x l))
/-- IMAD.hi (R144). -/
def execImadHi (f : FmtA) (s : State) : Result :=
  let r (l : Nat) : Nat := (mulHi (unsOf f) (s.a32 f l) (s.b32 f l) + s.c32 f l) % 2 ^ 32
  s.alu f r fun l => codesOf 32 (r l) false false
/-- IMAD.wide (R144). -/
def execImadWide (f : FmtA) (s : State) : Result :=
  let x (l : Nat) : Int := mulExact (unsOf f) false (s.a32 f l) (s.b32 f l) + readInt (unsOf f) 64 (s.c64 f l)
  s.alu64 f (fun l => storeInt (unsOf f) (satOf f) 64 (x l)) fun l =>
    codesOf 64 (wrapN 64 (x l)) false (outOfRange (unsOf f) 64 (x l))

/-- Quotient, remainder and V of R79. -/
def divRes (u sat : Bool) (a b : Nat) : Nat × Nat × Bool :=
  let x := readInt u 32 a
  let y := readInt u 32 b
  if y = 0 then
    ((if u then 0xFFFFFFFF else if 0 ≤ x then 0x7FFFFFFF else 0x80000000), a, true)
  else if u = false ∧ x = -(2 ^ 31) ∧ y = -1 then ((if sat then 0x7FFFFFFF else 0x80000000), 0, true)
  else (wrapN 32 (x.tdiv y), wrapN 32 (x.tmod y), false)

/-- IDIV (R79, R145). -/
def execIdiv (f : FmtA) (s : State) : Result :=
  let r (l : Nat) := divRes (unsOf f) (satOf f) (s.a32 f l) (s.b32 f l)
  s.alu f (fun l => (r l).1) fun l => codesOf 32 (r l).1 false (r l).2.2
/-- IREM (R79, R145). -/
def execIrem (f : FmtA) (s : State) : Result :=
  let r (l : Nat) := divRes (unsOf f) false (s.a32 f l) (s.b32 f l)
  s.alu f (fun l => (r l).2.1) fun l => codesOf 32 (r l).2.1 false (r l).2.2

/-! ### Absolute value, negation, minimum and maximum (R146, R147) -/

/-- A signed 32-bit result of one operand. -/
def State.signed1 (s : State) (f : FmtA) (x : Int → Int) : Result :=
  let r (l : Nat) : Int := x (readInt false 32 (s.a32 f l))
  s.alu f (fun l => storeInt false (satOf f) 32 (r l)) fun l =>
    codesOf 32 (wrapN 32 (r l)) false (outOfRange false 32 (r l))

/-- IABS (R146). -/
def execIabs (f : FmtA) (s : State) : Result := s.signed1 f fun a => (a.natAbs : Int)
/-- INEG (R146). -/
def execIneg (f : FmtA) (s : State) : Result := s.signed1 f fun a => -a

/-- The smaller or the larger of n-bit operands. -/
def pickMin (u : Bool) (n a b : Nat) : Nat := if readInt u n b < readInt u n a then b else a
def pickMax (u : Bool) (n a b : Nat) : Nat := if readInt u n a < readInt u n b then b else a

/-- IMIN (R147). -/
def execImin (f : FmtA) (s : State) : Result :=
  let r (l : Nat) := pickMin (unsOf f) 32 (s.a32 f l) (s.b32 f l)
  s.alu f r fun l => codesOf 32 (r l) false false
/-- IMAX (R147). -/
def execImax (f : FmtA) (s : State) : Result :=
  let r (l : Nat) := pickMax (unsOf f) 32 (s.a32 f l) (s.b32 f l)
  s.alu f r fun l => codesOf 32 (r l) false false
/-- IMIN.64 (R147). -/
def execImin64 (f : FmtA) (s : State) : Result :=
  let r (l : Nat) := pickMin (unsOf f) 64 (s.a64 f l) (s.b64 f l)
  s.alu64 f r fun l => codesOf 64 (r l) false false
/-- IMAX.64 (R147). -/
def execImax64 (f : FmtA) (s : State) : Result :=
  let r (l : Nat) := pickMax (unsOf f) 64 (s.a64 f l) (s.b64 f l)
  s.alu64 f r fun l => codesOf 64 (r l) false false

/-! ### Compares, masks and selects (R148 to R150) -/

/-- ICMP (R148). -/
def execIcmp (f : FmtA) (s : State) : Result :=
  (s.writeCodes true (s.execSet f.cond) fun l => codesSub (unsOf f) 32 (s.a32 f l) (s.b32 f l)).retire f
/-- ICMP.64 (R148). -/
def execIcmp64 (f : FmtA) (s : State) : Result :=
  (s.writeCodes true (s.execSet f.cond) fun l => codesSub (unsOf f) 64 (s.a64 f l) (s.b64 f l)).retire f

/-- A whole mask written once, when some lane executes (R149, R188). -/
def State.writeMask (s : State) (f : FmtA) (e : LaneMask) (x : LaneMask) : State :=
  if e = 0 then s else s.setM f.dst.toNat x

/-- ISETM (R149). -/
def execIsetm (f : FmtA) (s : State) : Result :=
  let e := s.execSet f.cond
  (s.writeMask f e (laneSet fun l =>
    inSet e l && cmpHolds (xOf f) (codesSub (unsOf f) 32 (s.a32 f l) (s.b32 f l)))).retire f

/-- SEL (R150). -/
def execSel (f : FmtA) (s : State) : Result :=
  s.alu f (fun l => if cmpHolds (xOf f) (s.codes l) then s.a32 f l else s.b32 f l) fun l => s.codes l
/-- SEL.64 (R150). -/
def execSel64 (f : FmtA) (s : State) : Result :=
  s.alu64 f (fun l => if cmpHolds (xOf f) (s.codes l) then s.a64 f l else s.b64 f l) fun l => s.codes l

/-! ### Moves and address fields (R151 to R153) -/

/-- MOV (R151). -/
def execMov (f : FmtA) (s : State) : Result := s.alu f (fun l => s.a32 f l) fun l => s.codes l
/-- MOV.64 (R151). -/
def execMov64 (f : FmtA) (s : State) : Result := s.alu64 f (fun l => s.a64 f l) fun l => s.codes l

/-- A uniform register written once with the value that the lowest executing lane reads (R152). DESIGN CHOICE (log entry 51): so is
special 0x0B, the lane's own index, which is no lane register and yet differs from lane to lane. -/
def execMovw (f : FmtA) (s : State) : Result :=
  match lowestLane (s.execSet f.cond) with
  | some l => (s.setU f.dst.toNat (s.src32 f f.sa l)).retire f
  | none => s.retire f

/-- VADIE (R153): the die field replaced, or with .own the owner of an address. -/
def execVadie (f : FmtA) (s : State) : Result :=
  if f.md.getLsbD 4 then
    s.alu f (fun l => (s.owner (s.a64 f l)).getD 0xFFFFFFFF) fun l => s.codes l
  else
    s.alu64 f (fun l => s.a64 f l % 2 ^ 52 + s.b32 f l % 16 * 2 ^ 52) fun l => s.codes l

/-! ### Dot products and sums of differences (R154) -/

/-- Byte i of a word. -/
def byteOf (x i : Nat) : Nat := x / 2 ^ (8 * i) % 256

/-- A sum over the four bytes. -/
def sum4 (g : Nat → Int) : Int := g 0 + g 1 + g 2 + g 3

/-- IDP4 (R154): UB is bit 2 of X (R136, R138), bit 4 of MOD. -/
def execIdp4 (f : FmtA) (s : State) : Result :=
  let x (l : Nat) : Int := readInt false 32 (s.c32 f l) + sum4 fun i =>
    readInt (unsOf f) 8 (byteOf (s.a32 f l) i) * readInt (f.md.getLsbD 4) 8 (byteOf (s.b32 f l) i)
  s.alu f (fun l => storeInt false (satOf f) 32 (x l)) fun l =>
    codesOf 32 (wrapN 32 (x l)) false (outOfRange false 32 (x l))
/-- SAD (R154). -/
def execSad (f : FmtA) (s : State) : Result :=
  let x (l : Nat) : Int := (s.c32 f l : Int) + sum4 fun i =>
    ((readInt (unsOf f) 8 (byteOf (s.a32 f l) i) - readInt (unsOf f) 8 (byteOf (s.b32 f l) i)).natAbs : Int)
  s.alu f (fun l => storeInt true (satOf f) 32 (x l)) fun l =>
    codesOf 32 (wrapN 32 (x l)) false (outOfRange true 32 (x l))

/-! ### Logic, shifts and bit fields (R155 to R159) -/

/-- A bitwise word: C and V are 0. -/
def State.logic (s : State) (f : FmtA) (g : Word → Word → Word) : Result :=
  let r (l : Nat) : Nat := (g (s.src32 f f.sa l) (s.src32 f f.sb l)).toNat
  s.alu f r fun l => codesOf 32 (r l) false false

/-- AND (R155). -/
def execAnd (f : FmtA) (s : State) : Result := s.logic f fun a b => a &&& b
/-- OR (R155). -/
def execOr (f : FmtA) (s : State) : Result := s.logic f fun a b => a ||| b
/-- XOR (R155). -/
def execXor (f : FmtA) (s : State) : Result := s.logic f fun a b => a ^^^ b
/-- ANDN (R155). -/
def execAndn (f : FmtA) (s : State) : Result := s.logic f fun a b => a &&& ~~~b

/-- The three-input function of a truth table, bit by bit (R155). -/
def lop3 (t : BitVec 8) (a b c : Word) : Word :=
  laneSet fun j => t.getLsbD (4 * bit (a.getLsbD j) + 2 * bit (b.getLsbD j) + bit (c.getLsbD j))

/-- LOP3 (R155). -/
def execLop3 (f : FmtA) (s : State) : Result :=
  let r (l : Nat) : Nat := (lop3 f.md (s.src32 f f.sa l) (s.src32 f f.sb l) (s.src32 f f.sc l)).toNat
  s.alu f r fun l => codesOf 32 (r l) false false

/-- The shifts of R156 on n-bit values, with the bit last shifted out. -/
def shlRes (n a k : Nat) : Nat × Bool :=
  (if k < n then a * 2 ^ k % 2 ^ n else 0, decide (1 ≤ k) && decide (k ≤ n) && a.testBit (n - k))
def shrRes (n a k : Nat) : Nat × Bool :=
  (if k < n then a / 2 ^ k else 0, decide (1 ≤ k) && decide (k ≤ n) && a.testBit (k - 1))
def sarRes (n a k : Nat) : Nat × Bool :=
  (wrapN n (sextN n a / 2 ^ (min k n)),
    decide (1 ≤ k) && (if k ≤ n then a.testBit (k - 1) else a.testBit (n - 1)))

/-- A shift word of 32 bits, and of 64. -/
def State.shift (s : State) (f : FmtA) (g : Nat → Nat → Nat → Nat × Bool) : Result :=
  let r (l : Nat) := g 32 (s.a32 f l) (s.b32 f l)
  s.alu f (fun l => (r l).1) fun l => codesOf 32 (r l).1 (r l).2 false
def State.shift64 (s : State) (f : FmtA) (g : Nat → Nat → Nat → Nat × Bool) : Result :=
  let r (l : Nat) := g 64 (s.a64 f l) (s.b32 f l)
  s.alu64 f (fun l => (r l).1) fun l => codesOf 64 (r l).1 (r l).2 false

/-- SHL (R156). -/
def execShl (f : FmtA) (s : State) : Result := s.shift f shlRes
/-- SHR (R156). -/
def execShr (f : FmtA) (s : State) : Result := s.shift f shrRes
/-- SAR (R156). -/
def execSar (f : FmtA) (s : State) : Result := s.shift f sarRes
/-- SHL.64 (R156). -/
def execShl64 (f : FmtA) (s : State) : Result := s.shift64 f shlRes
/-- SHR.64 (R156). -/
def execShr64 (f : FmtA) (s : State) : Result := s.shift64 f shrRes
/-- SAR.64 (R156). -/
def execSar64 (f : FmtA) (s : State) : Result := s.shift64 f sarRes

/-- A word rotated left. -/
def rotl32 (a k : Nat) : Nat := (a * 2 ^ (k % 32) + a * 2 ^ (k % 32) / 2 ^ 32) % 2 ^ 32

/-- ROT (R156): left by k mod 32, or right with .r. -/
def execRot (f : FmtA) (s : State) : Result :=
  let r (l : Nat) : Nat := rotl32 (s.a32 f l) (if f.md.getLsbD 4 then 32 - s.b32 f l % 32 else s.b32 f l)
  s.alu f r fun l => codesOf 32 (r l) false false

/-- Position and width of a bit field, clamped (R157). -/
def fieldPos (ctl : Nat) : Nat := min (ctl % 256) 32
def fieldWidth (ctl : Nat) : Nat := min (ctl / 256 % 256) (32 - fieldPos ctl)

/-- BFX (R157). -/
def bfxRes (u : Bool) (a ctl : Nat) : Nat :=
  let w := fieldWidth ctl
  if w = 0 then 0 else wrapN 32 (readInt u w (a / 2 ^ fieldPos ctl % 2 ^ w))
def execBfx (f : FmtA) (s : State) : Result :=
  let r (l : Nat) := bfxRes (unsOf f) (s.a32 f l) (s.b32 f l)
  s.alu f r fun l => codesOf 32 (r l) false false

/-- BFI (R157). -/
def bfiRes (a b ctl : Nat) : Nat :=
  let w := fieldWidth ctl
  let p := fieldPos ctl
  a - a / 2 ^ p % 2 ^ w * 2 ^ p + b % 2 ^ w * 2 ^ p
def execBfi (f : FmtA) (s : State) : Result :=
  let r (l : Nat) := bfiRes (s.a32 f l) (s.b32 f l) (s.c32 f l)
  s.alu f r fun l => codesOf 32 (r l) false false

/-- Counts of bits (R158). -/
def popc (a : Nat) : Nat := (List.range 32).countP a.testBit
def clz (a : Nat) : Nat := ((List.range 32).find? fun j => a.testBit (31 - j)).getD 32
def ctz (a : Nat) : Nat := ((List.range 32).find? a.testBit).getD 32
def brev (a : Nat) : Nat := laneSetN (fun j => a.testBit (31 - j)) 32

/-- A word of one operand whose codes describe the value written. -/
def State.unary (s : State) (f : FmtA) (g : Nat → Nat) : Result :=
  s.alu f (fun l => g (s.a32 f l)) fun l => codesOf 32 (g (s.a32 f l)) false false

/-- POPC (R158). -/
def execPopc (f : FmtA) (s : State) : Result := s.unary f popc
/-- CLZ (R158). -/
def execClz (f : FmtA) (s : State) : Result := s.unary f clz
/-- CTZ (R158). -/
def execCtz (f : FmtA) (s : State) : Result := s.unary f ctz
/-- BREV (R158). -/
def execBrev (f : FmtA) (s : State) : Result := s.unary f brev

/-- Byte i of BPERM's result (R159). -/
def bpermByte (a b c i : Nat) : Nat :=
  let nib := c / 2 ^ (4 * i) % 16
  let x := byteOf (a + b * 2 ^ 32) (nib % 8)
  if 8 ≤ nib then (if 128 ≤ x then 255 else 0) else x
def bpermRes (a b c : Nat) : Nat :=
  bpermByte a b c 0 + bpermByte a b c 1 * 2 ^ 8 + bpermByte a b c 2 * 2 ^ 16 + bpermByte a b c 3 * 2 ^ 24
/-- BPERM (R159). -/
def execBperm (f : FmtA) (s : State) : Result :=
  s.alu f (fun l => bpermRes (s.a32 f l) (s.b32 f l) (s.c32 f l)) fun l => s.codes l

end Sys2Proof.Machine
end

