-- ==== Sys2Proof/Machine/Float.lean ====
section
/-! DEFINITION. The floating-point, special-function and conversion class (R160 to R186), and PAIR
(R50 to R52). Holds on the pipes change no result (R512) and are left out, and a latency only says when a word's flags are ORed
in (R162); a warp issues its words in order, so a trap under R76 is precise (R163). -/

namespace Sys2Proof.Machine

/-- The rounding mode of a word (R71, R164). -/
def rmOf (f : FmtA) : Rm := Rm.ofCode f.md.toNat
/-- NC of the arithmetic layout (R164). -/
def ncOf (f : FmtA) : Bool := f.md.getLsbD 2

/-- A word that writes a lane register and may raise flags (R75): `fm` is the format in which the codes of
R167 read the result, `lat` the latency of R160. -/
def State.floatWord (s : State) (f : FmtA) (fm : Fmt) (res : Nat → FRes) (lat : Nat := 4) : Result :=
  let e := s.execSet f.cond
  ((s.setV f.dst.toNat e fun l => BitVec.ofNat 32 (res l).bits).writeCodes f.wcc e
    fun l => codesFloat fm (res l).bits).retireFloat e (fun l => (res l).fl) (fmtLen f) lat

/-- A float operand, with NEG or NC (R69, R165). -/
def State.fa (s : State) (f : FmtA) (fm : Fmt) (l : Nat) : Nat := s.srcF f fm f.sa l
def State.fb (s : State) (f : FmtA) (fm : Fmt) (l : Nat) : Nat := negBits fm f.neg (s.srcF f fm f.sb l)
def State.fc (s : State) (f : FmtA) (fm : Fmt) (l : Nat) : Nat := negBits fm (ncOf f) (s.srcF f fm f.sc l)
/-- A packed operand (R165). -/
def State.ha (s : State) (f : FmtA) (fm : Fmt) (l : Nat) : Nat := s.srcH f fm f.sa l
def State.hb (s : State) (f : FmtA) (fm : Fmt) (l : Nat) : Nat := negPair f.neg (s.srcH f fm f.sb l)
def State.hc (s : State) (f : FmtA) (fm : Fmt) (l : Nat) : Nat := negPair (ncOf f) (s.srcH f fm f.sc l)

/-! ### Arithmetic (R168) -/

def State.faddWord (s : State) (f : FmtA) (fm : Fmt) : Result :=
  s.floatWord f fm fun l => fAdd fm (rmOf f) (s.fa f fm l) (s.fb f fm l)
def State.fmulWord (s : State) (f : FmtA) (fm : Fmt) : Result :=
  s.floatWord f fm fun l => fMul fm (rmOf f) (s.fa f fm l) (s.fb f fm l)
def State.ffmaWord (s : State) (f : FmtA) (fm : Fmt) : Result :=
  s.floatWord f fm fun l => fFma fm (rmOf f) (s.fa f fm l) (s.fb f fm l) (s.fc f fm l)
def State.fminWord (s : State) (f : FmtA) (fm : Fmt) : Result :=
  s.floatWord f fm fun l => fMin fm (s.fa f fm l) (s.fb f fm l)
def State.fmaxWord (s : State) (f : FmtA) (fm : Fmt) : Result :=
  s.floatWord f fm fun l => fMax fm (s.fa f fm l) (s.fb f fm l)

/-- FADD.f32 (R168). -/
def execFaddF32 (f : FmtA) (s : State) : Result := s.faddWord f f32
/-- FADD.f16 (R168). -/
def execFaddF16 (f : FmtA) (s : State) : Result := s.faddWord f f16
/-- FADD.bf16 (R168). -/
def execFaddBf16 (f : FmtA) (s : State) : Result := s.faddWord f bf16
/-- FMUL.f32 (R168). -/
def execFmulF32 (f : FmtA) (s : State) : Result := s.fmulWord f f32
/-- FMUL.f16 (R168). -/
def execFmulF16 (f : FmtA) (s : State) : Result := s.fmulWord f f16
/-- FMUL.bf16 (R168). -/
def execFmulBf16 (f : FmtA) (s : State) : Result := s.fmulWord f bf16
/-- FFMA.f32 (R168). -/
def execFfmaF32 (f : FmtA) (s : State) : Result := s.ffmaWord f f32
/-- FFMA.f16 (R168). -/
def execFfmaF16 (f : FmtA) (s : State) : Result := s.ffmaWord f f16
/-- FFMA.bf16 (R168). -/
def execFfmaBf16 (f : FmtA) (s : State) : Result := s.ffmaWord f bf16
/-- FMIN.f32 (R171). -/
def execFminF32 (f : FmtA) (s : State) : Result := s.fminWord f f32
/-- FMIN.f16 (R171). -/
def execFminF16 (f : FmtA) (s : State) : Result := s.fminWord f f16
/-- FMIN.bf16 (R171). -/
def execFminBf16 (f : FmtA) (s : State) : Result := s.fminWord f bf16
/-- FMAX.f32 (R171). -/
def execFmaxF32 (f : FmtA) (s : State) : Result := s.fmaxWord f f32
/-- FMAX.f16 (R171). -/
def execFmaxF16 (f : FmtA) (s : State) : Result := s.fmaxWord f f16
/-- FMAX.bf16 (R171). -/
def execFmaxBf16 (f : FmtA) (s : State) : Result := s.fmaxWord f bf16

/-! ### Compares and classification (R167, R173, R174) -/

/-- The codes of comparing two encodings (R167). -/
def codesFcmp (fm : Fmt) (a b : Nat) : Codes := codesCmp (cmpV (fval fm a) (fval fm b))

def State.fcmpWord (s : State) (f : FmtA) (fm : Fmt) : Result :=
  let e := s.execSet f.cond
  (s.writeCodes true e fun l => codesFcmp fm (s.fa f fm l) (s.fb f fm l)).retireFloat e
    (fun l => snanFl fm [s.fa f fm l, s.fb f fm l]) (fmtLen f)

/-- FCMP.f32 (R167). -/
def execFcmpF32 (f : FmtA) (s : State) : Result := s.fcmpWord f f32
/-- FCMP.f16 (R167). -/
def execFcmpF16 (f : FmtA) (s : State) : Result := s.fcmpWord f f16
/-- FCMP.bf16 (R167). -/
def execFcmpBf16 (f : FmtA) (s : State) : Result := s.fcmpWord f bf16

def State.fsetmWord (s : State) (f : FmtA) (fm : Fmt) : Result :=
  let e := s.execSet f.cond
  (s.writeMask f e (laneSet fun l =>
    inSet e l && cmpHolds (xOf f) (codesFcmp fm (s.fa f fm l) (s.fb f fm l)))).retireFloat e
    (fun l => snanFl fm [s.fa f fm l, s.fb f fm l]) (fmtLen f)

/-- FSETM.f32 (R173). -/
def execFsetmF32 (f : FmtA) (s : State) : Result := s.fsetmWord f f32
/-- FSETM.f16 (R173). -/
def execFsetmF16 (f : FmtA) (s : State) : Result := s.fsetmWord f f16
/-- FSETM.bf16 (R173). -/
def execFsetmBf16 (f : FmtA) (s : State) : Result := s.fsetmWord f bf16

def State.fclassWord (s : State) (f : FmtA) (fm : Fmt) : Result :=
  s.floatWord f fm fun l => { bits := fClass fm (s.fa f fm l) }

/-- FCLASS.f32 (R174). -/
def execFclassF32 (f : FmtA) (s : State) : Result := s.fclassWord f f32
/-- FCLASS.f16 (R174). -/
def execFclassF16 (f : FmtA) (s : State) : Result := s.fclassWord f f16
/-- FCLASS.bf16 (R174). -/
def execFclassBf16 (f : FmtA) (s : State) : Result := s.fclassWord f bf16

/-! ### Rounding, scaling, sign and median (R172, R175 to R177) -/

def State.frndWord (s : State) (f : FmtA) (fm : Fmt) : Result :=
  s.floatWord f fm fun l => fRnd fm (rmOf f) (s.fa f fm l)

/-- FRND.f32 (R175). -/
def execFrndF32 (f : FmtA) (s : State) : Result := s.frndWord f f32
/-- FRND.f16 (R175). -/
def execFrndF16 (f : FmtA) (s : State) : Result := s.frndWord f f16
/-- FRND.bf16 (R175). -/
def execFrndBf16 (f : FmtA) (s : State) : Result := s.frndWord f bf16

/-- FLDEXP.f32 (R176). -/
def execFldexpF32 (f : FmtA) (s : State) : Result :=
  s.floatWord f f32 fun l => fLdexp f32 (rmOf f) (s.fa f f32 l) (s.src32 f f.sb l).toInt

/-- FCPYS.f32 (R177): bits only. -/
def execFcpysF32 (f : FmtA) (s : State) : Result :=
  s.floatWord f f32 fun l => { bits := s.fa f f32 l % 2 ^ 31 + s.fb f f32 l / 2 ^ 31 * 2 ^ 31 }

/-- The median of three (R172), with NV once for a signalling NaN. -/
def fMed3 (fm : Fmt) (a b c : Nat) : FRes :=
  { bits := (fMax fm (fMin fm a b).bits (fMin fm (fMax fm a b).bits c).bits).bits, fl := snanFl fm [a, b, c] }

/-- FMED3.f32 (R172). -/
def execFmed3F32 (f : FmtA) (s : State) : Result :=
  s.floatWord f f32 fun l => fMed3 f32 (s.fa f f32 l) (s.srcF f f32 f.sb l) (s.srcF f f32 f.sc l)

/-! ### Packed words (R169, R170) -/

def lo16 (x : Nat) : Nat := x % 2 ^ 16
def hi16 (x : Nat) : Nat := x / 2 ^ 16 % 2 ^ 16

/-- Two element results as one word; the flags are the union. -/
def packRes (a b : FRes) : FRes := { bits := a.bits % 2 ^ 16 + b.bits % 2 ^ 16 * 2 ^ 16, fl := a.fl ||| b.fl }

/-- The three packed operations on whole words. -/
def hAdd (fm : Fmt) (rm : Rm) (a b : Nat) : FRes :=
  packRes (fAdd fm rm (lo16 a) (lo16 b)) (fAdd fm rm (hi16 a) (hi16 b))
def hMul (fm : Fmt) (rm : Rm) (a b : Nat) : FRes :=
  packRes (fMul fm rm (lo16 a) (lo16 b)) (fMul fm rm (hi16 a) (hi16 b))
def hFma (fm : Fmt) (rm : Rm) (a b c : Nat) : FRes :=
  packRes (fFma fm rm (lo16 a) (lo16 b) (lo16 c)) (fFma fm rm (hi16 a) (hi16 b) (hi16 c))

/-- HADD2.f16 (R169). -/
def execHadd2F16 (f : FmtA) (s : State) : Result :=
  s.floatWord f f32 fun l => hAdd f16 (rmOf f) (s.ha f f16 l) (s.hb f f16 l)
/-- HADD2.bf16 (R169). -/
def execHadd2Bf16 (f : FmtA) (s : State) : Result :=
  s.floatWord f f32 fun l => hAdd bf16 (rmOf f) (s.ha f bf16 l) (s.hb f bf16 l)
/-- HMUL2.f16 (R169). -/
def execHmul2F16 (f : FmtA) (s : State) : Result :=
  s.floatWord f f32 fun l => hMul f16 (rmOf f) (s.ha f f16 l) (s.hb f f16 l)
/-- HMUL2.bf16 (R169). -/
def execHmul2Bf16 (f : FmtA) (s : State) : Result :=
  s.floatWord f f32 fun l => hMul bf16 (rmOf f) (s.ha f bf16 l) (s.hb f bf16 l)
/-- HFMA2.f16 (R169). -/
def execHfma2F16 (f : FmtA) (s : State) : Result :=
  s.floatWord f f32 fun l => hFma f16 (rmOf f) (s.ha f f16 l) (s.hb f f16 l) (s.hc f f16 l)
/-- HFMA2.bf16 (R169). -/
def execHfma2Bf16 (f : FmtA) (s : State) : Result :=
  s.floatWord f f32 fun l => hFma bf16 (rmOf f) (s.ha f bf16 l) (s.hb f bf16 l) (s.hc f bf16 l)

/-- Some term is +∞ and some term is −∞. -/
def infsMeet (ts : List FVal) : Bool := ts.contains (.inf false) && ts.contains (.inf true)

/-- a0 × b0 + a1 × b1 + c with one rounding (R170). -/
def fDot2 (rm : Rm) (a b c : Nat) : FRes :=
  let p0 := mulV (fval bf16 (lo16 a)) (fval bf16 (lo16 b))
  let p1 := mulV (fval bf16 (hi16 a)) (fval bf16 (hi16 b))
  let cv := fval f32 c
  let bad := p0.2 || p1.2 || infsMeet [p0.1, p1.1, cv]
  let fl := snanFl bf16 [lo16 a, lo16 b, hi16 a, hi16 b] ||| snanFl f32 [c]
  if bad then .nan f32 (fl ||| flNV)
  else
    let r := roundV f32 rm false (addV rm (addV rm p0.1 p1.1).1 cv).1
    { r with fl := r.fl ||| fl }

/-- FDOT2.bf16 (R170): NEG inverts both elements of SB. DESIGN CHOICE (log entry 26): an immediate of its packed operands is
converted and placed in both elements, as R165 has it for operands marked h. -/
def execFdot2Bf16 (f : FmtA) (s : State) : Result :=
  s.floatWord f f32 (lat := 6) fun l => fDot2 (rmOf f) (s.ha f bf16 l) (s.hb f bf16 l) (s.fc f f32 l)

/-! ### Special functions (R178, R179) -/

/-- A float word of one operand. -/
def State.fun1 (s : State) (f : FmtA) (fm : Fmt) (g : Fmt → Rm → Nat → FRes) (lat : Nat := 16) : Result :=
  s.floatWord f fm (lat := lat) fun l => g fm (rmOf f) (s.fa f fm l)

/-- FRCP.f32. -/
def execFrcpF32 (f : FmtA) (s : State) : Result := s.fun1 f f32 fRcp
/-- FRSQ.f32. -/
def execFrsqF32 (f : FmtA) (s : State) : Result := s.fun1 f f32 fRsq
/-- FSQRT.f32. -/
def execFsqrtF32 (f : FmtA) (s : State) : Result := s.fun1 f f32 fSqrt 30
/-- FDIV.f32. -/
def execFdivF32 (f : FmtA) (s : State) : Result :=
  s.floatWord f f32 (lat := 30) fun l => fDiv f32 (rmOf f) (s.fa f f32 l) (s.srcF f f32 f.sb l)
/-- FEXP2.f32. -/
def execFexp2F32 (f : FmtA) (s : State) : Result := s.fun1 f f32 fExp2
/-- FLOG2.f32. -/
def execFlog2F32 (f : FmtA) (s : State) : Result := s.fun1 f f32 fLog2
/-- FSIN.f32: the argument is in half-turns. -/
def execFsinF32 (f : FmtA) (s : State) : Result := s.fun1 f f32 fSin
/-- FCOS.f32. -/
def execFcosF32 (f : FmtA) (s : State) : Result := s.fun1 f f32 fCos
/-- FEXP2.f16. -/
def execFexp2F16 (f : FmtA) (s : State) : Result := s.fun1 f f16 fExp2

/-! ### Conversions (R180 to R183) -/

/-- A conversion between float formats (R180). -/
def State.cvtWord (s : State) (f : FmtA) (src dst : Fmt) : Result :=
  s.floatWord f dst (lat := 8) fun l => fCvt src dst (rmOf f) (s.srcF f src f.sa l)

/-- CVT.f16.f32 (R180). -/
def execCvtF16F32 (f : FmtA) (s : State) : Result := s.cvtWord f f32 f16
/-- CVT.bf16.f32 (R180). -/
def execCvtBf16F32 (f : FmtA) (s : State) : Result := s.cvtWord f f32 bf16
/-- CVT.f32.f16 (R180). -/
def execCvtF32F16 (f : FmtA) (s : State) : Result := s.cvtWord f f16 f32
/-- CVT.f32.bf16 (R180). -/
def execCvtF32Bf16 (f : FmtA) (s : State) : Result := s.cvtWord f bf16 f32
/-- CVT.bf16.f16 (R180). -/
def execCvtBf16F16 (f : FmtA) (s : State) : Result := s.cvtWord f f16 bf16
/-- CVT.f16.bf16 (R180). -/
def execCvtF16Bf16 (f : FmtA) (s : State) : Result := s.cvtWord f bf16 f16

/-- Both sources converted into one packed pair (R181). -/
def State.cvtPair (s : State) (f : FmtA) (dst : Fmt) : Result :=
  s.floatWord f f32 (lat := 8) fun l =>
    packRes (fCvt f32 dst (rmOf f) (s.srcF f f32 f.sa l)) (fCvt f32 dst (rmOf f) (s.srcF f f32 f.sb l))

/-- CVT.f16x2.f32 (R181). -/
def execCvtF16x2F32 (f : FmtA) (s : State) : Result := s.cvtPair f f16
/-- CVT.bf16x2.f32 (R181). -/
def execCvtBf16x2F32 (f : FmtA) (s : State) : Result := s.cvtPair f bf16

/-- A conversion to an n-bit integer (R182). -/
def State.toIntRes (s : State) (f : FmtA) (n : Nat) (signed : Bool) (l : Nat) : FRes :=
  toInt n signed (rmOf f) (fval f32 (s.fa f f32 l))

/-- The codes of R182: V where the lane raised NV. -/
def codesToInt (n : Nat) (r : FRes) : Codes := codesOf n r.bits false (decide (r.fl &&& flNV ≠ 0))

/-- A 32-bit integer result (R182). -/
def State.cvtInt32 (s : State) (f : FmtA) (signed : Bool) : Result :=
  let e := s.execSet f.cond
  let r := s.toIntRes f 32 signed
  ((s.setV f.dst.toNat e fun l => BitVec.ofNat 32 (r l).bits).writeCodes f.wcc e fun l => codesToInt 32 (r l)).retireFloat
    e (fun l => (r l).fl) (fmtLen f) 8
/-- A 64-bit integer result (R182). -/
def State.cvtInt64 (s : State) (f : FmtA) (signed : Bool) : Result :=
  let e := s.execSet f.cond
  let r := s.toIntRes f 64 signed
  ((s.setV2 f.dst.toNat e fun l => BitVec.ofNat 64 (r l).bits).writeCodes f.wcc e fun l => codesToInt 64 (r l)).retireFloat
    e (fun l => (r l).fl) (fmtLen f) 8

/-- CVT.s32.f32 (R182). -/
def execCvtS32F32 (f : FmtA) (s : State) : Result := s.cvtInt32 f true
/-- CVT.n32.f32 (R182). -/
def execCvtN32F32 (f : FmtA) (s : State) : Result := s.cvtInt32 f false
/-- CVT.s64.f32 (R182). -/
def execCvtS64F32 (f : FmtA) (s : State) : Result := s.cvtInt64 f true
/-- CVT.n64.f32 (R182). -/
def execCvtN64F32 (f : FmtA) (s : State) : Result := s.cvtInt64 f false

/-- An integer as an FP32 value (R183). -/
def fFromInt (rm : Rm) (i : Int) : FRes := roundV f32 rm false (intVal i)

/-- CVT.f32.s32 (R183). -/
def execCvtF32S32 (f : FmtA) (s : State) : Result :=
  s.floatWord f f32 (lat := 8) fun l => fFromInt (rmOf f) (readInt false 32 (s.a32 f l))
/-- CVT.f32.n32 (R183). -/
def execCvtF32N32 (f : FmtA) (s : State) : Result :=
  s.floatWord f f32 (lat := 8) fun l => fFromInt (rmOf f) (readInt true 32 (s.a32 f l))
/-- CVT.f32.s64 (R183). -/
def execCvtF32S64 (f : FmtA) (s : State) : Result :=
  s.floatWord f f32 (lat := 8) fun l => fFromInt (rmOf f) (readInt false 64 (s.a64 f l))
/-- CVT.f32.n64 (R183). -/
def execCvtF32N64 (f : FmtA) (s : State) : Result :=
  s.floatWord f f32 (lat := 8) fun l => fFromInt (rmOf f) (readInt true 64 (s.a64 f l))

/-! ### Q4 conversions (R184 to R186) -/

/-- Format slot k of the launch (R84, R421). -/
def State.fslot (s : State) (k : Nat) : Word64 := s.g.lrec.extractLsb' (256 + 64 * k) 64

/-- The slot that MOD names. -/
def State.slotOf (s : State) (f : FmtA) : Word64 := s.fslot (f.md.toNat / 8 % 8)

/-- QDEC of one code (R184). -/
def qDec (slot : Word64) (sel : Nat) (fm : Fmt) (rm : Rm) (codes sw k : Nat) : FRes :=
  match q4Scaled slot sel (sw % 1024) (codes / 2 ^ (4 * (k % 8)) % 16) with
  | .nan => .nan fm flNV
  | v => roundV fm rm (slotSat slot) v

def State.qdecWord (s : State) (f : FmtA) (fm : Fmt) : Result :=
  s.floatWord f fm (lat := 10) fun l =>
    qDec (s.slotOf f) (f.md.toNat / 64) fm (rmOf f) (s.a32 f l) (s.b32 f l) (s.c32 f l)

/-- QDEC.bf16 (R184). -/
def execQdecBf16 (f : FmtA) (s : State) : Result := s.qdecWord f bf16
/-- QDEC.f32 (R184). -/
def execQdecF32 (f : FmtA) (s : State) : Result := s.qdecWord f f32

def State.qencWord (s : State) (f : FmtA) (fm : Fmt) : Result :=
  s.floatWord f f32 (lat := 10) fun l => q4Encode (s.slotOf f) (s.b32 f l % 1024) (rmOf f) (fval fm (s.fa f fm l))

/-- QENC.bf16 (R185). -/
def execQencBf16 (f : FmtA) (s : State) : Result := s.qencWord f bf16
/-- QENC.f32 (R185). -/
def execQencF32 (f : FmtA) (s : State) : Result := s.qencWord f f32

/-- QSCL (R186). -/
def execQscl (f : FmtA) (s : State) : Result :=
  s.floatWord f f32 (lat := 10) fun l => q4MakeScale (s.slotOf f) (s.b32 f l) (fval f32 (s.fa f f32 l))

/-! ### PAIR (R50 to R52) -/

/-- The sources of a compact operation in lane l; SB from either file. -/
def State.pairA (s : State) (c : Compact) (l : Nat) : Nat := (s.v c.sa.toNat l).toNat
def State.pairB (s : State) (c : Compact) (l : Nat) : Nat :=
  (if c.kb then s.u c.sb.toNat else s.v c.sb.toNat l).toNat
def State.pairC (s : State) (c : Compact) (l : Nat) : Nat := (s.v c.sc.toNat l).toNat

/-- The integer halves, signed and wrapping as the full forms without suffixes are. -/
def pairInt (cop : Nat) (neg : Bool) (a b c : Nat) : Nat :=
  if cop = 0x05 then addRes neg false false 32 a b
  else if cop = 0x06 then addRes (!neg) false false 32 a b
  else if cop = 0x07 then wrapN 32 (mulExact false neg a b)
  else if cop = 0x08 then wrapN 32 (mulExact false neg a b + readInt false 32 c)
  else if cop = 0x09 then a &&& b
  else if cop = 0x0A then a ||| b
  else if cop = 0x0B then a ^^^ b
  else if cop = 0x0C then (shlRes 32 a b).1
  else if cop = 0x0D then (shrRes 32 a b).1
  else if cop = 0x0E then (sarRes 32 a b).1
  else a

/-- The result of a compact operation on operand values (R51). -/
def pairRes (x : Compact) (a b c : Nat) : FRes :=
  let cop := x.cop.toNat
  let rm := Rm.ofCode x.rm.toNat
  let bn := negBits f32 x.neg b
  if cop = 0x00 then fAdd f32 rm a bn
  else if cop = 0x01 then fMul f32 rm a bn
  else if cop = 0x02 then fFma f32 rm a bn c
  else if cop = 0x03 then fMin f32 a bn
  else if cop = 0x04 then fMax f32 a bn
  else if cop = 0x10 then fRcp f32 rm a
  else if cop = 0x11 then fRsq f32 rm a
  else if cop = 0x12 then fExp2 f32 rm a
  else if cop = 0x13 then fLog2 f32 rm a
  else if cop = 0x14 then fFromInt rm (readInt false 32 a)
  else if cop = 0x15 then toInt 32 true rm (fval f32 a)
  else if cop = 0x16 then hFma f16 rm a (negPair x.neg b) c
  else if cop = 0x17 then hFma bf16 rm a (negPair x.neg b) c
  else { bits := pairInt cop x.neg a b c }

/-- The latency of a half (R160, R161); the flags of both are ORed in with those of the slower one. -/
def Compact.latency (x : Compact) : Nat :=
  if 0x10 ≤ x.cop.toNat ∧ x.cop.toNat ≤ 0x13 then 16 else if x.cop = 0x14 ∨ x.cop = 0x15 then 8 else 4

def State.pairHalf (s : State) (x : Compact) (l : Nat) : FRes :=
  pairRes x (s.pairA x l) (s.pairB x l) (s.pairC x l)

/-- PAIR (R52): both halves read before either writes; th.info marks the halves that raised an enabled flag
(R463). -/
def execPair (x y : Compact) (s : State) : Result :=
  let e := s.m0
  let rx := s.pairHalf x
  let ry := s.pairHalf y
  ((s.setV x.dst.toNat e fun l => BitVec.ofNat 32 (rx l).bits).setV y.dst.toNat e
    fun l => BitVec.ofNat 32 (ry l).bits).retireFloat e (fun l => (rx l).fl ||| (ry l).fl) 12 (max (Compact.latency x) (Compact.latency y))
    fun en => (decide (unionFlags e (fun l => (rx l).fl) &&& en ≠ 0), decide (unionFlags e (fun l => (ry l).fl) &&& en ≠ 0))

end Sys2Proof.Machine
end

