-- ==== Sys2Proof/Machine/Lanes.lean ====
section
/-! DEFINITION. The cross-lane class (R187 to R196). -/

namespace Sys2Proof.Machine

/-! ### Shuffles (R192) -/

/-- The segment width of MOD (R190). -/
def segWidth (f : FmtA) : Nat := 32 / 2 ^ (f.md.toNat % 8)

/-- The source lane of each form, in segments of w lanes. -/
def srcIdx (w l d : Nat) : Option Nat := some (l - l % w + d % w)
def srcXor (w l d : Nat) : Option Nat := some (l - l % w + (l % w ^^^ d % w))
def srcUp (w l d : Nat) : Option Nat := if l % w < d then none else some (l - d)
def srcDown (w l d : Nat) : Option Nat := if w ≤ l % w + d then none else some (l + d)

/-- A shuffle: the value of the source lane where that executes, else the lane's own; C says which. -/
def State.shfl (s : State) (f : FmtA) (src : Nat → Nat → Nat → Option Nat) : Result :=
  let e := s.execSet f.cond
  let from? (l : Nat) : Option Nat :=
    match src (segWidth f) l (s.b32 f l % 32) with
    | some k => if inSet e k then some k else none
    | none => none
  let x (l : Nat) : Nat := s.a32 f ((from? l).getD l)
  s.alu f x fun l => codesOf 32 (x l) (from? l).isSome false

/-- SHFL.idx (R192). -/
def execShflIdx (f : FmtA) (s : State) : Result := s.shfl f srcIdx
/-- SHFL.xor (R192). -/
def execShflXor (f : FmtA) (s : State) : Result := s.shfl f srcXor
/-- SHFL.up (R192). -/
def execShflUp (f : FmtA) (s : State) : Result := s.shfl f srcUp
/-- SHFL.down (R192). -/
def execShflDown (f : FmtA) (s : State) : Result := s.shfl f srcDown

/-! ### Votes (R193) -/

/-- A vote that writes `x` to its mask; Z says that the mask is 0. -/
def State.vote (s : State) (f : FmtA) (x : LaneMask) : Result :=
  let e := s.execSet f.cond
  ((s.writeMask f e x).writeCodes f.wcc e
    fun _ => { c := false, z := decide (x = 0), n := false, v := false }).retire f

/-- The lanes of the executing set whose SA is not 0. -/
def State.ballot (s : State) (f : FmtA) : LaneMask :=
  let e := s.execSet f.cond
  laneSet fun l => inSet e l && decide (s.src32 f f.sa l ≠ 0)

/-- VOTE.any (R193). -/
def execVoteAny (f : FmtA) (s : State) : Result :=
  s.vote f (if s.ballot f ≠ 0 then s.execSet f.cond else 0)
/-- VOTE.all (R193). -/
def execVoteAll (f : FmtA) (s : State) : Result :=
  s.vote f (if s.ballot f = s.execSet f.cond then s.execSet f.cond else 0)
/-- VOTE.ballot (R193). -/
def execVoteBallot (f : FmtA) (s : State) : Result := s.vote f (s.ballot f)
/-- VOTE.eq (R193). -/
def execVoteEq (f : FmtA) (s : State) : Result :=
  let e := s.execSet f.cond
  s.vote f (if (lanesOf e).all fun l => (lanesOf e).all fun k => s.src32 f f.sa l == s.src32 f f.sa k then e else 0)

/-! ### Reductions (R194) -/

/-- A node of the tree that is not empty: its value and the lowest lane that it covers. -/
abbrev TreeNode (α : Type) := Option (α × Nat)

/-- One level of the tree: pairs combined, with the flags of each combination against its lowest lane. -/
def treeLevel {α : Type} (comb : α → α → α × Flags) : List (TreeNode α) → List (TreeNode α) × List (Nat × Flags)
  | a :: b :: rest =>
    let r := treeLevel comb rest
    match a, b with
    | none, y => (y :: r.1, r.2)
    | some x, none => (some x :: r.1, r.2)
    | some x, some y =>
      let c := comb x.1 y.1
      (some (c.1, x.2) :: r.1, (x.2, c.2) :: r.2)
  | [a] => ([a], [])
  | [] => ([], [])

/-- Levels combined up to the root. -/
def treeUp {α : Type} (comb : α → α → α × Flags) : Nat → List (TreeNode α) → List (Nat × Flags) →
    TreeNode α × List (Nat × Flags)
  | 0, ns, fl => (ns.headD none, fl)
  | n + 1, ns, fl =>
    let r := treeLevel comb ns
    treeUp comb n r.1 (fl ++ r.2)

/-- The tree of R194 over the lanes of a set. -/
def treeReduce {α : Type} (comb : α → α → α × Flags) (e : LaneMask) (x : Nat → α) : TreeNode α × List (Nat × Flags) :=
  treeUp comb 5 ((List.range 32).map fun l => if inSet e l then some (x l, l) else none) []

/-- The flags charged to a lane. -/
def flagsAt (fl : List (Nat × Flags)) (l : Nat) : Flags :=
  fl.foldl (fun a p => if p.1 = l then a ||| p.2 else a) 0

/-- UD of the reduce layout: the destination is uniform. -/
def udOf (f : FmtA) : Bool := f.md.getLsbD 6
def wsatOf (f : FmtA) : Bool := f.md.getLsbD 4
def wuOf (f : FmtA) : Bool := f.md.getLsbD 2

/-- A reduction's result written to every lane of the set, or once to a uniform register. -/
def State.putReduced (s : State) (f : FmtA) (e : LaneMask) (x : Option Nat) : State :=
  match x with
  | none => s
  | some r =>
    if udOf f then s.setU f.dst.toNat (BitVec.ofNat 32 r)
    else s.setV f.dst.toNat e fun _ => BitVec.ofNat 32 r

/-- A reduction whose combining does not round. -/
def State.wred (s : State) (f : FmtA) {α : Type} (rd : Nat → α) (comb : α → α → α) (out : α → Nat) : Result :=
  let e := s.execSet f.cond
  (s.putReduced f e (((treeReduce (fun a b => (comb a b, 0)) e fun l => rd (s.a32 f l)).1).map fun x => out x.1)).retire f

/-- WRED.iadd (R194). -/
def execWredIadd (f : FmtA) (s : State) : Result :=
  s.wred f (readInt (wuOf f) 32) (fun a b : Int => a + b) (storeInt (wuOf f) (wsatOf f) 32)

/-- A reduction of floats, with its flags (R194); `x` gives each lane's value, `lat` is the latency of R189. -/
def State.wredFloat (s : State) (f : FmtA) (comb : Nat → Nat → FRes) (x : Nat → Nat) (lat : Nat := 10) : Result :=
  let e := s.execSet f.cond
  let t := treeReduce (fun a b => ((comb a b).bits, (comb a b).fl)) e x
  (s.putReduced f e (t.1.map (·.1))).retireFloat e (flagsAt t.2) (fmtLen f) lat

/-- WRED.fadd (R194). A floating-point word (R189), so an immediate is its integer as a float (R48; DEDUCED, log entry 26). -/
def execWredFadd (f : FmtA) (s : State) : Result := s.wredFloat f (fAdd f32 (rmOf f)) (s.srcF f f32 f.sa) 16

/-- A float minimum or maximum (R171, R194): the one value of a single lane, which nothing combines, is read all the same, and a
signalling NaN raises its flag against that lane. An immediate is its integer as a float (R48). -/
def State.wredPick (s : State) (f : FmtA) (comb : Nat → Nat → FRes) : Result :=
  let e := s.execSet f.cond
  let x := s.srcF f f32 f.sa
  match lanesOf e with
  | [l] => (s.putReduced f e (some (x l))).retireFloat e (fun k => if k = l then snanFl f32 [x l] else 0) (fmtLen f) 10
  | _ => s.wredFloat f comb x

/-- WRED.min (R194): with F, the order of R171. -/
def execWredMin (f : FmtA) (s : State) : Result :=
  if f.md.getLsbD 3 then s.wredPick f (fMin f32) else s.wred f id (pickMin (wuOf f) 32) id
/-- WRED.max (R194). -/
def execWredMax (f : FmtA) (s : State) : Result :=
  if f.md.getLsbD 3 then s.wredPick f (fMax f32) else s.wred f id (pickMax (wuOf f) 32) id
/-- WRED.and (R194). -/
def execWredAnd (f : FmtA) (s : State) : Result := s.wred f id (fun a b : Nat => a &&& b) id
/-- WRED.or (R194). -/
def execWredOr (f : FmtA) (s : State) : Result := s.wred f id (fun a b : Nat => a ||| b) id
/-- WRED.xor (R194). -/
def execWredXor (f : FmtA) (s : State) : Result := s.wred f id (fun a b : Nat => a ^^^ b) id

/-! ### Scans (R195) -/

/-- The running combination over lanes in ascending order: each lane's inclusive value, with its flags. -/
def scanUp {α : Type} (comb : α → α → α × Flags) (x : Nat → α) : Option α → List Nat → List (Nat × α × Flags)
  | _, [] => []
  | none, l :: ls => (l, x l, 0) :: scanUp comb x (some (x l)) ls
  | some q, l :: ls =>
    let c := comb q (x l)
    (l, c.1, c.2) :: scanUp comb x (some c.1) ls

/-- The entry of a lane. -/
def scanAt {α : Type} (r : List (Nat × α × Flags)) (l : Nat) : Option (α × Flags) := (r.find? (·.1 == l)).map (·.2)

/-- The next lane of the set below a lane. -/
def laneBelow (e : LaneMask) (l : Nat) : Option Nat := ((lanesOf e).filter (· < l)).getLast?

/-- What a scan writes to a lane: its own inclusive value, or with EX that of the lane of the set below. -/
def scanOut {α : Type} (ex : Bool) (e : LaneMask) (r : List (Nat × α × Flags)) (out : α → Nat) (l : Nat) : Nat :=
  if ex then
    match laneBelow e l with
    | some k => ((scanAt r k).map fun p => out p.1).getD 0
    | none => 0
  else ((scanAt r l).map fun p => out p.1).getD 0

/-- WSCAN.iadd (R195). -/
def execWscanIadd (f : FmtA) (s : State) : Result :=
  let e := s.execSet f.cond
  let r := scanUp (fun a b : Int => (a + b, 0)) (fun l => readInt (wuOf f) 32 (s.a32 f l)) none (lanesOf e)
  s.alu f (scanOut (f.md.getLsbD 5) e r (storeInt (wuOf f) (wsatOf f) 32)) fun l => s.codes l

/-- WSCAN.fadd (R195). DESIGN CHOICE (log entry 51): with .excl the step of the highest executing lane, whose value no lane
receives, is made all the same, and its flags are raised against that lane. -/
def execWscanFadd (f : FmtA) (s : State) : Result :=
  let e := s.execSet f.cond
  let r := scanUp (fun a b : Nat => let c := fAdd f32 (rmOf f) a b; (c.bits, c.fl)) (s.srcF f f32 f.sa) none (lanesOf e)
  (s.setV f.dst.toNat e fun l => BitVec.ofNat 32 (scanOut (f.md.getLsbD 5) e r id l)).retireFloat e
    (fun l => ((scanAt r l).map (·.2)).getD 0) (fmtLen f) 36

/-! ### Mask arithmetic (R196) -/

/-- A source of MLOP: a field of 0 with kind 0 reads as zero. -/
def State.mlopSrc (s : State) (f : FmtA) (o : Src) : Word :=
  match o with
  | .lane _ => 0
  | o => s.usrc32 f o

/-- MLOP (R196). -/
def execMlop (f : FmtA) (s : State) : Result :=
  (s.writeMask f (s.execSet f.cond) (lop3 f.md (s.mlopSrc f f.sa) (s.mlopSrc f f.sb) (s.mlopSrc f f.sc))).retire f

end Sys2Proof.Machine
end

