-- ==== Sys2Proof/Machine/Faults.lean ====
section
/-! DEFINITION. Issue of long-latency words into the operand log (R34, R43 to R45, R456), lane faults and their
records (R454 to R461), replay (R457) and the unresolved-fault trap (R461, R465). -/

namespace Sys2Proof.Machine

/-! ### Operands kept in the log (R456) -/

/-- The lane registers, and the uniform registers, that an operand of `n` registers reads. -/
def laneRegs (o : Src) (n : Nat) : List Nat :=
  match o with
  | .lane k => (List.range n).map (k.toNat + ·)
  | _ => []

/-- The uniform values that an operand of `n` registers reads; a mask is one value (R48). -/
def State.uniVals (s : State) (o : Src) (n : Nat) : List Word :=
  match o with
  | .uni k => (List.range n).map fun i => s.u (k.toNat + i)
  | .mask k => [s.m k.toNat]
  | _ => []

/-- Register i of operand values that begin at an offset. -/
def nth0 (xs : List Word) (i : Nat) : Word := (xs[i]?).getD 0

/-- How many lane values, and uniform values, an operand takes in the log. -/
def laneWidth (o : Src) (n : Nat) : Nat :=
  match o with
  | .lane _ => n
  | _ => 0
def uniWidth (o : Src) (n : Nat) : Nat :=
  match o with
  | .uni _ => n
  | .mask _ => 1
  | _ => 0

/-- Operand j of a word: 0 SA, 1 SB, 2 SC. -/
def srcOf (f : FmtA) (j : Nat) : Src := if j = 0 then f.sa else if j = 1 then f.sb else f.sc

/-- Where operand j stands among the log's lane values, and uniform values. -/
def Op.laneAt (o : Op) (j : Nat) : Nat :=
  ((List.range j).map fun i => laneWidth (srcOf o.f i) ((o.wid[i]?).getD 0)).sum
def Op.uniAt (o : Op) (j : Nat) : Nat :=
  ((List.range j).map fun i => uniWidth (srcOf o.f i) ((o.wid[i]?).getD 0)).sum

/-- Register i of operand j for lane l, as the log holds it. -/
def Op.reg (o : Op) (j i l : Nat) : Word :=
  match srcOf o.f j with
  | .lane _ => nth0 ((o.lv[l]?).getD []) (o.laneAt j + i)
  | .uni _ => nth0 o.uv (o.uniAt j + i)
  | .mask _ => if i = 0 then nth0 o.uv (o.uniAt j) else 0
  | .imm b => (b.signExtend 128).extractLsb' (32 * i) 32
  | .litS => ((litOf o.f).signExtend 128).extractLsb' (32 * i) 32
  | .litZ => if i = 0 then litOf o.f else 0
  | .zero => 0
  | .laneIdx => if i = 0 then BitVec.ofNat 32 l else 0

def Op.val32 (o : Op) (j l : Nat) : Word := o.reg j 0 l
def Op.val64 (o : Op) (j l : Nat) : Word64 := join2 (o.reg j 0 l) (o.reg j 1 l)
def Op.val128 (o : Op) (j l : Nat) : Word128 := join4 (o.reg j 0 l) (o.reg j 1 l) (o.reg j 2 l) (o.reg j 3 l)

/-- The base address of a word for lane l (R54). -/
def Op.base (o : Op) (l : Nat) : Nat := if o.x.space = 0 then (o.val64 0 l).toNat else (o.val32 0 l).toNat

/-! ### Issue (R34, R43, R44) -/

/-- A word that issues, with its operands captured. -/
def State.mkOp (s : State) (code : Nat) (f : FmtA) (x : Upper) (wid : List Nat) (e : LaneMask) : Op :=
  let wd (j : Nat) : Nat := (wid[j]?).getD 0
  { id := s.nextId, warp := s.w.id, wg := s.g.id, code := code, f := f, x := x, pc := s.pc,
    mid := s.midHere.getD { hdr := 0, left := 0 }, e := e, wid := wid,
    lv := (List.range 32).map fun l =>
      (laneRegs f.sa (wd 0) ++ laneRegs f.sb (wd 1) ++ laneRegs f.sc (wd 2)).map fun r => s.v r l,
    uv := s.uniVals f.sa (wd 0) ++ s.uniVals f.sb (wd 1) ++ s.uniVals f.sc (wd 2),
    inH := s.w.inHandler, flag := s.flagFor f, cls := none }

/-- The operation enters the warp's list of outstanding operations: its flag is set, its class counts it, and the
scoreboard holds its destinations (R34, R43, R45). -/
def State.addOut (s : State) (op : Op) (vdst wdst : List Nat) (glob : Bool := false) : State :=
  let num := match op.cls with
    | some c => s.w.clsN.get 0 c.code + 1
    | none => 0
  { s with
    nextId := op.id + 1
    w := { s.w with
      outs := s.w.outs ++ [{ id := op.id, flag := op.flag, cls := op.cls, done := false, vdst := vdst, wdst := wdst,
                             glob := glob, num := num }]
      clsN := match op.cls with
        | some c => s.w.clsN.set 0 c.code num
        | none => s.w.clsN } }

/-- The first free entry of the core's operand log of 96 (R456). -/
def State.freeLog (s : State) : Option Nat := (List.range 96).find? fun k => !(s.c.log.any fun p => p.1 == k)
def State.takeLog (s : State) (k id : Nat) : State := { s with c := { s.c with log := s.c.log ++ [(k, id)] } }
def State.dropLog (s : State) (k : Option Nat) : State :=
  match k with
  | some k => { s with c := { s.c with log := s.c.log.filter fun p => p.1 != k } }
  | none => s

/-- Consecutive registers. -/
def regs (r : BitVec 8) (n : Nat) : List Nat := (List.range n).map (r.toNat + ·)

/-- A word refused issue by a full operand log: nothing happens but the count (R456, R494). -/
def State.refuseLog (s : State) : Result := .next (s.count 0x09)

/-! ### Parking (R455) -/

/-- Lanes of a table park at an address; an exited lane stays exited. -/
def parkTable (t : List LaneEnt) (set : LaneMask) (pc : Nat → Word64) (mid : Option Mid) (via : Option Word64) :
    List LaneEnt :=
  t.mapIdx fun l e =>
    if inSet set l && decide (e.st ≠ .exited) then { st := .parked, bidx := 0, pc := pc l, mid := mid, via := via } else e

/-- Lanes that leave every ARR. -/
def leaveArr (t : Sparse Rcb) (set : LaneMask) : Sparse Rcb :=
  (List.range 8).foldl (fun t b => let r := t.get {} b; t.set {} b { r with arr := r.arr &&& ~~~set }) t

/-- Lanes park in the live table, or in the trap shadow where the word issued before the trap being handled
(R455, R465). A lane that waits at a barrier or is held has not arrived: it leaves ARR and HOLD. -/
def Warp.park (w : Warp) (shadow : Bool) (set : LaneMask) (pc : Nat → Word64) (mid : Option Mid)
    (via : Option Word64 := none) : Warp :=
  match shadow, w.shadow with
  | true, some h =>
    { w with shadow := some { h with
        lanes := parkTable h.lanes set pc mid via, rcb := leaveArr h.rcb set,
        sync := { h.sync with hold := h.sync.hold &&& ~~~set } } }
  | _, _ =>
    { w with
      lanes := parkTable w.lanes set pc mid via, rcb := leaveArr w.rcb set,
      sync := { w.sync with hold := w.sync.hold &&& ~~~set },
      run := w.run.map fun r => { r with mask := r.mask &&& ~~~set } }

/-- Lanes park where they stand, past a word that is translated afresh (R480): those that are ready, and not held (log entry 56). -/
def stayTable (t : List LaneEnt) (hold set : LaneMask) (run : Option Run) : List LaneEnt :=
  t.mapIdx fun l e =>
    if inSet set l && decide (e.st = .ready) && !(inSet hold l) then
      match run with
      | some r =>
        if inSet r.mask l then { e with st := .parked, pc := r.pc, mid := some { hdr := r.hdr, left := r.left }, via := none }
        else { e with st := .parked }
      | none => { e with st := .parked }
    else e
def Warp.parkStay (w : Warp) (shadow : Bool) (set : LaneMask) : Warp :=
  match shadow, w.shadow with
  | true, some h => { w with shadow := some { h with lanes := stayTable h.lanes h.sync.hold set none } }
  | _, _ => { w with lanes := stayTable w.lanes w.sync.hold set w.run, run := w.run.map fun r => { r with mask := r.mask &&& ~~~set } }

/-- Whether the lanes of an operation stand in the trap shadow. -/
def Op.inShadow (o : Op) (w : Warp) : Bool := w.inHandler && !o.inH

/-- Parked lanes become ready where they stand. -/
def unparkTable (t : List LaneEnt) (set : LaneMask) : List LaneEnt :=
  t.mapIdx fun l e => if inSet set l && decide (e.st = .parked) then { e with st := .ready } else e
def Warp.unpark (w : Warp) (shadow : Bool) (set : LaneMask) : Warp :=
  match shadow, w.shadow with
  | true, some h => { w with shadow := some { h with lanes := unparkTable h.lanes set } }
  | _, _ => { w with lanes := unparkTable w.lanes set }

/-- Lanes that are parked in the table where an operation's lanes stand. -/
def Warp.parkedIn (w : Warp) (shadow : Bool) : LaneMask :=
  let t := match shadow, w.shadow with
    | true, some h => h.lanes
    | _, _ => w.lanes
  laneSet fun l => match t[l]? with
    | some e => decide (e.st = .parked)
    | none => false

/-! ### Fault records of a word (R454, R459, R461) -/

/-- A lane's fault: its kind, its status code and its address (R454). -/
structure LaneFault where
  lane : Nat
  kind : Nat
  st   : Nat
  va   : Nat
  deriving DecidableEq, Repr

/-- One record for each distinct pair of kind and 4 KB page, in the order of their first lanes: the first lane's
fault and the lanes of the group. -/
def groupFaults (fs : List LaneFault) : List (LaneFault × LaneMask) :=
  fs.foldl (fun gs f =>
    let same (p : LaneFault × LaneMask) : Bool := p.1.kind == f.kind && p.1.va / 4096 == f.va / 4096
    let m : LaneMask := (1 : LaneMask) <<< f.lane
    if gs.any same then gs.map fun p => if same p then (p.1, p.2 ||| m) else p
    else gs ++ [(f, m)]) []

/-- The lanes of a list of faults. -/
def faultLanes (fs : List LaneFault) : LaneMask := laneSet fun l => fs.any fun f => f.lane == l

/-- One record of a word, written or waiting, and the mark that the entry awaits its settlement. ACC is bit 0 for
a read, 1 for a write, 2 for a fetch and 3 for an atomic (R459). -/
def State.faultRec (s : State) (op : Op) (acc : Nat) (f : LaneFault) (lanes : LaneMask) : State × RecMark :=
  let seq := match s.ctx with
    | some k => k.fqSeq
    | none => 0
  let s1 := s.record (s.recordHere
    { va := f.va, epc := op.pc.toNat, lmask := lanes, pcm := op.pcm, chunk := op.chunk,
      logi := op.logi.getD 0xFFFF, acc := acc, st := f.st, kind := f.kind })
  (s1.updCtx fun k => { k with unsettled := k.unsettled ++
      [{ seq := seq, slot := s.w.slot, kind := f.kind, op := op.id, warp := op.warp, va := f.va,
         read := acc % 2 == 1, write := (acc / 2) % 2 == 1, exec := (acc / 4) % 2 == 1, since := s.time }] },
    { seq := seq, kind := f.kind, settled := none })

/-- The lanes of a word that fault park at the word, with their records (R455, R461). The operation as its log
entry holds it afterwards. -/
def State.faultOp (s : State) (op : Op) (acc : Nat) (fs : List LaneFault) : State × Op :=
  let set := faultLanes fs
  let s1 : State := { s with w :=
    if op.again then s.w.parkStay (op.inShadow s.w) set else s.w.park (op.inShadow s.w) set (fun _ => op.pc) (some op.mid) }
  let s2 := s1.count 0x08 fs.length
  let r := (groupFaults fs).foldl (fun (p : State × List RecMark) g =>
    let q := p.1.faultRec op acc g.1 g.2
    (q.1, p.2 ++ [q.2])) (s2, [])
  (r.1, { op with park := op.park ||| set, st := .parked, recs := op.recs ++ r.2 })

/-- A word's lanes that fetch from a target park there (R114, R455): no log entry, one record each page. -/
def State.parkFetch (s : State) (fs : List LaneFault) (via : Option Word64) (mid : Option Mid) : State :=
  (groupFaults fs).foldl (fun s g =>
    let pc := BitVec.ofNat 64 g.1.va
    let op : Op := { id := s.nextId, warp := s.w.id, wg := s.g.id, code := 0,
                     f := { cond := .always, fsel := false, wcc := false, neg := false, md := 0, dst := 0, sa := .lane 0,
                            sb := .lane 0, sc := .lane 0, lit := none },
                     x := { ext := 0, racq := false, gsel := 0, rch := 0, offset := 0, space := 0, evp := 0, scope := 0,
                            ord := 0 },
                     pc := pc, mid := mid.getD { hdr := pc, left := 0 }, e := g.2, lv := [], uv := [], flag := none,
                     cls := none, inH := s.w.inHandler }
    let mine := fs.filter fun f => inSet g.2 f.lane
    let s1 : State := { s with
      nextId := s.nextId + 1
      w := s.w.park false g.2 (fun l => BitVec.ofNat 64 (((mine.find? fun f => f.lane == l).map (·.va)).getD g.1.va)) mid via }
    let r := (s1.count 0x08 mine.length).faultRec op 4 g.1 g.2
    { r.1 with w := { r.1.w with
        parked := r.1.w.parked ++ [{ op with park := g.2, st := .parked, recs := [r.2] }] } }) s

/-! ### Finding an operation -/

/-- Where an operation may stand on a core or a die: the engine queues. -/
def Core.ops (c : Core) : List Op := c.copyq ++ c.mtxq ++ c.rayq ++ c.rsvq
def Die.ops (d : Die) : List Op := d.loessQ ++ d.radq

/-- Every operation of the machine that has issued and is not complete. -/
def State.allOps (s : State) : List Op :=
  (s.warps.flatMap fun w => w.pend ++ w.parked ++ w.waits) ++ ((s.c :: s.cs).flatMap Core.ops)
    ++ s.dies.flatMap Die.ops

def State.findOp (s : State) (id : Nat) : Option Op := s.allOps.find? fun o => o.id == id

/-- The operation in focus by identity, with its warp and its core. -/
def State.focusOp (s : State) (id : Nat) : Option (Op × State) :=
  (s.findOp id).bind fun o => (s.focus o.warp).map fun s0 => (o, s0)

/-- An operation changed, or removed where `g` gives none, wherever it stands. -/
def mapOps (id : Nat) (g : Op → Option Op) (os : List Op) : List Op :=
  os.filterMap fun o => if o.id = id then g o else some o
def Warp.mapOp (w : Warp) (id : Nat) (g : Op → Option Op) : Warp :=
  { w with pend := mapOps id g w.pend, parked := mapOps id g w.parked, waits := mapOps id g w.waits }
def Core.mapOp (c : Core) (id : Nat) (g : Op → Option Op) : Core :=
  { c with copyq := mapOps id g c.copyq, mtxq := mapOps id g c.mtxq, rayq := mapOps id g c.rayq,
           rsvq := mapOps id g c.rsvq }
def Die.mapOp (d : Die) (id : Nat) (g : Op → Option Op) : Die :=
  { d with loessQ := mapOps id g d.loessQ, radq := mapOps id g d.radq }
def State.mapOp (s : State) (id : Nat) (g : Op → Option Op) : State :=
  { s with w := s.w.mapOp id g, ws := s.ws.map fun w => w.mapOp id g, c := s.c.mapOp id g,
           cs := s.cs.map fun c => c.mapOp id g, dies := s.dies.map fun d => d.mapOp id g }
def State.putOp (s : State) (o : Op) : State := s.mapOp o.id fun _ => some o

/-! ### Ends of a hold -/

/-- The hold of a warp ends (R264): HOLD becomes 0, its words are complete and its lanes are ready where they stand.
In a handler the hold lies in the trap shadow (R465). -/
def Warp.endHold (w : Warp) (shadow : Bool) : Warp :=
  let go (w : Warp) (y : Sync) : Warp := y.ids.foldl Warp.finish w
  match shadow, w.shadow with
  | true, some h => go { w with shadow := some { h with sync := {} } } h.sync
  | _, _ => go { w with sync := {} } w.sync

/-- The hold of a warp, live or in the shadow, that `p` selects. -/
def Warp.holdWhere (w : Warp) (p : Sync → Bool) : Option (Bool × Sync) :=
  if decide (w.sync.hold ≠ 0) && p w.sync then some (false, w.sync)
  else
    match w.shadow with
    | some h => if decide (h.sync.hold ≠ 0) && p h.sync then some (true, h.sync) else none
    | none => none

/-! ### WAITC (R257, R279) -/

/-- The counters that a class of WAITC names are at most its threshold. -/
def Warp.waitcHolds (w : Warp) (cls thr : Nat) : Bool :=
  [Cls.copy, .mtx, .ray, .rsv, .rad, .rem].all fun c =>
    !(decide (cls = 6) || decide (cls = c.code)) || decide (w.ocnt c ≤ thr)

/-- The engine writes that a WAITC counts: all but the THR latest of their class. -/
def Warp.waitcCounts (w : Warp) (cls thr : Nat) (p : Nat × Nat) : Bool :=
  (decide (cls = 6) || decide (cls = p.1)) && decide (p.2 + thr ≤ w.clsN.get 0 p.1)

/-- The writes of reservoir operations that a WAITC of the warp in focus has counted (R377). -/
def State.countRsv (s : State) (counts : Nat × Nat → Bool) : State :=
  s.updCtx fun k => { k with rsvOpen := k.rsvOpen.map fun r =>
    if r.warp = s.w.id ∧ counts (Cls.rsv.code, r.num) = true then { r with counted := true } else r }

/-- Some of them are released, and stand for every warp (R377, R557): with a write go the older ones to its place. -/
def dropOpen (gone : RsvWrite → Bool) : List RsvWrite → List RsvWrite
  | [] => []
  | r :: rs =>
    if gone r || rs.any fun q => gone q && q.die == r.die && q.halo == r.halo && q.key == r.key then dropOpen gone rs
    else r :: dropOpen gone rs
def State.releaseRsv (s : State) (gone : RsvWrite → Bool) : State :=
  s.updCtx fun k => { k with rsvOpen := dropOpen gone k.rsvOpen }

/-- A hold at WAITC ends once its counters allow (R279); with an engine write newly counted, the core's clean L1
sectors of the context are dropped (R257). -/
def State.waitcCheck (s : State) : State :=
  if s.w.sync.kind = .waitc ∧ s.w.sync.hold ≠ 0 ∧ s.w.waitcHolds s.w.sync.bnum s.w.sync.thr then
    let counts := s.w.waitcCounts s.w.sync.bnum s.w.sync.thr
    let s1 := if s.w.gdone.any counts then s.dropL1 s.g.die (s.l1Cores s.g.die s.g.core) else s
    let s2 := if s1.ctx.any fun k => !k.rsvOpen.isEmpty then s1.countRsv counts else s1
    { s2 with w := { s2.w with gdone := s2.w.gdone.filter fun p => !(counts p) }.endHold false }
  else s

/-- An operation of the warp in focus is complete. -/
def State.complete (s : State) (id : Nat) : State := { s with w := s.w.finish id }.waitcCheck

/-! ### Operands of the log that several parts of a word share (R456) -/

/-- The place of an operation in its warp's order (R458). -/
def Op.place (o : Op) : Nat := if o.ord = 0 then o.id else o.ord

/-- The entry of an operation is freed, unless another part of its word still holds it. -/
def State.letLog (s : State) (o : Op) : State :=
  if (s.w.pend ++ s.w.parked).any fun p => decide (p.id ≠ o.id) && o.logi.isSome && decide (p.logi = o.logi) then s
  else s.dropLog o.logi

/-! ### The unresolved-fault trap (R461, R465) -/

/-- The kind of the earliest record settled Fail. -/
def Op.failKind (o : Op) : Nat := ((o.recs.find? fun r => r.settled == some false).map (·.kind)).getD 0

/-- Entries of the warp that have failed and whose trap may be taken, lowest log entry first: inside a handler those that the
handler reserved alone (R465). -/
def Warp.failedOp (w : Warp) : Option Op :=
  (w.parked.filter fun o => decide (o.st = .failed) && (!w.inHandler || o.inH)).foldl (fun b o =>
    match b with
    | none => some o
    | some p => if o.logi.getD 0xFFFF < p.logi.getD 0xFFFF then some o else some p) none

/-- The trap of a failed entry, which is freed: its lanes stand ready at the word in the shadow (R490). A warp that has ended
issues nothing and takes no trap. Inside a handler the trap of an entry that the handler reserved ends the context; another
entry's waits (R465). -/
def State.failTrap (s : State) : State :=
  match s.w.failedOp with
  | none => s
  | some o =>
    if s.w.ended then
      let s0 := s.letLog o
      { s0 with w := { s0.w with parked := s0.w.parked.filter fun p => p.id != o.id } }
    else
      let s0 := s.letLog o
      let w1 := { s0.w with parked := s0.w.parked.filter fun p => p.id != o.id }
      let s1 : State := { s0 with w := w1.unpark false o.park }
      s1.warpTrap 0x0D (infoWord o.failKind 0) o.park o.park o.pc none

/-! ### Settlement (R457, R461, R543) -/

/-- Every record of the entry is settled Resume: the acquire steps of scope 5 run on its core and its lanes
become ready at the word (R457, R543). A parked fetch is checked again when it is fetched. An engine operation whose lanes
have all exited goes on of itself, and so does an access that a shoot-down has had translated afresh. -/
def State.resumeOp (s : State) (o : Op) : State :=
  let s1 := s.acquireSteps s.g.die s.g.core 5
  let s2 : State := { s1 with w := s1.w.unpark (o.inShadow s1.w) o.park }
  if o.code = 0 then s2.mapOp o.id fun _ => none
  else if o.again then
    let w1 := { s2.w with parked := s2.w.parked.filter fun p => p.id != o.id }
    { s2 with w := { w1 with pend := w1.pend ++ [{ o with st := .queued, park := 0, recs := [], xl := [] }] } }
  else if o.park &&& s1.w.parkedIn (o.inShadow s1.w) = 0 then
    s2.putOp { o with park := 0, recs := [], st := if 0x146 ≤ o.code ∧ o.code ≤ 0x15B then .queued else .running }
  else s2.putOp { o with st := .resumable }

/-- An operation that has ended without its inputs gives up its places on the channels of its workgroup, which is in focus. -/
def State.leavePlaces (s : State) (id : Nat) : State :=
  { s with g := { s.g with ch := s.g.ch.map fun p => (p.1, { p.2 with ins := p.2.ins.filter fun i => i.op != id }) } }

/-- An entry with a record settled Fail: the operation ends for its parked lanes, and the trap follows or waits
for the handler's return; the entry is kept until the trap is taken (R456, R465). Lanes of it that run on keep it too. -/
def State.failOp (s : State) (o : Op) : State :=
  let rest := o.e &&& ~~~o.pcm &&& ~~~o.park
  let failed : Op := { o with st := .failed, id := s.nextId, ord := o.place }
  let s0 : State := { s with nextId := s.nextId + 1 }
  let s1 := if rest = 0 then (s0.mapOp o.id fun _ => none).leavePlaces o.id
    else s0.putOp { o with e := o.e &&& ~~~o.park, park := 0, recs := [], st := .running }
  let s2 : State := { s1 with w :=
    let w := if rest = 0 then s1.w.finish o.id else s1.w
    { w with parked := w.parked ++ [failed] } }
  s2.waitcCheck.failTrap

/-- One record settled (R461): the entry acts once every one of its records has been settled. -/
def State.settleRec (s : State) (seq : Nat) (resume : Bool) : State :=
  match s.ctx.bind fun k => k.unsettled.find? fun r => r.seq == seq with
  | none => s
  | some r =>
    let s1 := s.updCtx fun k => { k with unsettled := k.unsettled.filter fun x => x.seq != seq }
    match s1.findOp r.op, s1.focus r.warp with
    | some o, some s2 =>
      let o1 := { o with recs := o.recs.map fun m => if m.seq = seq then { m with settled := some resume } else m }
      if o1.recs.any fun m => m.settled == none then s2.putOp o1
      else if o1.recs.all fun m => m.settled == some true then s2.resumeOp o1
      else s2.failOp o1
    | _, _ => s1

end Sys2Proof.Machine
end

