-- ==== Sys2Proof/Machine/Pointers.lean ====
section
/-! DEFINITION. Channel pointers, reservations and inputs (R280 to R287), and the words that wait on them (R294, R297). -/

namespace Sys2Proof.Machine

/-- The size of a channel in bytes (R280). -/
def Chan.size (c : Chan) : Nat := 256 * 2 ^ c.lsz

/-- A difference of pointers (R282). -/
def ptrDiff (a b : Word) : Nat := (a - b).toNat

def Chan.fill (c : Chan) : Nat := ptrDiff c.wp c.cp
def Chan.used (c : Chan) : Nat := ptrDiff c.pp c.cp

/-- The scratch offset of the byte at a pointer (R282). -/
def Chan.offset (c : Chan) (p : Nat) : Nat := c.base + p % c.size

/-- An output operation reserves n bytes (R283): the pointer it takes, and the channel afterwards. -/
def Chan.reserve (c : Chan) (op warp n : Nat) (byPub : Bool) : Nat × Chan :=
  let r : Resv := { op := op, warp := warp, p := c.pp.toNat, n := n, byPub := byPub }
  (c.pp.toNat, { c with pp := c.pp + BitVec.ofNat 32 n, outs := c.outs ++ [r] })

/-- A reservation may fire: CP ≥ p + n − S (R283). -/
def Chan.mayFire (c : Chan) (r : Resv) : Bool := decide (ptrDiff (BitVec.ofNat 32 (r.p + r.n)) c.cp ≤ c.size)

/-- WP advances through the reservations in their order (R284). -/
def Chan.advanceWp (c : Chan) : Nat → Chan
  | 0 => c
  | n + 1 =>
    match c.outs with
    | [] => c
    | r :: rs =>
      if r.fired && r.complete then
        ({ c with wp := BitVec.ofNat 32 (r.p + r.n), outs := rs } : Chan).advanceWp n
      else if r.fired && !r.byPub then { c with wp := BitVec.ofNat 32 (r.p + r.done) } else c

def Chan.settle (c : Chan) : Chan := c.advanceWp (c.outs.length + 1)

/-- A reservation changed, by its operation and pointer. -/
def Chan.mapResv (c : Chan) (op p : Nat) (g : Resv → Resv) : Chan :=
  { c with outs := c.outs.map fun r => if r.op = op ∧ r.p = p then g r else r }

/-- An operation's bytes of a reservation up to `done` are in their banks (R284). -/
def Chan.deliver (c : Chan) (op p done : Nat) : Chan :=
  (c.mapResv op p fun r => { r with done := done, complete := decide (r.n ≤ done) }).settle

/-- CP moves past n bytes that an input operation has taken (R285). -/
def Chan.consume (c : Chan) (n : Nat) : Chan := { c with cp := c.cp + BitVec.ofNat 32 n }

/-- The channel of the workgroup in focus. -/
def State.chan (s : State) (k : Nat) : Chan := s.g.ch.get {} k
def State.setChan (s : State) (k : Nat) (c : Chan) : State := { s with g := { s.g with ch := s.g.ch.set {} k c } }
def State.mapChan (s : State) (k : Nat) (g : Chan → Chan) : State := s.setChan k (g (s.chan k))

/-- CH and MODE of EXT of the channel and copy class (R291). -/
def chOf (x : Upper) : Nat := x.ext.toNat % 16
def modeOf (x : Upper) : Nat := x.ext.toNat / 16 % 16

/-- CH of EXT of the matrix class (R315). -/
def mtxCh (x : Upper) : Nat := x.ext.toNat / 2 ^ 15 % 16

/-- The channel that an engine operation names (R292, R316). -/
def Op.chanNamed (o : Op) : Option Nat :=
  if 0x146 ≤ o.code ∧ o.code ≤ 0x14B then (if o.x.space = 2 then some (chOf o.x) else none)
  else if o.code = 0x153 ∨ o.code = 0x154 then some (mtxCh o.x)
  else if o.code = 0x150 ∨ o.code = 0x156 then (if o.x.space = 2 then some (mtxCh o.x) else none)
  else none

/-- The uniform register of a warp written, and the operation that wrote it complete. -/
def State.answerU (s : State) (o : Op) (x : Word) : State :=
  s.updWarp o.warp fun w =>
    ({ w with u := w.u.set 0 o.f.dst.toNat x, waits := w.waits.filter fun p => p.id != o.id } : Warp).finish o.id

/-- Words of the workgroup in focus that wait, by opcode. -/
def State.waiting (s : State) (code : Nat → Bool) : List Op :=
  s.warps.flatMap fun w => if w.wg = s.g.id then w.waits.filter fun o => code o.code else []

/-- The condition of a CHWAIT (R297). -/
def Chan.waitMet (c : Chan) (o : Op) : Bool :=
  if modeOf o.x = 0 then decide ((o.val32 1 0).toNat ≤ c.fill) else decide (c.used + (o.val32 1 0).toNat ≤ c.size)

/-- CHWAIT samples its pointer in the first clock in which its condition holds (R286, R297). -/
def State.sampleWaits (s : State) : State :=
  (s.waiting fun c => c == 0x145).foldl (fun s o =>
    let c := s.chan (chOf o.x)
    if o.aux.isEmpty && c.waitMet o then
      s.putOp { o with aux := [(if modeOf o.x = 0 then c.wp else c.pp).toNat] }
    else s) s

/-- CHDEF and CHRST take effect once no engine operation of the workgroup names the channel and no input operation is
on it: unpublished reservations are discarded, and all pointers become 0 (R294). DESIGN CHOICE (log entry 50): a reservation of
CHPROD.rsv that has been published but has not fired goes with them, and its word writes 0xFFFFFFFF as well. -/
def State.applyDefs (s : State) : State :=
  (s.waiting fun c => c == 0x140 || c == 0x141).foldl (fun s o =>
    let k := chOf o.x
    let c := s.chan k
    if c.ins.isEmpty && !(s.c.ops.any fun p => p.wg == s.g.id && p.chanNamed == some k) then
      let lost := c.outs.filter fun r => r.byPub && !r.fired
      let s1 := lost.foldl (fun s r => match s.findOp r.op with
        | some p => s.answerU p 0xFFFFFFFF
        | none => s) s
      let size := (o.val32 1 0).toNat
      let c1 : Chan :=
        if o.code = 0x141 then { dfn := c.dfn, lsz := c.lsz, base := c.base }
        else if size = 0 then {}
        else { dfn := true, lsz := Nat.log2 size - 8, base := (o.val32 0 0).toNat }
      (s1.setChan k c1).updWarp o.warp fun w =>
        ({ w with waits := w.waits.filter fun p => p.id != o.id } : Warp).finish o.id
    else s) s

/-- What follows at once from a change of the workgroup's channels. -/
def State.chanCheck (s : State) : State := s.sampleWaits.applyDefs.sampleWaits

/-- Pending CHPROD.pub words of a warp on a channel. -/
def Warp.pubs (w : Warp) (k : Nat) : Nat :=
  w.pend.countP fun o => decide (o.code = 0x142) && decide (chOf o.x = k)

/-- CHPROD.pub, its turn come, completes the warp's oldest unpublished reservation (R295). -/
def State.publish (s : State) (o : Op) : State :=
  let k := chOf o.x
  let c := s.chan k
  match c.outs.find? fun r => r.byPub && r.warp == o.warp && !r.complete with
  | some r => (s.setChan k (c.mapResv r.op r.p fun r => { r with complete := true }).settle).chanCheck
  | none => s

end Sys2Proof.Machine
end

