-- ==== Sys2Proof/Machine/Launches.lean ====
section
/-! DEFINITION. Launches and graphs as the hub keeps them: their numbers (R425), dependences (R423, R433), workgroup events
(R430, R431, R448), completion (R432, R435), and the words that wait for them (R449, R450). -/

namespace Sys2Proof.Machine

/-! ### Numbers (R425) -/

/-- Numbers run from 1 to this and begin again at 1. -/
def numMod : Nat := 2 ^ 32 - 1

/-- The k-th number that a context issues. -/
def numOf (k : Nat) : Nat := (k - 1) % numMod + 1

/-- How many numbers have been issued. -/
def Ctx.issued (k : Ctx) : Nat := k.nextNum - 1

/-- How many numbers have been issued after a number. -/
def Ctx.ageOf (k : Ctx) (x : Nat) : Nat := (numOf k.issued + numMod - x) % numMod

def Ctx.wasIssued (k : Ctx) (x : Nat) : Bool := decide (1 ≤ x) && decide (k.ageOf x < k.issued)

def Ctx.launchOf (k : Ctx) (x : Nat) : Option Launch := k.launches.find? fun l => l.num == x
def Ctx.graphOf (k : Ctx) (x : Nat) : Option Graph := k.graphs.find? fun g => g.num == x

/-- The launch of the running context with a number. -/
def State.launchOf (s : State) (num : Nat) : Option Launch := s.ctx.bind fun k => k.launchOf num
def State.graphOf (s : State) (num : Nat) : Option Graph := s.ctx.bind fun k => k.graphOf num

def State.updLaunch (s : State) (num : Nat) (f : Launch → Launch) : State :=
  s.updCtx fun k => { k with launches := k.launches.map fun l => if l.num = num then f l else l }
def State.updGraph (s : State) (num : Nat) (f : Graph → Graph) : State :=
  s.updCtx fun k => { k with graphs := k.graphs.map fun g => if g.num = num then f g else g }

/-- The state that the hub keeps after a number is issued: that of every incomplete number and of the 65,536 latest. -/
def Ctx.forget (k : Ctx) : Ctx :=
  { k with launches := k.launches.filter fun l => !l.complete || decide (k.ageOf l.num < 65536),
           graphs := k.graphs.filter fun g => !g.complete || decide (k.ageOf g.num < 65536) }

/-- Incomplete launches and graphs. -/
def Ctx.incomplete (k : Ctx) : Nat := k.launches.countP (!·.complete) + k.graphs.countP (!·.complete)

/-! ### Dependences (R423, R433) -/

/-- A dependence entry. -/
structure Dep where
  kind : Nat
  pln  : Nat
  a    : Nat
  b    : Int
  c    : Int
  deriving DecidableEq, Repr

/-- DEP0 or DEP1 of a launch record. -/
def lrDep (r : BitVec 2048) (i : Nat) : Dep :=
  let o := 768 + 128 * i
  { kind := lrField r (o + 32) 2, pln := lrField r o 32, a := lrField r (o + 48) 16,
    b := (r.extractLsb' (o + 64) 32).toInt, c := (r.extractLsb' (o + 96) 32).toInt }
def lrDeps (r : BitVec 2048) : List Dep := [lrDep r 0, lrDep r 1]

/-- The event of a workgroup of a launch has occurred, or counts as occurred (R432). -/
def Launch.occurred (l : Launch) (i : Nat) : Bool :=
  l.complete || decide (l.reason ≠ 0) || l.events.contains i || (l.cancelled && !l.started.contains i)

/-- A number is complete; one whose state is no longer kept counts as complete (R425). -/
def Ctx.numDone (k : Ctx) (x : Nat) : Bool :=
  match k.launchOf x, k.graphOf x with
  | some l, _ => l.complete
  | none, some g => g.complete
  | none, none => true

/-- The events that an entry names for workgroup j have occurred (R433). Only a launch has workgroups to name. -/
def Ctx.depMet (k : Ctx) (d : Dep) (j : Nat) : Bool :=
  if d.kind = 0 then true
  else if d.kind = 1 then k.numDone d.pln
  else
    match k.launchOf d.pln with
    | none => true
    | some p =>
      let np := lrNwg p.lrec
      if d.kind = 2 then decide (np ≤ j) || p.occurred j
      else
        let lo : Int := max 0 ((d.a : Int) * j + d.b)
        let hi : Int := min ((np : Int) - 1) ((d.a : Int) * j + d.c)
        (List.range (hi + 1 - lo).toNat).all fun i => p.occurred (lo.toNat + i)

/-- Workgroup j of a launch is ready (R426, R433). -/
def Ctx.ready (k : Ctx) (l : Launch) (j : Nat) : Bool := (lrDeps l.lrec).all fun d => k.depMet d j

/-! ### Completion (R432, R435) -/

/-- Every core of the dies of a mask carries out the release steps for the context. -/
def State.dieRelease (s : State) (aff scope : Nat) : State :=
  (List.range 4).foldl (fun s v =>
    if aff.testBit v ∧ v < s.ndie then
      let cores := ((s.c :: s.cs).filter fun c => c.die == v).map (·.num)
      (0 :: cores).foldl (fun s n => s.releaseSteps v n scope) s
    else s) s

/-- The launch has nothing more to wait for. -/
def Ctx.finished (k : Ctx) (l : Launch) : Bool :=
  !l.complete &&
    (if l.reason ≠ 0 then true
     else if lrNwg l.lrec = 0 then
       l.cancelled || (lrDeps l.lrec).all fun d => decide (d.kind = 0) || k.numDone d.pln
     else decide (l.events.length = l.started.length) && (l.cancelled || decide (l.started.length = lrNwg l.lrec)))

/-- A release at scope 5 or wider waits for writes that memory channels hold (R485): those to the context's pages. -/
def State.writesHeld (s : State) : Bool :=
  s.dies.any fun d => d.held.any fun h => h.ctx == s.ctxNum || s.ctx.any fun k => s.mapsFrame k d.phys h.addr

/-- A dirty byte of the context, in an L1 of a core's or in its die's guest partition, is to go home over a way that a relock holds
(R509). -/
def State.flushHeld (s : State) (v n : Nat) : Bool :=
  let held (l : Line) : Bool := l.ctx == s.ctxNum && decide (l.dirty ≠ 0) && (s.owner (l.tag * 128)).any (s.routeHeld v)
  (s.die v).guest.any held || (s.l1Cores v n).any fun c => (s.core v c).l1.any held

/-- What a release of a core at scope 5 or wider waits for (R485, R509). -/
def State.releaseWaits (s : State) (v n : Nat) : Bool := s.writesHeld || s.flushHeld v n

/-- What the release steps of the dies of a mask, at a scope, wait for. -/
def State.diesWait (s : State) (aff scope : Nat) : Bool :=
  decide (5 ≤ scope) && (s.writesHeld || (List.range 4).any fun v =>
    aff.testBit v && decide (v < s.ndie) && (0 :: ((s.c :: s.cs).filter fun c => c.die == v).map (·.num)).any (s.flushHeld v))

/-- A launch that has run no workgroup completes with the release steps of its dies (R435). -/
def Launch.releases (l : Launch) : Bool := decide (l.reason ≠ 0) || decide (lrNwg l.lrec = 0)

/-- A launch completes: one that has run no workgroup has its dies carry out the release steps first. -/
def State.completeLaunch (s : State) (l : Launch) : State :=
  let s1 := if l.releases then s.dieRelease (lrAff l.lrec) (lrCscope l.lrec) else s
  s1.updLaunch l.num fun l => { l with complete := true }

def State.launchCheckN (s : State) : Nat → State
  | 0 => s
  | n + 1 =>
    match s.ctx.bind fun k => k.launches.find? fun l =>
        k.finished l && !(l.releases && s.diesWait (lrAff l.lrec) (lrCscope l.lrec)) with
    | some l => (s.completeLaunch l).launchCheckN n
    | none => s

/-- Launches that have finished complete, one after another; one whose release has to wait for held writes or messages waits
(R485, R509). -/
def State.launchCheck (s : State) : State :=
  s.launchCheckN ((match s.ctx with
    | some k => k.launches.length
    | none => 0) + 1)

/-! ### Waiting words (R449, R450) -/

/-- The widest CSCOPE of a graph's templates (R440). -/
def Graph.cscope (g : Graph) : Nat := g.nodes.foldl (fun m n => max m (lrCscope n.tmpl)) 4
def Graph.aff (g : Graph) : Nat := g.nodes.foldl (fun m n => m ||| lrAff n.tmpl) 0

/-- STATE of R452. -/
def Launch.state (l : Launch) : Nat :=
  if l.reason ≠ 0 then 4 else if l.cancelled then 5 else if l.complete then 3 else if l.started.isEmpty then 1 else 2
def Graph.state (g : Graph) : Nat :=
  if g.reason ≠ 0 then 4 else if g.complete then 3 else if g.nodes.any fun n => decide (0 < n.started) then 2 else 1

/-- What GRAPH.WAIT writes (R450). -/
def Graph.word (g : Graph) : Word :=
  BitVec.ofNat 32 (g.state * 2 ^ 28 + (if g.abt then 2 ^ 18 else 0) + (if g.ovf then 2 ^ 17 else 0)
    + g.node % 256 * 2 ^ 8 + g.reason)

/-- MODE of the class (R441). -/
def hubMode (x : Upper) : Nat := x.ext.toNat % 8

/-- The end of an EVWAIT (R449): its status, and the scope of the acquire that follows; none while it waits. -/
def Ctx.evwaitEnd (k : Ctx) (num wg : Nat) (all : Bool) : Option (Nat × Option Nat) :=
  if !k.wasIssued num then some (3, none)
  else
    match k.launchOf num, k.graphOf num with
    | some l, _ =>
      if !all && decide (lrNwg l.lrec ≤ wg) then some (2, none)
      else if (if all then l.complete else l.occurred wg) then
        (if l.reason ≠ 0 ∨ l.cancelled then some (1, none) else some (0, some (lrCscope l.lrec)))
      else none
    | none, some _ => some (2, none)
    | none, none => some (0, some 6)

/-- The end of a GRAPH.WAIT (R450). A launch's number answers its STATE and its reason. -/
def Ctx.gwaitEnd (k : Ctx) (num : Nat) : Option (Word × Option Nat) :=
  match k.graphOf num, k.launchOf num with
  | some g, _ => if g.complete then some (g.word, some g.cscope) else none
  | none, some l =>
    if l.complete then some (BitVec.ofNat 32 (l.state * 2 ^ 28 + l.reason), some (lrCscope l.lrec)) else none
  | none, none => some (BitVec.ofNat 32 ((if k.wasIssued num then 6 else 0) * 2 ^ 28), none)

/-- The answer that a waiting word has now. -/
def Ctx.waitEnd (k : Ctx) (o : Op) : Option (Word × Option Nat) :=
  if o.code = 0x18D then
    (k.evwaitEnd (o.val32 0 0).toNat (o.val32 1 0).toNat (decide (hubMode o.x = 1))).map fun r => (BitVec.ofNat 32 r.1, r.2)
  else if o.code = 0x190 then k.gwaitEnd (o.val32 0 0).toNat
  else none

/-- One waiting word answered: the status is written and the warp's core acquires. -/
def State.wakeOne (s : State) (o : Op) : State :=
  match s.ctx.bind fun k => k.waitEnd o with
  | none => s
  | some (x, acq) =>
    let s1 := s.answerU o x
    match acq, s.wgOf o.wg with
    | some scope, some g => s1.acquireSteps g.die g.core scope
    | _, _ => s1

/-- EVWAIT and GRAPH.WAIT words whose waits have ended; then the hub forgets what it no longer keeps (R425). -/
def State.wakeWaits (s : State) : State :=
  ((s.warps.flatMap fun w => w.waits.filter fun o => o.code == 0x18D || o.code == 0x190).foldl State.wakeOne s).updCtx Ctx.forget

/-! ### Workgroup events (R430, R431, R448) -/

/-- The hub may write a virtual address. -/
def State.hubMay (s : State) (va : Nat) : Bool :=
  let w := s.walk va
  (s.owner va).isSome && decide (w.status = 0) && Kind.write.permitted w.leaf

/-- A message of the hub to the owner of an address (R504). -/
def State.hubSends (s : State) (own bytes : Nat) : State := s.post 4 (s.ownerPos own) vcRequest bytes

/-- Bytes of one page that the hub writes at their owner's home slice. -/
def State.hubWrite (s : State) (va : Nat) (bs : List Byte) : State :=
  let w := s.walk va
  match s.owner va with
  | some own => ((bs.zipIdx.foldl fun s p =>
      s.homeWrite { va := va + p.2, own := own, pa := w.frame + (va + p.2 - w.page), cmp := cmpOf w.leaf } p.1 7) ((s.setAD own w.addr Kind.write.adBits).hubSends own bs.length))
  | none => s

/-- A byte that the hub changes at its owner's home slice; one without a writable translation is left (R431). -/
def State.hubUpdate (s : State) (die core va scope : Nat) (f : Byte → Byte) : State :=
  let w := s.walk va
  match s.owner va with
  | some own =>
    if w.status = 0 ∧ Kind.write.permitted w.leaf then
      let a : Loc := { va := va, own := own, pa := w.frame + (va - w.page), cmp := cmpOf w.leaf }
      (((s.setAD own w.addr Kind.write.adBits).hubSends own 1).homeWrite a (f (s.homeByte a)) 7).releaseNote die core a scope
    else s
  | none => s

/-- The bit of a workgroup in its launch's bitmap. -/
def State.setEva (s : State) (g : Wg) : State :=
  let eva := lrField g.lrec 1600 64
  if eva = 0 then s
  else s.hubUpdate g.die g.core ((eva + g.index / 8) % 2 ^ 64) (lrCscope g.lrec) fun b =>
    b ||| (1 : Byte) <<< (g.index % 8)

/-- The event of a workgroup occurs, its release steps done: once only. -/
def State.wgEvent (s : State) (id : Nat) : State :=
  match s.wgOf id with
  | none => s
  | some g =>
    if g.event then s
    else
      -- the event is a release that covers every operation of the workgroup (R430)
      let s0 := if s.ctx.any fun k => !k.rsvOpen.isEmpty then s.releaseRsv fun r => decide (r.wg = id) else s
      let s1 := s0.updWg id fun g => { g with event := true }
      match g.node with
      | some n => s1.updGraph g.launch fun q =>
          { q with nodes := updateAt q.nodes n fun d => { d with ended := d.ended + 1 } }
      | none =>
        ((s1.updLaunch g.launch fun l => { l with events := l.events ++ [g.index] }).setEva g).launchCheck.wakeWaits

end Sys2Proof.Machine
end

