-- ==== Sys2Proof/Machine/Sync.lean ====
section
/-! DEFINITION. Order among a warp's accesses (R246 to R248, R458), hold words and their arrivals (R263, R264), workgroup
barriers (R265), group barriers at the hub (R266, R277), WAITC (R257, R279), and fences (R274). -/

namespace Sys2Proof.Machine

/-! ### Kinds of access -/

/-- Groups of opcodes of the memory and atomic blocks. -/
def loadCode (c : Nat) : Bool := [0xE0, 0xE1, 0xE2, 0xE3, 0xE4, 0xE5, 0xEC, 0xED, 0xF0, 0xF1, 0xFE, 0x100, 0xF2, 0xFB].contains c
def storeCode (c : Nat) : Bool := [0xE6, 0xE7, 0xE8, 0xE9, 0xEA, 0xEB, 0xEE, 0xEF, 0xF3, 0xFF, 0xFA, 0x101].contains c
def atomCode (c : Nat) : Bool := decide (0x110 ≤ c) && decide (c ≤ 0x125)
def redCode (c : Nat) : Bool := [0x126, 0x127, 0x133].contains c
def fillCode (c : Nat) : Bool := [0xF4, 0xF5, 0xFD].contains c
def cctlCode (c : Nat) : Bool := [0xF6, 0xF7, 0xF8].contains c

/-! ### Release and acquire of the warp in focus -/

/-- A scope as it is performed (R241). -/
def State.scopeOf (s : State) (scope : Nat) : Nat := effScope (lrSingle s.g.lrec) scope

/-- ORD of a word releases, and acquires (R246). -/
def relOf (ord : Nat) : Bool := decide (ord = 2) || decide (ord = 3)
def acqOf (ord : Nat) : Bool := decide (ord = 1) || decide (ord = 3)

/-- A release of the warp in focus carries what its WAITCs have counted of its reservoir operations, at any scope from 2 up
(R377). -/
def State.carryRsv (s : State) (scope : Nat) : State :=
  if decide (2 ≤ scope) && s.ctx.any fun k => !k.rsvOpen.isEmpty then s.releaseRsv fun r => decide (r.warp = s.w.id) && r.counted else s

/-- The release steps for the warp in focus, where ORD releases (R247). -/
def State.releaseIf (s : State) (ord scope : Nat) : State :=
  if relOf ord then (s.releaseSteps s.g.die s.g.core (s.scopeOf scope)).carryRsv (s.scopeOf scope) else s
/-- The acquire steps for the warp in focus, where ORD acquires (R248). -/
def State.acquireIf (s : State) (ord scope : Nat) : State :=
  if acqOf ord then s.acquireSteps s.g.die s.g.core (s.scopeOf scope) else s

/-- Accesses that precede an operation in the warp's order and were parked when it issued: those that still are, and those that
have replayed since and are not performed (R458). -/
def Warp.owed (w : Warp) (id : Nat) : List Op :=
  (w.parked.filter fun p => decide (p.place < id) && decide (p.code ≠ 0) && decide (p.st ≠ .failed))
    ++ w.pend.filter fun p => decide (p.ord ≠ 0) && decide (p.ord < id)

/-- Some parked access precedes an operation in the warp's order (R458). -/
def Warp.parkedBefore (w : Warp) (id : Nat) : Bool := !(w.owed id).isEmpty

/-- Whether the release that an operation makes may be performed now; earlier accesses stand before it in the
warp's list. -/
def State.releaseOk (s : State) (o : Op) : Bool :=
  !(relOf o.x.ord.toNat) ||
    (!(s.w.parkedBefore o.place) && !(decide (5 ≤ s.scopeOf o.x.scope.toNat) && s.releaseWaits s.g.die s.g.core))

/-! ### Workgroup barriers (R265) -/

/-- The warps of a workgroup that have not ended. -/
def State.liveWarps (s : State) (wg : Nat) : List Warp := s.warps.filter fun w => w.wg == wg && !w.ended

def Warp.bit (w : Warp) : LaneMask := (1 : LaneMask) <<< w.idx

/-- The number of bits of a mask. -/
def popMask (m : LaneMask) : Nat := (lanesOf m).length

/-- The phase of a barrier record holds its arrivals (R265). -/
def State.phaseDone (s : State) (r : BarRec) : Bool :=
  r.set && (if r.exp = 0 then
      !(s.liveWarps s.g.id).isEmpty && (s.liveWarps s.g.id).all fun w => decide (w.bit &&& r.arr ≠ 0)
    else decide (r.exp ≤ popMask r.arr))

/-- Ends the waits of the warps of a workgroup that `p` selects, each with its acquire (R267). -/
def State.endWaits (s : State) (wg die core : Nat) (p : Warp → Sync → Bool) (upd : Warp → Sync → Warp) : State :=
  s.warps.foldl (fun s w =>
    if w.wg = wg then
      match w.holdWhere (p w) with
      | some (sh, y) =>
        let s1 := if acqOf y.ord then
            s.acquireSteps die core (effScope (match s.wgOf wg with
              | some g => lrSingle g.lrec
              | none => false) y.scope)
          else s
        s1.updWarp w.id fun w => upd (w.endHold sh) y
      | none => s
    else s) s

/-- Workgroup barrier k of the workgroup in focus completes its phase where its arrivals allow: PH inverts, ARR and
SET become 0 and the waits on the phase end. -/
def State.phaseCheck (s : State) (k : Nat) : State :=
  let r := s.g.bars.get {} k
  if s.phaseDone r then
    let s1 : State := { s with g := { s.g with bars := s.g.bars.set {} k { ph := !r.ph } } }
    s1.endWaits s.g.id s.g.die s.g.core
      (fun w y => (decide (y.kind = .barWg) || decide (y.kind = .barWait)) && decide (y.bnum = k) && y.arrived
        && decide (w.bit &&& r.arr ≠ 0)) fun w _ => w
  else s

def State.phaseCheckAll (s : State) : State := (List.range 16).foldl State.phaseCheck s

/-- The synchronisation state of the warp in focus, live or in the trap shadow. -/
def Warp.syncAt (w : Warp) (sh : Bool) : Sync :=
  match sh, w.shadow with
  | true, some h => h.sync
  | _, _ => w.sync
def Warp.setSync (w : Warp) (sh : Bool) (y : Sync) : Warp :=
  match sh, w.shadow with
  | true, some h => { w with shadow := some { h with sync := y } }
  | _, _ => { w with sync := y }

/-- The barrier-divergence trap of an arrival that comes after its word (R264): the held lanes stand at the word. Of a hold in
the shadow it comes when the hold is live again (R465). -/
def State.divergence (s : State) (sh : Bool) : State :=
  if sh then { s with w := s.w.setSync true { s.w.syncAt true with arrived := false } }
  else
    let y := s.w.sync
    let lanes := s.w.lanes.mapIdx fun l e =>
      if inSet y.hold l && decide (e.st = .ready) then { e with pc := y.pc, mid := y.mid } else e
    let w1 := y.ids.foldl Warp.finish { s.w with lanes := lanes, sync := {} }
    { s with w := w1 }.warpTrap 6 (infoWord 0 0) y.hold y.hold y.pc none

/-- An arrival at workgroup barrier k with E (R265); none where E differs from the phase's. -/
def State.barArrive (s : State) (k e : Nat) : Option State :=
  let r := s.g.bars.get {} k
  if r.set && r.exp != e then none
  else
    let r1 : BarRec := { r with arr := r.arr ||| s.w.bit, set := true, exp := e }
    some { s with g := { s.g with bars := s.g.bars.set {} k r1 } }

/-- An arrival recorded in gk (R266). -/
def State.gbarArrive (s : State) (k : Nat) : State :=
  let r := s.g.bars.get {} (16 + k)
  { s with g := { s.g with bars := s.g.bars.set {} (16 + k) { r with arr := r.arr ||| s.w.bit } } }

/-- An arrive word of the warp on a barrier has still to set the warp's bit (R267, R275). -/
def Warp.arrivePending (w : Warp) (gbar : Bool) (k : Nat) : Bool :=
  w.pend.any fun p => if gbar then decide (p.code = 0x12D) && decide (p.x.gsel.toNat = k)
    else decide (p.code = 0x12A) && decide (p.x.ext.toNat % 16 = k)

/-- The value that GCOLL's SA supplies when the arrival completes (R277). -/
def State.memberSrc (s : State) (x : Src) : Word :=
  match x with
  | .uni k => s.u k.toNat
  | .imm b => b.signExtend 32
  | .lane _ | .mask _ | .litS | .litZ | .zero | .laneIdx => 0

/-- The warp in focus arrives with the hold that it stands in, live or in the trap shadow (R264, R275, R276). -/
def State.arriveHold (s : State) (sh : Bool) : State :=
  let y := s.w.syncAt sh
  let gbar := decide (y.kind ≠ .barWait)
  let r := s.g.bars.get {} (if gbar then 16 + y.bnum else y.bnum)
  match y.kind with
  | .barWg =>
    match s.barArrive y.bnum y.exp with
    | some s1 => s1.phaseCheck y.bnum
    | none => s.divergence sh
  | .barWait | .gbarWait =>
    if r.arr &&& s.w.bit ≠ 0 ∨ s.w.arrivePending gbar y.bnum then s
    else
      let s1 := s.acquireIf y.ord y.scope
      { s1 with w := s1.w.endHold sh }
  | .gbar => s.gbarArrive y.bnum
  | .gcoll => ({ s with w := s.w.setSync sh { y with value := s.memberSrc y.src } } : State).gbarArrive y.bnum
  | .none | .waitc => s

/-! ### Group barriers at the hub (R266, R277) -/

/-- A member of a group has ended: its event has occurred or counts as occurred, or every warp of it has ended. -/
def State.memberEnded (s : State) (l : Launch) (idx : Nat) : Bool :=
  l.occurred idx || (s.g :: s.gs).any fun g => g.launch == l.num && g.index == idx && decide (g.live = 0)

/-- combine of GCOLL (R277). -/
def gcollCombine (gop : Nat) (rm : Rm) (a b : Nat) : Nat :=
  if gop = 0 then (a + b) % 2 ^ 32
  else if gop = 1 then (fAdd f32 rm a b).bits
  else if gop = 2 then pickMin false 32 a b
  else if gop = 3 then pickMin true 32 a b
  else if gop = 4 then pickMax false 32 a b
  else if gop = 5 then pickMax true 32 a b
  else if gop = 6 then a &&& b
  else if gop = 7 then a ||| b
  else if gop = 8 then a ^^^ b
  else a

/-- The result of a collective: contributions in the order of the member list (R277). -/
def gcollResult (gop : Nat) (rm : Rm) (members : List Nat) (vals : List (Nat × Word)) : Word :=
  match members.filterMap fun m => (vals.find? fun p => p.1 == m).map fun p => p.2.toNat with
  | [] => 0
  | x :: xs => BitVec.ofNat 32 (xs.foldl (gcollCombine gop rm) x)

/-- The release reaches a member: PH of its slot inverts, ARR becomes 0, and the waits end, a collective's result written first. -/
def State.groupEnd (s : State) (r : GroupEnd) : State :=
  match s.wgOf r.wg with
  | none => s
  | some g =>
    let s1 := s.updWg r.wg fun g =>
      { g with bars := g.bars.set {} (16 + r.slot) { ph := !(g.bars.get {} (16 + r.slot)).ph } }
    s1.endWaits r.wg g.die g.core
      (fun _ y => (decide (y.kind = .gbar) || decide (y.kind = .gbarWait) || decide (y.kind = .gcoll))
        && decide (y.bnum = r.slot) && y.arrived)
      (fun w y => if y.kind = .gcoll then
          { w with u := w.u.set 0 y.dst (gcollResult y.gop (Rm.ofCode y.rm) r.members r.values) }
        else w)

/-- The hub sends the release to a member: at once, or held while the member's die relocks (R509). -/
def State.sendEnd (s : State) (r : GroupEnd) : State :=
  match s.wgOf r.wg with
  | none => s
  | some g =>
    let s1 := s.hubTells g.die
    if s.stopped g.die then s1.updCtx fun k => { k with gheld := k.gheld ++ [r] } else s1.groupEnd r

/-- The members of a group that run, each with the release that ends a phase of it. -/
def State.groupEnds (s : State) (launch group : Nat) (members : List Nat) (values : List (Nat × Word)) : List GroupEnd :=
  (s.g :: s.gs).filterMap fun g =>
    if g.launch = launch ∧ members.contains g.index then
      (g.groups.findIdx? (· == group)).map fun j => { wg := g.id, slot := j, members := members, values := values }
    else none

/-- The phase of a group completes when every member has arrived or ended: the hub releases each member. -/
def State.groupCheck (s : State) (launch group : Nat) : State :=
  match s.launchOf launch, s.ctx with
  | some l, some k =>
    let members := (l.groups[group]?).getD []
    match k.gbars.find? fun b => b.launch == launch && b.group == group with
    | some b =>
      if members.all fun m => b.arrived.contains m || s.memberEnded l m then
        (s.groupEnds launch group members b.values).foldl State.sendEnd
          (s.updCtx fun k => { k with gbars := k.gbars.filter fun b => !(b.launch == launch && b.group == group) })
      else s
    | none => s
  | _, _ => s

/-- The releases that a relock has held reach their members once it has ended (R509). -/
def State.deliverEnds (s : State) : State :=
  match s.ctx with
  | none => s
  | some k => k.gheld.foldl State.groupEnd (s.updCtx fun k => { k with gheld := [] })

/-- The end or the event of the workgroup in focus may complete a phase of its groups. -/
def State.groupCheckAll (s : State) : State := s.g.groups.foldl (fun t group => t.groupCheck s.g.launch group) s

/-- Every warp of a workgroup that has not ended has arrived at slot j (R266), and the hub does not know it yet. -/
def State.groupArrives (s : State) (g : Wg) (j : Nat) : Bool :=
  match g.groups[j]?, s.ctx with
  | some group, some k =>
    !(s.liveWarps g.id).isEmpty
      && (s.liveWarps g.id).all (fun w => decide (w.bit &&& (g.bars.get {} (16 + j)).arr ≠ 0))
      && !(k.gbars.any fun b => b.launch == g.launch && b.group == group && b.arrived.contains g.index)
      && !(k.gheld.any fun r => r.wg == g.id && r.slot == j)
  | _, _ => false

/-- The value that a member contributes: that of its lowest-numbered warp that has not ended. -/
def State.memberValue (s : State) (g : Wg) (j : Nat) : Word :=
  match (s.liveWarps g.id).foldl (fun b w => match b with
    | none => some w
    | some v => if w.idx < v.idx then some w else some v) (none : Option Warp) with
  | some w => ((w.holdWhere fun y => decide (y.kind = .gcoll) && decide (y.bnum = j)).map fun p => p.2.value).getD 0
  | none => 0

/-- A workgroup's arrival reaches the hub (R266). -/
def execGroupBarrierArrival (wg slot : Nat) (s : State) : Result :=
  match s.wgOf wg with
  | some g =>
    if s.groupArrives g slot then
      let group := (g.groups[slot]?).getD 0
      let v := s.memberValue g slot
      let s1 := s.updCtx fun k =>
        if k.gbars.any fun b => b.launch == g.launch && b.group == group then
          { k with gbars := k.gbars.map fun b =>
              if b.launch = g.launch ∧ b.group = group then
                { b with arrived := b.arrived ++ [g.index], values := b.values ++ [(g.index, v)] } else b }
        else { k with gbars := k.gbars ++
            [{ launch := g.launch, group := group, arrived := [g.index], values := [(g.index, v)] }] }
      .next ((s1.tellHub g.die).groupCheck g.launch group)
    else .refused (.notEnabled "GROUP_BARRIER_ARRIVAL")
  | none => .refused (.notEnabled "GROUP_BARRIER_ARRIVAL")

/-! ### Arrivals -/

/-- Every lane of the warp that has not exited is in HOLD (R264 step 3), in the live table or in the trap shadow. -/
def Warp.allHeldAt (w : Warp) (sh : Bool) : Bool :=
  let t := match sh, w.shadow with
    | true, some h => h.lanes
    | _, _ => w.lanes
  let hold := (w.syncAt sh).hold
  decide (hold ≠ 0) && (List.range 32).all fun l => inSet hold l || match t[l]? with
    | some e => decide (e.st = .exited)
    | none => true
def Warp.allHeld (w : Warp) : Bool := w.allHeldAt false

/-- The arrival that EXIT or a hold word completes: at once, or as a release behind the warp's accesses and the writes that a
memory channel holds (R267, R485). -/
def State.tryArrive (s : State) : State :=
  if s.w.allHeld && !s.w.sync.arrived && decide (s.w.sync.kind ≠ .waitc) then
    let y := s.w.sync
    let s1 : State := { s with w := { s.w with sync := { y with arrived := true } } }
    if relOf y.ord && !(s.w.pend.isEmpty && !(s.w.parkedBefore s.nextId)
        && !(decide (5 ≤ s.scopeOf y.scope) && s.releaseWaits s.g.die s.g.core)) then
      let op := s.mkOp 0x129
        { cond := .always, fsel := false, wcc := false, neg := false, md := 0, dst := 0, sa := .lane 0, sb := .lane 0,
          sc := .lane 0, lit := none }
        { ext := 0, racq := false, gsel := 0, rch := 0, offset := 0, space := 0, evp := 0,
          scope := BitVec.ofNat 3 y.scope, ord := 2 } [] 0
      { s1 with nextId := s.nextId + 1, w := { s1.w with pend := s1.w.pend ++ [op] } }
    else (s1.releaseIf y.ord y.scope).arriveHold false
  else s

/-- EXIT or an ended hold may end the warp and complete phases (R121, R265, R266). -/
def State.exitCheck (s : State) : State :=
  let s1 : State := { s with w := { s.w with ended := s.w.ended || decide (s.w.liveLanes = 0) } }
  if s1.w.ended then
    let s2 : State := { s1 with g := { s1.g with live := if s.w.ended then s1.g.live else s1.g.live - 1 } }
    s2.phaseCheckAll.groupCheckAll
  else s1.tryArrive.phaseCheckAll

/-! ### Words that only order (R274, R275) -/

/-- Codes of the words that order accesses and make none: FENCE, arrivals, CHPROD.pub (R295) and EVSIG (R448). -/
def orderOnly (code : Nat) : Bool :=
  (decide (0x128 ≤ code) && decide (code ≤ 0x12F)) || decide (code = 0x142) || decide (code = 0x18E)

/-- A scratch access, NODE.ENQ and NODE.ENQN among them, and one that writes. -/
def Op.onScratch (o : Op) : Bool :=
  decide (o.x.space ≠ 0) && (decide (0xE0 ≤ o.code) && decide (o.code < 0x134) || [0x18A, 0x18B].contains o.code)
def Op.writesScratch (o : Op) : Bool := o.onScratch && !(loadCode o.code) && !([0x18A, 0x18B].contains o.code)

/-- A parked access of the warp to scratch that precedes an operation (R296). -/
def Warp.scratchParked (w : Warp) (id : Nat) : Bool := (w.owed id).any Op.onScratch

/-- An arrive word in its turn (R265, R266): the warp's second arrival in a phase takes the barrier-divergence trap (R275). -/
def State.arriveWord (s : State) (o : Op) : State :=
  let k := o.x.ext.toNat % 16
  let gbar := decide (o.code = 0x12D)
  let again := decide ((s.g.bars.get {} (if gbar then 16 + o.x.gsel.toNat else k)).arr &&& s.w.bit ≠ 0)
  match if again then none else if gbar then some (s.gbarArrive o.x.gsel.toNat) else s.barArrive k (o.x.ext.toNat / 16 % 64) with
  | some s1 => (if gbar then s1 else s1.phaseCheck k).complete o.id
  | none =>
    let waits := decide (s.w.sync.kind = .barWait) || decide (s.w.sync.kind = .gbarWait)
    let s1 := if s.w.sync.arrived && decide (s.w.sync.hold ≠ 0) && waits then s.arriveHold false else s
    (s1.complete o.id).warpTrap 6 (infoWord 0 0) o.e o.e o.pc none

/-- FENCE, an arrive word or a delayed arrival performed, its turn come: the release steps, the act, the acquire steps. -/
def State.performOrder (s : State) (o : Op) : State :=
  let s0 : State := { s with w := { s.w with pend := s.w.pend.filter fun p => p.id != o.id } }
  let s1 := s0.releaseIf o.x.ord.toNat o.x.scope.toNat
  if o.code = 0x128 then (s1.acquireIf o.x.ord.toNat o.x.scope.toNat).complete o.id
  else if o.code = 0x12A ∨ o.code = 0x12D then s1.arriveWord o
  else if o.code = 0x142 then (s1.publish o).complete o.id
  else if o.code = 0x18E then (s1.wgEvent s1.g.id).groupCheckAll.complete o.id
  else s1.arriveHold (s.w.inHandler && !o.inH)

/-- The turn of a word that only orders has come, with `before` standing before it: CHPROD.pub follows the warp's scratch stores
(R295), an arrival with ORD 0 follows earlier arrivals alone (R267), and every other follows everything (R274, R458). An arrival
that waits is that of a whole warp: a lane that has parked since delays it (R264). -/
def State.orderReady (s : State) (before : List Op) (o : Op) : Bool :=
  if o.code = 0x142 then
    !(before.any fun p => decide (p.code = 0x142) || p.writesScratch) && !((s.w.owed o.id).any Op.writesScratch)
  else if o.code ≠ 0x128 ∧ relOf o.x.ord.toNat = false then
    !(before.any fun p => [0x129, 0x12A, 0x12D].contains p.code)
  else
    before.isEmpty && !(s.w.parkedBefore o.id) && s.releaseOk o
      && (decide (o.code ≠ 0x129) || s.w.allHeldAt (s.w.inHandler && !o.inH))

/-- The first word that only orders whose turn has come. -/
def State.nextOrder (s : State) (before : List Op) : List Op → Option Op
  | [] => none
  | o :: os => if orderOnly o.code && s.orderReady before o then some o else s.nextOrder (before ++ [o]) os

/-- Words that only order are performed as soon as their turn comes. -/
def State.drainN (s : State) : Nat → State
  | 0 => s
  | n + 1 =>
    match s.nextOrder [] s.w.pend with
    | some o => (s.performOrder o).drainN n
    | none => s

def State.drain (s : State) : State := s.drainN (s.w.pend.length + 1)

/-- Every launch that may complete, and every warp's words that only order whose turn has come, of every context that runs, because
a held write, or a message, is held no more (R267, R274, R485, R509). -/
def State.wakeWarps (s : State) : State :=
  s.warps.foldl (fun t w => match t.focus w.id with
    | some u => u.drain
    | none => t) s.launchCheck.wakeWaits
def State.wake (s : State) : State :=
  let t := s.wakeWarps
  s.others.foldl (fun t v => t.inCtx v.ctx.num State.wakeWarps) ((t.focus s.w.id).getD t)

/-! ### The words (R274 to R277, R279) -/

/-- A hold word (R264): its lanes join HOLD, standing at the next clause header. DESIGN CHOICE (log entry 44): where lanes join one
hold by words that differ in ORD, SCOPE, GOP, DST or SA, which the rule does not compare, those of the last word stand. -/
def State.holdWord (s : State) (code : Nat) (f : FmtA) (x : Upper) (kind : HoldKind) (bnum exp thr : Nat) : Result :=
  let e := s.execSet f.cond
  let y := s.w.sync
  if e = 0 then s.retireLong
  else if y.hold ≠ 0 ∧ (y.kind ≠ kind ∨ y.bnum ≠ bnum ∨ y.exp ≠ exp ∨ y.thr ≠ thr) then .next (s.trapHere 6 0 e)
  else
    let op := s.mkOp code f x [1, 0, 0] e
    let s1 := (s.addOut op [] []).advance 16
    let y1 : Sync := { y with
      hold := y.hold ||| e, kind := kind, bnum := bnum, exp := exp, thr := thr, ord := x.ord.toNat,
      scope := x.scope.toNat, ids := y.ids ++ [op.id], pc := op.pc, mid := some op.mid,
      src := f.sa, dst := f.dst.toNat, gop := x.ext.toNat % 16, rm := f.md.toNat / 4 % 4 }
    let s2 : State := { s1 with w := { s1.w with sync := y1 } }
    -- an arrival that lanes which parked had delayed may be performed again
    .next (if kind = .waitc then s2.waitcCheck else s2.tryArrive.drain)

/-- SEL and E of EXT (R268). -/
def selOf (x : Upper) : Nat := x.ext.toNat % 16
def expOf (x : Upper) : Nat := x.ext.toNat / 16 % 64

/-- BAR.wg (R275). -/
def execBarWg (f : FmtA) (x : Upper) (s : State) : Result := s.holdWord 0x129 f x .barWg (selOf x) (expOf x) 0
/-- BAR.wait (R275). -/
def execBarWait (f : FmtA) (x : Upper) (s : State) : Result := s.holdWord 0x12B f x .barWait (selOf x) 0 0
/-- GBAR (R276). -/
def execGbar (f : FmtA) (x : Upper) (s : State) : Result := s.holdWord 0x12C f x .gbar x.gsel.toNat 0 0
/-- GBAR.wait (R276). -/
def execGbarWait (f : FmtA) (x : Upper) (s : State) : Result := s.holdWord 0x12E f x .gbarWait x.gsel.toNat 0 0
/-- GCOLL (R277). -/
def execGcoll (f : FmtA) (x : Upper) (s : State) : Result := s.holdWord 0x12F f x .gcoll x.gsel.toNat 0 0
/-- WAITC (R279). -/
def execWaitc (f : FmtA) (x : Upper) (s : State) : Result := s.holdWord 0x132 f x .waitc (selOf x) 0 (expOf x)

/-- A word that joins the warp's accesses in order and makes none itself. -/
def State.orderWord (s : State) (code : Nat) (f : FmtA) (x : Upper) : Result :=
  let op := s.mkOp code f x [] (s.execSet f.cond)
  let s1 := (s.addOut op [] []).advance 16
  .next ({ s1 with w := { s1.w with pend := s1.w.pend ++ [op] } } : State).drain

/-- FENCE (R274): with no executing lane it has no effect. -/
def execFence (f : FmtA) (x : Upper) (s : State) : Result :=
  if s.execSet f.cond = 0 then s.retireLong else s.orderWord 0x128 f x

/-- BAR.arrive (R275): once for the warp; a second arrival in a phase, or another E, traps (R264, R265). -/
def execBarArrive (f : FmtA) (x : Upper) (s : State) : Result :=
  let e := s.execSet f.cond
  let r := s.g.bars.get {} (selOf x)
  if e = 0 then s.retireLong
  else if r.arr &&& s.w.bit ≠ 0 ∨ (r.set = true ∧ r.exp ≠ expOf x) then .next (s.trapHere 6 0 e)
  else s.orderWord 0x12A f x

/-- GBAR.arrive (R276). -/
def execGbarArrive (f : FmtA) (x : Upper) (s : State) : Result :=
  let e := s.execSet f.cond
  if e = 0 then s.retireLong
  else if (s.g.bars.get {} (16 + x.gsel.toNat)).arr &&& s.w.bit ≠ 0 then .next (s.trapHere 6 0 e)
  else s.orderWord 0x12D f x

end Sys2Proof.Machine
end

