-- ==== Sys2Proof/Machine/Control.lean ====
section
/-! DEFINITION. The control class: transfers and the check of their targets (R113 to R119), the ends of lanes and warps
(R120, R121), reconvergence barriers (R122 to R124), yielding, sleeping, priority and special registers (R125 to R131). -/

namespace Sys2Proof.Machine

/-! ### Fetch (R42, R114, R205) -/

/-- A shoot-down holds new accesses to an address (R480). -/
def State.drainHeld (s : State) (va : Nat) : Bool :=
  s.hub.shoot.any fun h => h.ctx == s.ctxNum && decide (h.base ≤ va) && decide (va < h.base + h.size)

/-- A migration holds accesses of a kind to an address at the slice (R482), or a die on the way to its owner relocks (R509). -/
def State.slotHeld (s : State) (va : Nat) (k : Kind) : Bool :=
  match s.owner va with
  | some own =>
    s.routeHeld s.g.die own ||
    if own < 4 then
      match (s.die own).mig with
      | some m => decide (m.ctx = s.ctxNum) && decide (m.va ≤ va) && decide (va < m.va + m.size)
          && ((decide (m.st = 1) && decide (k = .atomic)) || (decide (m.st = 2) && k.writes))
      | none => false
    else false
  | none => false

/-- An access of a kind to an address is held before its translation. -/
def State.heldAt (s : State) (va : Nat) (k : Kind) : Bool := s.drainHeld va || s.slotHeld va k

/-- An instruction fetch that a shoot-down holds until it is confirmed (R480). -/
def State.fetchHeld (s : State) (va : Nat) : Bool := s.heldAt va .fetch

/-- The check of an instruction address: none where it may be fetched, else the status that the fetch fault reports,
0 when only X is missing (R454). A warp that runs ahead sets no bit (R109). -/
def State.fetchCheck (s : State) (va : Nat) : State × Option Nat :=
  match s.owner va with
  | none => (s, some 1)
  | some own =>
    let k : Kind := if s.w.ra.isSome then .quiet else .fetch
    match s.tlbHit s.g.die s.g.core va with
    | some e =>
      if Kind.fetch.permitted e.leaf then (s.useEntry s.g.die s.g.core own e k, none) else (s, some 0)
    | none =>
      let r := s.doWalk s.g.die s.g.core va k
      if r.1.status ≠ 0 then (r.2, some r.1.status)
      else if Kind.fetch.permitted r.1.leaf then (r.2, none) else (r.2, some 0)

/-- A byte of instruction memory (log entry 5). -/
def State.fetchByte (s : State) (va : Nat) : Byte :=
  match s.locOf va with
  | some a => s.engineByte s.g.die a
  | none => byte0

def State.fetchBytes (s : State) (va n : Nat) : List Byte := (List.range n).map fun i => s.fetchByte (va + i)

/-- An uncorrectable error in the bytes of a word that is fetched (R467, log entry 16): its location. -/
def State.fetchBad (s : State) (va n : Nat) : Option Nat :=
  if s.bad.isEmpty then none
  else (List.range n).findSome? fun i => (s.locOf (va + i)).bind fun a => s.l2Bad s.g.die a

/-- The test of a clause header (R42). -/
def State.headerAt (s : State) (va : Nat) : Bool := decide (va % 8 = 0) && decide ((s.fetchByte va).toNat % 4 = 3)

/-! ### Transfers (R114) -/

/-- Lanes that leave a runahead episode issue nothing more in it (R107). -/
def State.leaveEpisode (s : State) (set : LaneMask) : State :=
  match s.w.ra with
  | none => s
  | some ra =>
    { s with w := { s.w.park false set (fun l => (s.lane l).pc) none with ra := some { ra with left := ra.left ||| set } } }

/-- The targets of lanes checked in ascending order, each distinct one once: the status of those that fail. -/
def checkTargets (s : State) : List Word64 → State × List (Word64 × Nat)
  | [] => (s, [])
  | t :: ts =>
    let r := s.fetchCheck t.toNat
    let q := checkTargets r.1 ts
    match r.2 with
    | none => q
    | some st => (q.1, (t, st) :: q.2)

/-- The distinct targets of the lanes of a set. -/
def targetsOf (set : LaneMask) (tgt : Nat → Word64) : List Word64 :=
  (lanesOf set).foldl (fun ts l => if ts.contains (tgt l) then ts else ts ++ [tgt l]) []

/-- The addresses that a transfer may go to: what its target check fetches. -/
def State.transferTargets (s : State) (op : Nat) (f : FmtA) : List Nat :=
  if op < 0x002 ∨ 0x009 < op then []
  else if [0x006, 0x008, 0x009].contains op then (targetsOf (s.execSet f.cond) (s.src64 f f.sa)).map (·.toNat)
  else if s.execSet f.cond = 0 then [] else [(s.target f).toNat]

/-- A transfer (R114 to R119): the lanes of `take` go to their targets, the others of the run fall through to the next clause
header. A target that is no clause header traps with no effect; one that cannot be fetched parks its lanes. DESIGN CHOICE (log
entry 50): in runahead the lanes whose known target is no clause header, or cannot be fetched, leave the episode. -/
def State.transfer (s : State) (f : FmtA) (take : LaneMask) (tgt : Nat → Word64) (link : Bool) : Result :=
  let r := checkTargets s (targetsOf take tgt)
  let fails (l : Nat) : Option Nat := (r.2.find? fun p => p.1 == tgt l).map (·.2)
  let faulty := laneSet fun l => inSet take l && (fails l).isSome
  let bad := laneSet fun l => inSet take l && (fails l).isNone && !(r.1.headerAt (tgt l).toNat)
  let next := nextWord s.pc (fmtLen f)
  let go (s : State) : State :=
    let s1 := if link then s.setV2 f.dst.toNat (s.execSet f.cond) fun _ => next else s
    s1.endRun fun l => if inSet take l then tgt l else next
  if s.w.ra.isSome then .next ((go r.1).leaveEpisode (faulty ||| bad))
  else if bad ≠ 0 then .next (r.1.trapHere 3 0x09 bad)
  else
    .next ((go r.1).parkFetch
      ((lanesOf faulty).map fun l => { lane := l, kind := 7, st := (fails l).getD 0, va := (tgt l).toNat })
      (some s.pc) none)

/-- BRA (R115). -/
def execBra (f : FmtA) (s : State) : Result := s.transfer f (s.execSet f.cond) (fun _ => s.target f) false

/-- BRU (R116): on a uniform value, zero with .z. -/
def execBru (f : FmtA) (s : State) : Result :=
  let take := decide (s.usrc32 f f.sb ≠ 0) != f.md.getLsbD 0
  s.transfer f (if take then s.execSet f.cond else 0) (fun _ => s.target f) false

/-- The mask that BRANY and BRALL test. -/
def State.maskSrc (s : State) (f : FmtA) : LaneMask := s.usrc32 f f.sb

/-- BRANY (R117). -/
def execBrany (f : FmtA) (s : State) : Result :=
  let e := s.execSet f.cond
  s.transfer f (if s.maskSrc f &&& e ≠ 0 then e else 0) (fun _ => s.target f) false
/-- BRALL (R117). -/
def execBrall (f : FmtA) (s : State) : Result :=
  let e := s.execSet f.cond
  s.transfer f (if s.maskSrc f &&& e = e then e else 0) (fun _ => s.target f) false
/-- BRX (R119). -/
def execBrx (f : FmtA) (s : State) : Result := s.transfer f (s.execSet f.cond) (s.src64 f f.sa) false
/-- CALL (R118). -/
def execCall (f : FmtA) (s : State) : Result := s.transfer f (s.execSet f.cond) (fun _ => s.target f) true
/-- CALLX (R119): the target is read before the link is written. -/
def execCallx (f : FmtA) (s : State) : Result := s.transfer f (s.execSet f.cond) (s.src64 f f.sa) true
/-- RET (R119). -/
def execRet (f : FmtA) (s : State) : Result := s.transfer f (s.execSet f.cond) (s.src64 f f.sa) false

/-! ### Ends (R120, R121) -/

/-- Lanes leave EXP and ARR of every barrier. -/
def leaveRcb (t : Sparse Rcb) (set : LaneMask) : Sparse Rcb :=
  (List.range 8).foldl (fun t b =>
    let r := t.get {} b
    t.set {} b { arr := r.arr &&& ~~~set, exp := r.exp &&& ~~~set }) t

/-- EXIT (R120): in runahead the lanes leave the episode (R107). -/
def execExit (f : FmtA) (s : State) : Result :=
  let e := s.execSet f.cond
  let next := nextWord s.pc (fmtLen f)
  let s1 := s.endRun fun _ => next
  if s.w.ra.isSome then .next (s1.leaveEpisode e)
  else
    let w : Warp := { s1.w with
      lanes := s1.w.lanes.mapIdx fun l x => if inSet e l then { x with st := .exited, bidx := 0 } else x
      rcb := leaveRcb s1.w.rcb e
      sync := { s1.w.sync with hold := s1.w.sync.hold &&& ~~~e } }
    .next ({ s1 with w := w.releaseAll } : State).exitCheck.drain

/-! ### Reconvergence barriers (R122 to R124) -/

/-- RCB.ARM (R122). -/
def execRcbArm (f : FmtA) (s : State) : Result :=
  let b := f.dst.toNat
  let r := s.w.rcb.get {} b
  ({ s with w := { s.w with rcb := s.w.rcb.set {} b { r with exp := r.exp ||| s.execSet f.cond } } } : State).retire f

/-- RCB.WAIT (R123): in runahead a lane that would wait leaves the episode (R107). -/
def execRcbWait (f : FmtA) (s : State) : Result :=
  let b := f.dst.toNat
  let r := s.w.rcb.get {} b
  let wait := s.execSet f.cond &&& r.exp
  let s1 := s.endRun fun _ => nextWord s.pc (fmtLen f)
  if s.w.ra.isSome then .next (s1.leaveEpisode wait)
  else
    let w : Warp := { s1.w with
      rcb := s1.w.rcb.set {} b { r with arr := r.arr ||| wait }
      lanes := s1.w.lanes.mapIdx fun l x => if inSet wait l then { x with st := .waiting, bidx := b } else x }
    .next { s1 with w := w.releaseRcb b }

/-- RCB.CLR (R124). -/
def execRcbClr (f : FmtA) (s : State) : Result :=
  let b := f.dst.toNat
  let r := s.w.rcb.get {} b
  let e := s.execSet f.cond
  let w := { s.w with rcb := s.w.rcb.set {} b { arr := r.arr &&& ~~~e, exp := r.exp &&& ~~~e } }
  ({ s with w := if s.w.ra.isSome then w else w.releaseRcb b } : State).retire f

/-! ### Yielding, sleeping and priority (R125 to R128) -/

/-- NOP (R131). -/
def execNop (len : NopLen) (s : State) : Result :=
  .next (s.advance (match len with
    | .w64 => 8
    | .w96 => 12
    | .w128 => 16))

/-- YIELD (R125): its lanes are passed over for one choice after the clause, and the next header acts as with YIELD = 1. -/
def execYield (f : FmtA) (s : State) : Result :=
  let e := s.execSet f.cond
  if e = 0 then s.retire f
  else
    ({ s with w := { s.w with sched := { s.w.sched with hint := true, yielded := s.w.sched.yielded ||| e } } } : State).retire f

/-- SLEEP (R126). -/
def execSleep (f : FmtA) (s : State) : Result :=
  if s.execSet f.cond = 0 then s.retire f
  else
    ({ s with w := { s.w with sleep := some (s.time + min (s.usrc32 f f.sa).toNat 16777215) } } : State).retire f

/-- The value of PRIO.GET (R128). -/
def Sched.word (y : Sched) : Nat := y.prio % 16 + y.ceil % 16 * 16 + (if y.prom then 256 else 0)

/-- A value written to each executing lane, or with U once to a uniform register. -/
def State.putByU (s : State) (f : FmtA) (x : Nat → Word) : State :=
  let e := s.execSet f.cond
  if f.md.getLsbD 0 then
    match lowestLane e with
    | some l => s.setU f.dst.toNat (x l)
    | none => s
  else s.setV f.dst.toNat e x
def State.putByU2 (s : State) (f : FmtA) (x : Word64) : State :=
  let e := s.execSet f.cond
  if f.md.getLsbD 0 then (if e = 0 then s else s.setU2 f.dst.toNat x) else s.setV2 f.dst.toNat e fun _ => x

/-- PRIO.GET (R128). -/
def execPrioGet (f : FmtA) (s : State) : Result := (s.putByU f fun _ => BitVec.ofNat 32 s.w.sched.word).retire f

/-! ### Special registers and addresses (R129, R130) -/

/-- A special register of 32 bits, by selector. -/
def State.special (s : State) (sel l : Nat) : Nat :=
  if sel = 0x00 then l
  else if sel = 0x01 then s.w.idx
  else if sel = 0x02 then s.g.index
  else if sel = 0x03 then s.g.core
  else if sel = 0x04 then cluster s.g.core
  else if sel = 0x05 then s.g.die
  else if sel = 0x06 then lrNwarp s.g.lrec
  else if sel = 0x07 then s.w.slot
  else if sel = 0x08 then s.w.sched.word
  else if sel = 0x09 then s.ctxNum
  else if sel = 0x0A then (s.die s.g.die).step
  else s.ndie

/-- Selector of MOD (R129). -/
def selMod (f : FmtA) : Nat := f.md.toNat / 2

/-- SRD (R129). -/
def execSrd (f : FmtA) (s : State) : Result := (s.putByU f fun l => BitVec.ofNat 32 (s.special (selMod f) l)).retire f
/-- SRD.64 (R129): s.time, or s.ncyc, the whole part of the die's accumulator (R511). -/
def execSrd64 (f : FmtA) (s : State) : Result :=
  (s.putByU2 f (BitVec.ofNat 64 (if selMod f = 0x40 then s.time else (s.die s.g.die).ncyc / 2520))).retire f
/-- LDPC (R130). -/
def execLdpc (f : FmtA) (s : State) : Result := (s.putByU2 f (s.target f)).retire f

end Sys2Proof.Machine
end

