-- ==== Sys2Proof/Machine/Fetch.lean ====
section
/-! DEFINITION. The bytes of a word at an address, and the reasons that its place in a clause gives (R37, R38, R41). -/

namespace Sys2Proof.Machine

/-- The word at an address: its bytes, as many as its lowest two bits say, and zeros above (R37). -/
def State.wordBits (s : State) (pc : Nat) : BitVec 128 :=
  BitVec.ofNat 128 (leNat (s.fetchBytes pc (lengthOf (s.fetchByte pc))))

/-- An uncorrectable error that the fetch of a word meets: in its first byte, or in the bytes that this one says it has. -/
def State.wordBad (s : State) (pc : Nat) : Option Nat :=
  (s.fetchBad pc 1).or (s.fetchBad pc (lengthOf (s.fetchByte pc)))

/-- The bits are those of a clause header. -/
def isHeader (b : BitVec 128) : Bool := decide (b.extractLsb' 0 2 = 3)

/-- A word ends where a clause header can follow (R41). -/
def endsWell (pc n : Nat) : Bool := decide ((pc + n) % 32 = 28) || decide ((pc + n) % 8 = 0)

/-- Reasons that a word's place gives: a header among a clause's words, a word that crosses its block, and a last word that
ends where no header can follow. -/
def placeReasons (b : BitVec 128) (pc : Nat) (last : Bool) : List Nat :=
  when (isHeader b) 0x08 ++ when (decide (32 < pc % 32 + wordBytes b)) 0x0A
    ++ when (last && !(endsWell pc (wordBytes b))) 0x08

/-- Every reason that applies to a word of a clause (R57). -/
def clauseReasons (cx : DecodeCtx) (b : BitVec 128) (pc : Nat) : List Nat :=
  (if isHeader b then [] else reasonsOf cx b) ++ placeReasons b pc cx.last

end Sys2Proof.Machine
end

