-- ==== Sys2Proof/Machine/Access.lean ====
section
/-! DEFINITION. The accesses of the memory and atomic classes: their addresses and checks (R218, R219, R226 to R233), and
their performance at the points of coherence (R223 to R237, R242, R243, R271 to R273). -/

namespace Sys2Proof.Machine

/-! ### What a word accesses -/

/-- One access for the whole executing set (R228, R229). -/
def onceCode (c : Nat) : Bool := [0xF0, 0xF1, 0xFE, 0x100].contains c
/-- STZ.line and STZ.sec (R233). -/
def stzCode (c : Nat) : Bool := [0xFA, 0x101].contains c

/-- Bytes that an access moves (R220, R223 to R233, R271). -/
def Op.width (o : Op) : Nat :=
  let c := o.code
  if [0xE0, 0xE6].contains c then 1
  else if [0xE1, 0xE7].contains c then 2
  else if [0xE2, 0xE8, 0xEC, 0xEE, 0xF0].contains c then 4
  else if [0xE3, 0xE9, 0xED, 0xEF, 0xF1].contains c then 8
  else if [0xE5, 0xEB, 0x100].contains c then 4 * 2 ^ (o.f.md.toNat / 64)
  else if c = 0xFA then 128
  else if c = 0x101 then 32
  else if [0x125].contains c then 16
  else if (decide (0x118 ≤ c) && decide (c ≤ 0x11F)) || decide (c = 0x133) then 8
  else if decide (0x110 ≤ c) && decide (c ≤ 0x133) then 4
  else 16

/-- Alignment of a lane's address (R219, R271). -/
def Op.align (o : Op) : Nat :=
  if [0xE5, 0xEB, 0xE0, 0xE6, 0x18A].contains o.code then 1 else if o.code = 0xFB then 16 else o.width

/-- What an access is (R205). -/
def Op.kind (o : Op) : Kind :=
  if loadCode o.code || decide (o.code = 0x18A) then .read else if storeCode o.code then .write
  else if atomCode o.code || redCode o.code then .atomic else .quiet

/-- ACC of a fault record (R459): an atomic reads and writes. -/
def Op.acc (o : Op) : Nat :=
  match o.kind with
  | .read => 1
  | .write => 2
  | .atomic => 0xB
  | .fetch => 4
  | .quiet => 0

/-- The address of lane l (R54, R227, R230, R231): `row` is the row of LDT.tr. -/
def Op.addr (o : Op) (l : Nat) (row : Nat := 0) : Nat :=
  let disp : Int :=
    if 0xEC ≤ o.code ∧ o.code ≤ 0xEF then
      readInt (o.f.md.getLsbD 2) 32 (o.val32 1 l).toNat * 2 ^ (o.f.md.toNat / 8 % 8)
    else if o.code = 0xF2 ∨ o.code = 0xF3 then (l : Int) * (o.val32 1 l).toInt
    else if o.code = 0xFB then (row : Int) * (o.val32 1 l).toInt
    else 0
  effAddr o.x.space (o.base l) o.x.offset disp

/-- The 16-byte-aligned parts of a range (R226). -/
def parts16 (a n : Nat) : List (Nat × Nat) :=
  let m := min n (16 - a % 16)
  if m = n then [(a, n)] else [(a, m), (a + m, n - m)]

/-- The byte mask of ST.msk (R232). -/
def Op.msk (o : Op) (l : Nat) : Nat := (o.val32 1 l).toNat % 2 ^ 16

/-- The part of a range in each 4 KB page. -/
def pageParts (a : Nat) : Nat → Nat → List (Nat × Nat)
  | 0, _ => []
  | k + 1, n =>
    let m := 4096 - a % 4096
    if n ≤ m then [(a, n)] else (a, m) :: pageParts (a + m) k (n - m)

/-- What lane l accesses: address and length of each part. A record of NODE.ENQ has the size that `aux` keeps (R445); NODE.ENQN
checks its records one by one. -/
def Op.parts (o : Op) (l : Nat) : List (Nat × Nat) :=
  if o.code = 0x18A then
    let n := (o.aux[1]?).getD 0
    if o.x.space = 0 then pageParts (o.addr l) 2 n else [(o.addr l, n)]
  else if o.code = 0x18B then []
  else if o.code = 0xFB then (List.range 8).map fun i => (o.addr l i + 16 * (l / 8), 16)
  else if o.code = 0xE5 ∨ o.code = 0xEB then
    (if o.x.space = 0 then parts16 (o.addr l) o.width else [(o.addr l, o.width)])
  else if o.code = 0xFF ∧ o.msk l = 0 then []
  else [(o.addr l, o.width)]

/-! ### Translation and checks (R204, R205, R218) -/

/-- The translation of an address for an access: a cached one, or with `walk` a new walk; none where it must wait. -/
def State.lookup (s : State) (va : Nat) (k : Kind) (walk : Bool) : State × Option Xl :=
  match s.owner va with
  | none => (s, some { page := va / 4096 * 4096, size := 4096, status := 1, frame := 0, leaf := 0, own := 0xF })
  | some own =>
    if s.heldAt va k then (s, none)
    else
      let hit := match s.tlbHit s.g.die s.g.core va with
        | some e => if e.serves k then some e else none
        | none => none
      match hit with
      | some e =>
        (s.useEntry s.g.die s.g.core own e (if k.permitted e.leaf then k else .quiet),
          some { page := e.page, size := e.size, status := 0, frame := e.frame, leaf := e.leaf, own := own })
      | none =>
        if walk then
          let r := s.doWalk s.g.die s.g.core va k
          (r.2, some (if r.1.status = 0 then
              { page := r.1.page, size := r.1.size, status := 0, frame := r.1.frame, leaf := r.1.leaf, own := own }
            else { page := va / 4096 * 4096, size := 4096, status := r.1.status, frame := 0, leaf := 0, own := own }))
        else (s, none)

def Xl.covers (x : Xl) (va : Nat) : Bool := decide (x.page ≤ va) && decide (va < x.page + x.size)

/-- Offsets of a range that a CARVE takes away, given the way count as it stands, are held until it is done (R217). -/
def State.carveHolds (s : State) (o : Op) (last : Nat) : Bool :=
  s.warps.any fun w => w.wg == o.wg && w.carving && w.waits.any fun c =>
    decide (c.code = 0xF9) && decide (c.id < o.id)
      && (match c.aux with
          | [n] => decide (s.c.ways < n) && decide ((16 - n) * 32768 < s.g.base + last)
          | _ => false)

/-- What checking accesses has found so far: `wait` where a translation is still to come. -/
structure Checked where
  s      : State
  xl     : List Xl
  faults : List LaneFault
  wait   : Bool

/-- The first fault of lane l from the checks of R218 on one part. -/
def checkPart (o : Op) (walk : Bool) (l : Nat) (first : Bool) (c : Checked) (p : Nat × Nat) : Checked :=
  if c.faults.any (fun f => f.lane == l) then c
  else
    let fault (kind st va : Nat) : Checked :=
      { c with faults := c.faults ++ [{ lane := l, kind := kind, st := st, va := va }] }
    let misaligned := first && decide (p.1 % o.align ≠ 0)
    if o.x.space = 0 then
      match c.s.owner p.1, c.s.owner (p.1 + p.2 - 1) with
      | none, _ => fault 1 1 p.1
      | _, none => fault 1 1 (p.1 + p.2 - 1)
      | some _, some _ =>
        if misaligned then fault 3 0 p.1
        else
          match c.xl.find? fun x => x.covers p.1 && (x.status ≠ 0 || o.kind.permitted x.leaf) with
          | some x => if x.status = 0 then c else fault 4 x.status p.1
          | none =>
            let r := c.s.lookup p.1 o.kind walk
            match r.2 with
            | none => { c with s := r.1, wait := true }
            | some x =>
              let c1 : Checked := { c with s := r.1, xl := c.xl ++ [x] }
              if x.status ≠ 0 then
                { c1 with faults := c1.faults ++ [{ lane := l, kind := 4, st := x.status, va := p.1 }] }
              else if o.kind.permitted x.leaf then c1
              else { c1 with faults := c1.faults ++ [{ lane := l, kind := 5, st := 0, va := p.1 }] }
    else if c.s.carveHolds o (p.1 + p.2) then { c with wait := true }
    else if c.s.g.size < p.1 + p.2 then fault 2 0 p.1
    else if misaligned then fault 3 0 p.1
    else c

/-- The checks of lane l, part by part: the fault is that of the first part that fails one (R226). DESIGN CHOICE (log entry 52): so
it is for LDT.tr, in row order, where R231 names no order among the parts of a lane. -/
def checkLane (o : Op) (walk : Bool) (c : Checked) (l : Nat) : Checked :=
  let ps := o.parts l
  let c1 := ps.foldl (fun (b : Checked × Bool) p => (checkPart o walk l b.2 b.1 p, decide (o.code = 0xFB))) (c, true)
  c1.1

/-- The lanes that make an access of their own. -/
def Op.askers (o : Op) : List Nat := if onceCode o.code then (lanesOf o.e).take 1 else lanesOf o.e

/-- The checks of a word. -/
def State.checkOp (s : State) (o : Op) (walk : Bool) : Checked :=
  o.askers.foldl (checkLane o walk) { s := s, xl := o.xl, faults := [], wait := false }

/-- The faults of every lane that shares a failed access: of the whole set, or of a part of LDT.tr (R228, R231). -/
def Op.spread (o : Op) (fs : List LaneFault) : List LaneFault :=
  if onceCode o.code then
    match fs with
    | f :: _ => (lanesOf o.e).map fun l => { f with lane := l }
    | [] => []
  else fs

/-- The parked lanes of a word count in its class beside those that go on (R212, R273): the word counts once. Lanes that park past
the word wait for its destinations still. -/
def splitOut (outs : List Out) (o p : Op) (cls : Option Cls) : List Out :=
  outs.flatMap fun q =>
    if q.id = o.id ∧ q.id ≠ p.id ∧ !(outs.any fun x => x.id == p.id) then
      let r := { q with id := p.id, word := q.key, cls := cls, done := false }
      [{ q with word := q.key }, if o.again then r else { r with flag := none, vdst := [], wdst := [] }]
    else [q]

/-- An executing lane's address is owned by another die, the host or a peer (R212, R273). -/
def State.goesRemote (s : State) (o : Op) : Bool :=
  decide (o.x.space = 0) && o.askers.any fun l => (o.parts l).any fun p =>
    match s.owner p.1 with
    | some own => decide (own ≠ s.g.die)
    | none => false

/-- A no-allocate store: whether the chunks of its page suffice is checked when it is performed (R485). -/
def Op.mayLack (o : Op) : Bool := decide (o.x.evp = 6) && decide (o.x.space = 0) && (storeCode o.code || redCode o.code || atomCode o.code)

/-- Every check of a word is decided (R455, R456): lanes without a fault go on, those with one are parked under the
entry, which is kept; with none parked, and no check to come, the entry is freed. -/
def settleChecks (o : Op) (c : Checked) : State :=
  let fs := o.spread c.faults
  let bad := faultLanes fs
  let o1 := { o with xl := c.xl, pcm := o.pcm ||| (o.e &&& ~~~bad) }
  if bad = 0 then
    if o.mayLack then c.s.putOp { o1 with st := .running } else (c.s.letLog o).putOp { o1 with st := .running, logi := none }
  else
    let r := c.s.faultOp { o1 with recs := [] } o.acc fs
    let s1 := r.1
    let on := o.e &&& ~~~bad
    -- the lanes that go on keep the operation; the parked lanes wait under an operation of their own, or join those of the word
    -- that wait already
    let cls := if s1.goesRemote { o with e := bad } then o.cls else none
    let old := s1.w.parked.find? fun q => o.logi.isSome && decide (q.logi = o.logi) && decide (q.st = .parked)
    let p : Op := match old with
      | some q => { q with e := q.e ||| bad, park := q.park ||| bad, pcm := o1.pcm, recs := q.recs ++ r.2.recs }
      | none => { r.2 with id := s1.nextId, ord := o.place, e := bad, park := bad, xl := [], cls := cls }
    let move (u : Unsettled) : Unsettled := if r.2.recs.any (fun m => m.seq == u.seq) then { u with op := p.id } else u
    let s2 := s1.updCtx fun k => { k with unsettled := k.unsettled.map move }
    let parked := s2.w.parked.filter (fun q => q.id != p.id) ++ [p]
    let s3 : State := { s2 with nextId := s1.nextId + 1, w := { s2.w with parked := parked, outs := splitOut s2.w.outs o p cls } }
    if on = 0 then (s3.mapOp o.id fun _ => none).complete o.id
    else s3.putOp { o1 with e := on, st := .running, logi := if o.mayLack then o.logi else none }

/-- Extra bank clocks of a scratch word (R214, R494): the most distinct 16-byte chunks of its parts in one bank, less one. -/
def bankExtra (base : Nat) (ps : List (Nat × Nat)) : Nat :=
  let chunks := (ps.flatMap fun p =>
    if p.2 = 0 then [] else (List.range ((base + p.1 + p.2 - 1) / 16 + 1 - (base + p.1) / 16)).map fun i => (base + p.1) / 16 + i).foldl
      (fun cs k => if cs.contains k then cs else k :: cs) []
  ((List.range 32).foldl (fun m b => max m (chunks.countP fun k => k % 32 == b)) 0) - 1

/-- A scratch word counts its extra bank clocks as it issues or is replayed: the lanes that fault access nothing. -/
def Checked.countBanks (c : Checked) (o : Op) : Checked :=
  if o.x.space = 0 then c
  else { c with s := c.s.count 0x0B (bankExtra c.s.g.base ((o.askers.filter fun l => !(c.faults.any fun f => f.lane == l)).flatMap o.parts)) }

/-- An access takes its place in the warp's order. The checks that need no walk are made when it issues; one that needs a walk
waits for it. -/
def State.enterAccess (s : State) (o : Op) : State :=
  let add (s : State) (o : Op) : State := { s with w := { s.w with pend := s.w.pend ++ [o] } }
  let c := (s.checkOp o false).countBanks o
  if o.code = 0x18B then add s { o with st := .running }
  else if c.wait then add s o
  else if c.faults.isEmpty then
    (if o.mayLack then add c.s { o with xl := c.xl, pcm := o.pcm ||| o.e, st := .running }
     else add (c.s.letLog o) { o with xl := c.xl, pcm := o.pcm ||| o.e, st := .running, logi := none })
  else settleChecks o { c with s := add c.s o }

/-! ### Places and points -/

/-- The place of a byte under an operation's translations. -/
def Op.loc (o : Op) (va : Nat) : Loc :=
  match o.xl.find? fun x => x.covers va && decide (x.status = 0) with
  | some x => { va := va, own := x.own, pa := x.frame + (va - x.page), cmp := cmpOf x.leaf }
  | none => { va := va, own := 0xC, pa := va }

/-- The point of an access to an owner (R242, R252): for host and peer addresses RACQ adds nothing. -/
def State.pointFor (s : State) (o : Op) (own : Nat) : Point :=
  if o.x.racq && decide (own < 4) then .home
  else pointOf (s.fusedAt s.g.die s.g.core) (s.scopeOf o.x.scope.toNat) s.g.die own

def Op.evp (o : Op) : Nat := o.x.evp.toNat

/-! ### Messages of an access (R504) -/

/-- A line of an access that another owner has to serve: the owner, the line, and the bytes of data that the request carries. -/
structure Ask where
  own  : Nat
  line : Nat
  data : Nat
  deriving DecidableEq, Repr

/-- The bytes of an access that another owner has to serve, part by part (log entry 18): a store that the guest partition does not
take, and a read of bytes that neither it nor, at a narrow scope, L1 holds. -/
def State.asks (s : State) (o : Op) : List Ask :=
  if o.x.space ≠ 0 then []
  else
    o.askers.flatMap fun l => (o.parts l).flatMap fun q =>
      match s.owner q.1 with
      | none => []
      | some own =>
        let writes := storeCode o.code || redCode o.code || atomCode o.code
        let p := s.pointFor o own
        let held := (List.range q.2).all fun i =>
          holdsByte (s.guestLine s.g.die (q.1 + i)) ((q.1 + i) % 128)
            || (decide (p = .l1) && holdsByte (s.l1Line s.g.die s.g.core (q.1 + i)) ((q.1 + i) % 128))
        let far := decide (p = .home) || (if storeCode o.code then decide (o.x.evp = 6) || decide ((o.aux[0]?).getD 0 = own + 1)
          else !held)
        if own ≠ s.g.die ∧ far = true ∧ cctlCode o.code = false then
          [{ own := own, line := q.1 / 128, data := if writes then q.2 else 0 }]
        else []

/-- The lines that an access asks for, each once. -/
def askLines (as : List Ask) : List Ask :=
  as.foldl (fun bs a =>
    if bs.any fun b => b.own == a.own && b.line == a.line then
      bs.map fun b => if b.own = a.own ∧ b.line = a.line then { b with data := b.data + a.data } else b
    else bs ++ [a]) []

/-- The requests of an access to other owners, one packet for each line (log entry 18). -/
def State.sendRequests (s : State) (o : Op) : State :=
  (askLines (s.asks o)).foldl (fun t a => t.post (s.phys s.g.die) (s.ownerPos a.own) vcRequest a.data o.id) s

/-- The owners' responses, posted as the access is performed: the bytes of what it reads. -/
def State.sendResponses (s : State) (as : List Ask) (o : Op) : State :=
  (askLines as).foldl (fun t a =>
    t.post (s.ownerPos a.own) (s.phys s.g.die) vcResponse (if storeCode o.code || redCode o.code then 0 else max a.data 32)) s

/-! ### Issue of an access -/

/-- The tag of a store that names an open ordered channel: one above its die; 0 where the channel is local (R254). -/
def State.tagOf (s : State) (x : Upper) : Nat :=
  if x.rch = 0 then 0
  else
    let c := s.g.oc.get {} (x.rch.toNat - 1)
    if c.opened && !c.loc then c.die + 1 else 0

/-- A word of the memory or atomic class issues (R43, R456): a full operand log refuses it. -/
def State.accessWord (s : State) (code : Nat) (f : FmtA) (x : Upper) (wid : List Nat) (vdst wdst : List Nat) : Result :=
  let e := s.execSet f.cond
  if e = 0 then s.retireLong
  else
    match s.freeLog with
    | none => s.refuseLog
    | some k =>
      let o0 := s.mkOp code f x wid e
      let o := { o0 with
        logi := some k, aux := [s.tagOf x],
        cls := if (storeCode code || atomCode code || redCode code) && s.goesRemote o0 then some .rem else none }
      let s1 := ((s.addOut o vdst wdst).takeLog k o.id).advance 16
      .next ((s1.sendRequests o).enterAccess o)

/-- A word that makes no checks (R234 to R237): it takes its place among the warp's accesses. -/
def State.quietWord (s : State) (code : Nat) (f : FmtA) (x : Upper) (wid : List Nat) (vdst : List Nat) : Result :=
  let e := s.execSet f.cond
  if e = 0 then s.retireLong
  else
    match s.freeLog with
    | none => s.refuseLog
    | some _ =>
      let o := { s.mkOp code f x wid e with st := .running }
      let s1 := ((s.addOut o vdst []).advance 16).sendRequests o
      .next { s1 with w := { s1.w with pend := s1.w.pend ++ [o] } }

/-- Registers that SA supplies as a base (R54). -/
def baseRegs (x : Upper) : Nat := if x.space = 0 then 2 else 1

/-! ### Replay (R457) -/

/-- The resumable entry at the head run's word issues again for its lanes alone, with its logged operands; its flag and
its destinations are held again, and its class counts the word as it did (R212). -/
def State.replay (s : State) (o : Op) (lanes : LaneMask) (vdst wdst : List Nat) : State :=
  let o1 := { o with
    id := s.nextId, ord := o.place, e := lanes, park := 0, recs := [], st := .queued, xl := [], flag := s.flagFor o.f }
  let rest := o.park &&& ~~~lanes
  let s0 := if rest = 0 then s.mapOp o.id fun _ => none else s.putOp { o with park := rest, e := rest }
  let again (q : Out) : Out :=
    { q with id := o1.id, word := q.key, flag := o1.flag, cls := o1.cls, done := false, vdst := vdst, wdst := wdst }
  let outs := s0.w.outs.flatMap fun q => if q.id = o.id then (if rest = 0 then [again q] else [q, again q]) else [q]
  let s1 := ({ s0 with nextId := o1.id + 1, w := { s0.w with outs := outs } } : State).advance 16
  let s2 : State :=
    { s1 with c := { s1.c with log := s1.c.log.map fun p => if some p.1 = o.logi then (p.1, o1.id) else p } }
  (s2.sendRequests o1).enterAccess o1

/-! ### Performing -/

/-- One byte as an access reads it. -/
def State.readAt (s : State) (o : Op) (a : Nat) : Byte :=
  if o.x.space = 0 then
    let c := o.loc a
    s.loadByte (s.pointFor o c.own) s.g.die s.g.core c
  else s.g.scratch.get byte0 (a % 2 ^ 32)

def State.readRange (s : State) (o : Op) (a n : Nat) : List Byte := (List.range n).map fun i => s.readAt o (a + i)

/-- What reading a range leaves in the caches. -/
def State.fillRange (s : State) (o : Op) (a n : Nat) : State :=
  if o.x.space = 0 then
    (List.range n).foldl (fun s i =>
      let c := o.loc (a + i)
      s.loadFill (s.pointFor o c.own) s.g.die s.g.core c o.evp) s
  else s

/-- A range written by an access (R224, R243, R254). -/
def State.writeRange (s : State) (o : Op) (a : Nat) : List Byte → State
  | [] => s
  | b :: bs =>
    let s1 :=
      if o.x.space = 0 then
        let c := o.loc a
        s.storeByte (s.pointFor o c.own) s.g.die s.g.core c b o.evp (decide ((o.aux[0]?).getD 0 = c.own + 1))
      else { s with g := { s.g with scratch := s.g.scratch.set byte0 (a % 2 ^ 32) b } }
    s1.writeRange o (a + 1) bs

/-- An uncorrectable error where an access reads a byte: its location (R467). -/
def State.badAt (s : State) (o : Op) (a : Nat) : Option Nat :=
  if s.bad.isEmpty then none
  else if o.x.space ≠ 0 then
    if s.bad.contains (3, s.g.id, a / 16) then some 3 else none
  else
    let c := o.loc a
    let line := s.l1Line s.g.die s.g.core a
    let p := s.pointFor o c.own
    if line.any (fun l => l.isDirty (a % 128)) || (decide (p = .l1) && holdsByte line (a % 128)) then none
    else if p = .l1 then s.l2Bad s.g.die c
    else if p = .guest ∨ (c.own ≠ s.g.die ∧ (s.guestLine s.g.die a).any (fun l => l.isDirty (a % 128)) = true) then
      s.guestBad s.g.die c
    else s.homeBad c

/-- The bytes that lane l reads, in register order (R223, R226, R231). -/
def State.laneBytes (s : State) (o : Op) (l : Nat) : List Byte :=
  if o.code = 0xFB then
    (List.range 8).flatMap fun i => s.readRange o (o.addr l i + 2 * l) 2
  else s.readRange o (o.addr l) o.width

/-- The register values of a load, extended to whole registers (R223). -/
def Op.loadWords (o : Op) (bs : List Byte) : List Word :=
  if o.code = 0xE0 ∨ o.code = 0xE1 then
    [BitVec.ofNat 32 (wrapN 32 (readInt (o.f.md.getLsbD 1) (8 * o.width) (leNat bs)))]
  else (List.range ((bs.length + 3) / 4)).map fun k => BitVec.ofNat 32 (leNat ((bs.drop (4 * k)).take 4))

/-- Registers written from a list of words, in the lanes of a set. -/
def State.setRegs (s : State) (r : Nat) (e : LaneMask) (x : Nat → List Word) (n : Nat) : State :=
  (List.range n).foldl (fun s k => s.setV (r + k) e fun l => nth0 (x l) k) s

/-- The number of registers that a load writes. -/
def Op.dstRegs (o : Op) : Nat := if o.width ≤ 4 then 1 else o.width / 4

/-- The lanes of an access that meet an uncorrectable error as they read, each with its address and location (R467). -/
def State.badLanes (s : State) (o : Op) : List (Nat × Nat × Nat) :=
  if s.bad.isEmpty then []
  else
    (lanesOf o.e).filterMap fun l =>
      ((o.parts l).findSome? fun p => (List.range p.2).findSome? fun i => (s.badAt o (p.1 + i)).map fun c => (p.1 + i, c)).map
        fun q => (l, q.1, q.2)

/-- The pending machine check of a read (R467): its destination stays unwritten in the lanes affected. -/
def State.machineCheck (s : State) (loc : Nat) (lanes : LaneMask) (addr : Nat) (pc : Word64) : State :=
  let m : MCheck := { location := BitVec.ofNat 32 loc, lanes := lanes, addr := BitVec.ofNat 64 addr, pc := pc }
  { s with w := { s.w with mcPend := s.w.mcPend ++ [m] } }

/-- The machine check of the lanes that have met an error; none where there are none. -/
def State.checkLanes (s : State) (o : Op) (errs : List (Nat × Nat × Nat)) : State :=
  match errs with
  | (_, a, c) :: _ => s.machineCheck c (laneSet fun l => errs.any fun q => q.1 == l) a o.pc
  | [] => s

/-- L1 lacks a byte of a range. -/
def State.l1Lacks (s : State) (a n : Nat) : Bool :=
  (List.range n).any fun i => !(holdsByte (s.l1Line s.g.die s.g.core (a + i)) ((a + i) % 128))

/-- L1 lacks a byte of the sector at an address, of which some bytes may be valid alone (R208). -/
def State.sectorMissing (s : State) (a : Nat) : Bool := s.l1Lacks (a / 32 * 32) 32

/-- L1 sector misses of an access that goes through L1: one whose point is there, and any load (R494). A sector is missed where
L1 lacks a byte of it that the access touches. -/
def State.missesOf (s : State) (o : Op) : Nat :=
  if o.x.space ≠ 0 ∨ !(loadCode o.code) ∧ s.pointFor o s.g.die ≠ .l1 then 0
  else
    let ps := o.askers.flatMap o.parts
    (ps.flatMap fun p => [p.1 / 32, (p.1 + p.2 - 1) / 32]).eraseDups.countP fun k =>
      ps.any fun p =>
        let lo := max p.1 (32 * k)
        s.l1Lacks lo (min (p.1 + p.2) (32 * k + 32) - lo)

/-- A load performed (R223, R228, R229): every lane reads, the caches fill, and the lanes that met no uncorrectable error
are written. -/
def State.performLoad (s : State) (o : Op) : State :=
  let ws := (List.range 32).map fun l => if inSet o.e l then o.loadWords (s.laneBytes o l) else []
  let val (l : Nat) : List Word :=
    if onceCode o.code then (ws[(lowestLane o.e).getD 0]?).getD [] else (ws[l]?).getD []
  let errs := s.badLanes o
  let bad := laneSet fun l => errs.any fun q => q.1 == l
  let s1 := (s.count 0x0A (s.missesOf o))
  let s2 := o.askers.foldl (fun s l => (o.parts l).foldl (fun s p => s.fillRange o p.1 p.2) s) s1
  let s3 :=
    if o.code = 0xF0 ∨ o.code = 0xF1 ∨ o.code = 0xFE then
      if bad ≠ 0 then s2
      else (List.range o.dstRegs).foldl (fun s k => s.setU (o.f.dst.toNat + k) (nth0 (val 0) k)) s2
    else s2.setRegs o.f.dst.toNat (o.e &&& ~~~bad) val (if o.code = 0xFB then 4 else o.dstRegs)
  s3.checkLanes o errs

/-- The bytes that lane l stores (R224, R230): the low bytes of SC's registers. -/
def Op.storeBytes (o : Op) (l : Nat) : List Byte := leBytes o.width (o.val128 2 l).toNat

/-- A store of lane l (R224, R232). -/
def State.storeLane (s : State) (o : Op) (l : Nat) : State :=
  if o.code = 0xFF then
    (List.range 16).foldl (fun s k =>
      if (o.msk l).testBit k then s.writeRange o (o.addr l + k) [((o.storeBytes l)[k]?).getD 0] else s) s
  else s.writeRange o (o.addr l) (o.storeBytes l)

/-- The bytes of a range of a line invalidated (R233). -/
def Line.invalidate (l : Line) (i n : Nat) : Option Line :=
  let m : BitVec 128 := (BitVec.ofNat 128 (2 ^ n - 1)) <<< i
  let l1 := { l with valid := l.valid &&& ~~~m, dirty := l.dirty &&& ~~~m }
  if l1.valid = 0 then none else some l1

/-- A line of a list replaced, or removed. -/
def replaceLine (ls : List Line) (ctx slice tag : Nat) (g : Line → Option Line) : List Line :=
  ls.filterMap fun l => if lineIs ctx slice tag l then g l else some l

/-- STZ in the global space (R233): the copies go, and the zeros are written at the owner. -/
def State.stzAt (s : State) (o : Op) (a n : Nat) : State :=
  let d := s.g.die
  let s1 := s.updCore d (s.l1Core d s.g.core a) fun c =>
    { c with l1 := replaceLine c.l1 s.ctxNum 0 (a / 128) fun l => l.invalidate (a % 128) n }
  let s2 := s1.updDie d fun q =>
    { q with guest := replaceLine q.guest s.ctxNum (sliceOf a) (a / 128) fun l => l.invalidate (a % 128) n }
  (List.range n).foldl (fun s i => s.homeWrite (o.loc (a + i)) 0 o.evp) s2

/-- The value of R272 that an atomic writes; none where it writes nothing. -/
def atomNew (code : Nat) (f : FmtA) (old b c : Nat) : Option Nat :=
  let u := f.md.getLsbD 1
  let rm := Rm.ofCode (f.md.toNat / 4)
  if code = 0x110 ∨ code = 0x126 then some ((old + b) % 2 ^ 32)
  else if code = 0x118 ∨ code = 0x133 then some ((old + b) % 2 ^ 64)
  else if code = 0x111 then some (pickMin u 32 old b)
  else if code = 0x112 then some (pickMax u 32 old b)
  else if code = 0x119 then some (pickMin u 64 old b)
  else if code = 0x11A then some (pickMax u 64 old b)
  else if code = 0x113 ∨ code = 0x11B then some (old &&& b)
  else if code = 0x114 ∨ code = 0x11C then some (old ||| b)
  else if code = 0x115 ∨ code = 0x11D then some (old ^^^ b)
  else if code = 0x116 ∨ code = 0x11E then some b
  else if code = 0x117 ∨ code = 0x11F ∨ code = 0x125 then (if old = b then some c else none)
  else if code = 0x120 ∨ code = 0x127 then some (fAdd f32 rm old b).bits
  else if code = 0x121 then some (fMin f32 old b).bits
  else if code = 0x122 then some (fMax f32 old b).bits
  else if code = 0x123 then some (if b ≤ old then 0 else old + 1)
  else if code = 0x124 then some (if old = 0 ∨ b < old then b else old - 1)
  else none

/-- One lane's atomic (R271): the machine afterwards, and the old value. One that writes nothing leaves in the caches what a load
at its point leaves, so that the warp reads no older value later (R245). -/
def State.atomLane (s : State) (o : Op) (l : Nat) : State × Nat :=
  let n := o.width
  let a := o.addr l
  let old := leNat (s.readRange o a n)
  let lim := 2 ^ (8 * n)
  match atomNew o.code o.f old ((o.val128 1 l).toNat % lim) ((o.val128 2 l).toNat % lim) with
  | some x => (s.writeRange o a (leBytes n x), old)
  | none => (s.fillRange o a n, old)

/-- The lanes of a word in ascending order, each reading what lower lanes have left. -/
def State.performAtoms (s : State) (o : Op) : List Nat → State × List (Nat × Nat)
  | [] => (s, [])
  | l :: ls =>
    let r := s.atomLane o l
    let q := r.1.performAtoms o ls
    (q.1, (l, r.2) :: q.2)

/-- An atomic or a reduction performed; ATOM writes the old values to its destination (R271). A lane that meets an uncorrectable
error reads nothing and writes nothing (R467). -/
def State.performAtomic (s : State) (o : Op) : State :=
  let errs := s.badLanes o
  let good := o.e &&& ~~~(laneSet fun l => errs.any fun q => q.1 == l)
  let r := (s.count 0x0A (s.missesOf o)).performAtoms o (lanesOf good)
  let old (l : Nat) : Nat := ((r.2.find? fun p => p.1 == l).map (·.2)).getD 0
  (if atomCode o.code then
    r.1.setRegs o.f.dst.toNat good (fun l => (List.range (o.width / 4)).map fun k => BitVec.ofNat 32 (old l / 2 ^ (32 * k)))
      (o.width / 4)
  else r.1).checkLanes o errs

/-! ### Prefetch, cache control and queries (R234 to R237) -/

/-- The line of an address asked of its owner, where the guest partition lacks a byte of it (log entry 18). -/
def State.askLine (s : State) (va own : Nat) : State :=
  if own = s.g.die || (List.range 128).all fun i => holdsByte (s.guestLine s.g.die va) i then s else s.ask own vcRequest 0 128

/-- A line fetched without a fault, into L1 and L2 or into L2 alone; a line that would fault, or that something holds, is dropped
(R234, R480, R509). Its L1 misses are
counted where `counts` says so: not in runahead (R109, R494). -/
def State.prefetchLine (s : State) (va : Nat) (l1 : Bool) (evp : Nat) (counts : Bool := true) : State :=
  let r := if s.heldAt va .quiet then (s, none) else s.lookup va .quiet true
  match r.2 with
  | some x =>
    if x.status = 0 ∧ Kind.read.permitted x.leaf then
      (List.range 4).foldl (fun s k =>
        let a : Loc := { va := va / 128 * 128 + 32 * k, own := x.own, pa := x.frame + (va / 128 * 128 - x.page) + 32 * k,
                         cmp := cmpOf x.leaf }
        if l1 then
          (s.count 0x0A (if counts && s.sectorMissing a.va then 1 else 0)).l1Fill s.g.die s.g.core a evp
        else if x.own = s.g.die then s.homeFill a evp else s.guestFill s.g.die a evp) (r.1.askLine va x.own)
    else r.1
  | none => r.1

/-- Lines from a first to a last one, in ascending order. -/
def State.prefetchLines (s : State) (line : Nat) (evp : Nat) : Nat → State
  | 0 => s
  | n + 1 => (s.prefetchLine (128 * line % 2 ^ 64) false evp).prefetchLines (line + 1) evp n

def State.performFill (s : State) (o : Op) : State :=
  if o.code = 0xFD then
    let a := o.addr 0
    let len := min (o.val32 1 0).toNat 4194304
    if len = 0 then s else s.prefetchLines (a / 128) o.evp ((a + len - 1) / 128 + 1 - a / 128)
  else (lanesOf o.e).foldl (fun s l => s.prefetchLine (o.addr l) (decide (o.code = 0xF4)) o.evp) s

/-- CCTL on one line of a cache (R236). -/
def cctlLine (code : Nat) (l : Line) : Option Line :=
  if code = 0xF6 then l.dropSectors else if code = 0xF7 then some l.clean else none

/-- CCTL on the line of an address, from the inside out (R236). -/
def State.cctlAt (s : State) (code lvl va : Nat) : State :=
  let d := s.g.die
  let wb := decide (code ≠ 0xF6)
  let s1 := match s.l1Line d s.g.core va with
    | some l => (if wb then s.l1Writeback d (s.l1Core d s.g.core va) l else s).updCore d (s.l1Core d s.g.core va) fun c =>
        { c with l1 := replaceLine c.l1 s.ctxNum 0 (va / 128) (cctlLine code) }
    | none => s
  let s2 :=
    if lvl = 0 then s1
    else
      match s1.guestLine d va with
      | some l => (if wb then s1.guestWriteback (s1.phys d) l else s1).updDie d fun q =>
          { q with guest := replaceLine q.guest s.ctxNum (sliceOf va) (va / 128) (cctlLine code) }
      | none => s1
  if lvl ≠ 2 then s2
  else
    match s2.locOf va with
    | some a =>
      if a.own < 4 then
        match findLine (s2.die a.own).l2 0 (sliceOf va) (a.pa / 128) with
        | some l => (if wb then s2.homeWriteback a.own l else s2).updDie a.own fun q =>
            { q with l2 := replaceLine q.l2 0 (sliceOf va) (a.pa / 128) (cctlLine code) }
        | none => s2
      else s2
    | none => s2

def State.performCctl (s : State) (o : Op) : State :=
  (lanesOf o.e).foldl (fun s l => s.cctlAt o.code (o.f.md.toNat / 64) (o.addr l)) s

/-- PSZ of a page size (R237). -/
def pszOf (size : Nat) : Nat :=
  if size = 2 ^ 12 then 0 else if size = 2 ^ 16 then 1 else if size = 2 ^ 21 then 2 else if size = 2 ^ 25 then 3
  else if size = 2 ^ 30 then 4 else 5

/-- The word that TLBQ writes (R237). -/
def tlbqWord (own : Nat) (x : Xl) : Word :=
  BitVec.ofNat 32 (x.status * 2 ^ 28 + own * 2 ^ 24 + (if x.status = 0 then pszOf x.size else 7) * 2 ^ 21
    + (if x.status = 0 then x.leaf % 256 else 0))

/-- TLBQ of each lane in turn. -/
def State.performTlbq (s : State) (o : Op) : State :=
  (lanesOf o.e).foldl (fun s l =>
    let r := s.lookup (o.addr l) .quiet true
    match r.2 with
    | some x => r.1.setV o.f.dst.toNat ((1 : LaneMask) <<< l) fun _ => tlbqWord ((s.owner (o.addr l)).getD 0xF) x
    | none => r.1) s

/-! ### The events (R202, R223, R224, R252) -/

/-- The scratch range that a BXFORM transforms (R300). -/
def Op.bxRange (o : Op) : Nat × Nat :=
  (effAddr 1 (o.val32 0 0).toNat o.x.offset, (o.val32 2 0).toNat)

/-- A BXFORM that issued earlier holds an access to its range (R300). -/
def State.bxHolds (s : State) (o : Op) (a n : Nat) : Bool :=
  s.c.copyq.any fun b => decide (b.code = 0x14A) && decide (b.wg = o.wg) && decide (b.id < o.id)
    && decide (a < b.bxRange.1 + b.bxRange.2) && decide (b.bxRange.1 < a + n)

/-- Older stores of the workgroup tagged with the same channel are not performed yet (R255). -/
def State.tagHeld (s : State) (o : Op) : Bool :=
  decide ((o.aux[0]?).getD 0 ≠ 0) && s.warps.any fun w => w.wg == o.wg && w.pend.any fun p =>
    decide (p.id < o.id) && storeCode p.code && p.x.rch == o.x.rch && decide ((p.aux[0]?).getD 0 ≠ 0)

/-! ### Order among a warp's accesses (R225, R245, R246) -/

/-- The bytes that an access touches: those of its lanes' parts, the whole lines of CCTL, the records of NODE.ENQN; none for a
prefetch, a query or a word that only orders. -/
def Op.touches (o : Op) : List (Nat × Nat) :=
  if fillCode o.code ∨ o.code = 0xFC ∨ orderOnly o.code = true then []
  else if cctlCode o.code then (lanesOf o.e).map fun l => (o.addr l / 128 * 128, 128)
  else if o.code = 0x18B then [(o.addr 0, (o.aux[1]?).getD 0 * (o.val32 2 0).toNat)]
  else o.askers.flatMap o.parts

/-- Something holds an access back whose translation stands: an address that is being moved, or whose owner relocks, an entry to
promote (R252), or a transformation of its scratch bytes (R300). A shoot-down does not: it waits for the access (R480). -/
def State.opHeld (s : State) (o : Op) : Bool :=
  (o.onScratch && o.touches.any fun p => s.bxHolds o p.1 p.2) ||
  decide (o.x.space = 0) && o.askers.any fun l => (o.parts l).any fun p =>
    s.slotHeld p.1 o.kind || (o.x.racq && (s.racqEntry s.g.die s.g.core (o.loc p.1)).isSome)

/-- Two global ranges hold one byte of memory under two addresses (R207): told by their frames, or by their places in a page,
which aliases share, where a translation is still to come. -/
def aliased (p o : Op) (a b : Nat × Nat) : Bool :=
  let known (o : Op) (a : Nat) : Bool := decide (o.code ≠ 0x18B) && o.xl.any fun x => x.covers a && decide (x.status = 0)
  if known p a.1 && known o b.1 then
    let x := p.loc a.1
    let y := o.loc b.1
    x.own == y.own && decide (x.pa < y.pa + b.2) && decide (y.pa < x.pa + a.2)
  else decide ((b.1 + 4096 - a.1 % 4096) % 4096 < a.2) || decide ((a.1 + 4096 - b.1 % 4096) % 4096 < b.2)

/-- Two accesses touch one byte. -/
def Op.meets (p o : Op) : Bool :=
  decide (p.x.space = o.x.space) && p.touches.any fun a => o.touches.any fun b =>
    (decide (a.1 < b.1 + b.2) && decide (b.1 < a.1 + a.2)) || (decide (p.x.space = 0) && aliased p o a b)

/-- An earlier access of the warp that a later one must follow: an acquire or a fence before any access, any access before a
release (R246, R274), records of NODE.ENQ and NODE.ENQN among themselves (R438), and accesses to one byte (R225); what follows
a CCTL is not held by it (R236). -/
def Op.before (p o : Op) : Bool :=
  acqOf p.x.ord.toNat || decide (p.code = 0x128) || relOf o.x.ord.toNat
    || ([0x18A, 0x18B].contains p.code && [0x18A, 0x18B].contains o.code) || (!(cctlCode p.code) && p.meets o)

/-- A release that issued while a replayed access was parked waits for the access (R458), which therefore goes before it and
before what follows it. -/
def Op.owedBy (o p : Op) : Bool := decide (o.ord ≠ 0) && decide (o.ord < p.id) && (relOf p.x.ord.toNat || orderOnly p.code)

/-- The accesses of a list, in the warp's order, that a replayed one may have to follow: not those that wait for it, nor those
that must follow one of these (R458). -/
def Op.ahead (o : Op) (ps : List Op) : List Op :=
  if o.ord = 0 then ps
  else
    (ps.foldl (fun (c : List Op × List Op) p =>
      if o.owedBy p || c.1.any (fun q => q.before p) then (c.1 ++ [p], c.2) else (c.1, c.2 ++ [p])) ([], [])).2

/-- Nothing holds an access of the warp in focus whose checks are decided, and no earlier access that it must follow is still to
come. An EVWAIT or a GRAPH.WAIT that has issued before it is an acquire (R449, R450). -/
def State.opFree (s : State) (o : Op) : Bool :=
  !(s.opHeld o) && s.releaseOk o
    && !((o.ahead (s.w.pend.takeWhile fun p => p.id != o.id)).any fun p => p.before o)
    && !(s.w.waits.any fun p => [0x18D, 0x190].contains p.code && decide (p.id < o.place))

/-- An access of the warp in focus may be performed: its checks are decided, its requests have arrived, and nothing holds it. -/
def State.opReady (s : State) (o : Op) : Bool := decide (o.st = .running) && !(s.onLinks o.id) && s.opFree o

/-- The note of a releasing access (R251). -/
def State.noteRelease (s : State) (o : Op) : State :=
  if relOf o.x.ord.toNat && decide (o.x.space = 0) then
    (lanesOf o.e).foldl (fun s l => (o.parts l).foldl (fun s p =>
      s.releaseNote s.g.die s.g.core (o.loc p.1) (s.scopeOf o.x.scope.toNat)) s) s
  else s

/-- The acquire steps of an access (R248, R252). -/
def State.acquireAfter (s : State) (o : Op) : State :=
  if acqOf o.x.ord.toNat then
    let sc := s.scopeOf o.x.scope.toNat
    let owned := o.askers.any fun l => (o.parts l).any fun p => decide ((o.loc p.1).own < 4)
    s.acquireSteps s.g.die s.g.core (if o.x.racq && owned then max sc 5 else sc)
  else s

/-- The access leaves the list and is complete, its entry freed; words that only order follow as they may. -/
def State.afterAccess (s : State) (o : Op) : State :=
  let s1 := s.letLog o
  (({ s1 with w := { s1.w with pend := s1.w.pend.filter fun p => p.id != o.id } } : State).complete o.id).drain

/-! ### What engine operations still read (R256) -/

/-- Words whose operations read global memory as engines; of LAUNCH, LAUNCH.dep and GRAPH.START the hub reads records so (R444). -/
def engineCode (code : Nat) : Bool :=
  (decide (0x146 ≤ code) && decide (code ≤ 0x185) && decide (code ≠ 0x17A)) || [0x188, 0x189, 0x18F].contains code

/-- What a copy moves: the bytes of the operation. -/
def Op.copyLen (o : Op) : Nat :=
  let w := (o.val32 2 0).toNat
  if o.code = 0x149 then w / 65536 * (w % 65536) else w

/-- Row length and pitch of COPY.tile. -/
def Op.rowLen (o : Op) : Nat := (o.val32 2 0).toNat % 65536
def Op.rows (o : Op) : Nat := (o.val32 2 0).toNat / 65536
def Op.pitch (o : Op) : Int := (o.reg 2 1 0).toInt

/-- The global address that SA and OFFSET give. -/
def Op.gAddr (o : Op) : Nat := effAddr 0 (o.val64 0 0).toNat o.x.offset

/-- The global address of byte i on the SA side: rows of COPY.tile lie a pitch apart (R298). -/
def Op.gAt (o : Op) (i : Nat) : Nat :=
  if o.code = 0x149 then wrapN 64 ((o.gAddr : Int) + ((i / o.rowLen : Nat) : Int) * o.pitch + ((i % o.rowLen : Nat) : Int))
  else (o.gAddr + i) % 2 ^ 64

/-- A byte that an engine operation may read. -/
def Op.mayRead (o : Op) (va : Nat) : Bool :=
  let within (a n : Nat) : Bool := decide ((va + 2 ^ 64 - a) % 2 ^ 64 < n)
  if o.code = 0x147 ∨ o.code = 0x14A ∨ o.code = 0x14B then false
  else if o.code = 0x146 ∨ o.code = 0x148 then within o.gAddr o.copyLen
  else if o.code = 0x149 then (List.range o.rows).any fun r => within (o.gAt (r * o.rowLen)) o.rowLen
  else true

/-- Before bytes are written, they are kept for the engine operations that issued before the write: these read what a load of their
warp at their issue would have read, whoever writes meanwhile (R256). GRAPH.START reads its first records as NODE.ENQN does
(R450), so that what a load through L1 finds is kept as well, under the owner's number plus 16. -/
def State.keepBytes (s : State) (sel : Op → Bool) (places : List Loc) : State :=
  (s.allOps.filter fun q => engineCode q.code && sel q).foldl (fun s q =>
    let at_ := (s.wgOf q.wg).map fun g => (g.die, g.core)
    let new := places.filter fun a => q.mayRead a.va && !(q.kept.any fun k => k.1 == a.own && k.2.1 == a.pa)
    match new, at_ with
    | [], _ | _, none => s
    | _, some (d, n) =>
      let loads := if q.code = 0x18F then new.map fun a => (a.own + 16, a.pa, s.loadByte .l1 d n a) else []
      s.putOp { q with kept := q.kept ++ (new.map fun a => (a.own, a.pa, s.engineByte d a)) ++ loads }) s

/-- So before a write of the warp in focus: its own engine operations that issued before the word, and those of every other
warp. -/
def State.keepOld (s : State) (o : Op) : State :=
  if o.x.space ≠ 0 ∨ !o.kind.writes then s
  else s.keepBytes (fun q => decide (q.warp ≠ o.warp) || decide (q.place < o.place))
    (o.touches.flatMap fun p => (List.range p.2).map fun i => o.loc (p.1 + i))

/-! ### Atomics at the hub (R262) -/

/-- A host address on the coherent path (R523). -/
def State.onCoherent (s : State) (pa : Nat) : Bool := s.hub.coherent.any fun r => decide (r.1 ≤ pa) && decide (pa < r.1 + r.2)

/-- The words that the hub reads, and then writes, for an atomic: the naturally aligned 8 bytes, or the 16 of ATOM.cas.128, of
each lane's address at the hub. On the coherent path at scope 6 the hub owns the line, and none is read beforehand. -/
def State.hubWords (s : State) (o : Op) : List (Nat × Nat) :=
  let n := if o.code = 0x125 then 16 else 8
  if o.x.space ≠ 0 ∨ !(atomCode o.code || redCode o.code) then []
  else
    ((lanesOf o.e).filterMap fun l =>
      let a := o.loc (o.addr l)
      if a.own < 4 ∨ s.pointFor o a.own ≠ .home then none
      else if a.own = 0xC ∧ s.scopeOf o.x.scope.toNat = 6 ∧ s.onCoherent a.pa then none
      else some (a.own, a.pa / n * n)).eraseDups

/-- Where an atomic's words have been read and not yet written, its `aux` holds, after the tag, 1 and the words of host memory;
`kept` then holds the bytes that the host has stored to them since. -/
def Op.hubLoaded (o : Op) : Bool := (atomCode o.code || redCode o.code) && decide ((o.aux[1]?).getD 0 = 1)
def Op.hubWord (o : Op) (pa : Nat) : Bool :=
  o.hubLoaded && (o.aux.drop 2).contains (pa / (if o.code = 0x125 then 16 else 8) * (if o.code = 0x125 then 16 else 8))

/-- The atomic at the hub, read and written: indivisible for every access of the package (R245), while a host store to a word
that a lane writes is lost (R262). Another host store to the word takes place after it. -/
def State.atHub (s : State) (o : Op) (act : State → State) : State :=
  if o.kept.isEmpty then act s
  else
    let r := s.performAtoms o (lanesOf o.e)
    let n := if o.code = 0x125 then 16 else 8
    let lim := 2 ^ (8 * o.width)
    let wrote (own w : Nat) : Bool := r.2.any fun p =>
      let a := o.loc (o.addr p.1)
      decide (a.own = own) && decide (a.pa / n * n = w)
        && (atomNew o.code o.f p.2 ((o.val128 1 p.1).toNat % lim) ((o.val128 2 p.1).toNat % lim)).isSome
    (o.kept.filter fun b => !(wrote b.1 (b.2.1 / n * n))).foldl (fun s b => s.setOwnerByte b.1 b.2.1 b.2.2) (act s)

/-- The hub has still to read for an atomic of the warp in focus. -/
def State.hubReads (s : State) (o : Op) : Bool := !o.hubLoaded && !(s.hubWords o).isEmpty

/-- The hub reads: the write is a step of its own. -/
def State.hubLoad (s : State) (o : Op) : State :=
  s.putOp { o with aux := [(o.aux[0]?).getD 0, 1] ++ ((s.hubWords o).filter fun p => p.1 == 0xC).map (·.2) }

/-- The bytes that a lane's store writes, with their addresses (R224, R230, R232, R233); of an atomic, those that it writes where
it finds memory as it stands (R272). -/
def State.storedBytes (s : State) (o : Op) (l : Nat) : List (Nat × Byte) :=
  let a := o.addr l
  if stzCode o.code then (List.range o.width).map fun i => (a + i, byte0)
  else if storeCode o.code then
    ((o.storeBytes l).zipIdx.filter fun b => decide (o.code ≠ 0xFF) || (o.msk l).testBit b.2).map fun b => (a + b.2, b.1)
  else
    let lim := 2 ^ (8 * o.width)
    match atomNew o.code o.f (leNat (s.readRange o a o.width)) ((o.val128 1 l).toNat % lim) ((o.val128 2 l).toNat % lim) with
    | some x => (leBytes o.width x).zipIdx.map fun b => (a + b.2, b.1)
    | none => []

/-- Of those bytes the ones that go past every cache to a compressed page, since the access hits none (R213, R485). -/
def State.throughBytes (s : State) (o : Op) (l : Nat) : List (Loc × Byte) :=
  ((s.storedBytes o l).map fun b => (o.loc b.1, b.2)).filter fun b =>
    let c := b.1
    decide (c.own < 4) && c.cmp && !(holdsByte (s.homeLine c) (c.pa % 128))
      && !(!(stzCode o.code) && decide (c.own = s.g.die) && decide (s.pointFor o c.own = .l1)
        && holdsByte (s.l1Line s.g.die s.g.core c.va) (c.va % 128))

/-- The chunks that bytes written past the caches lack on some die, beyond those that their pages have and the pool can give. -/
def State.lacking (s : State) (bs : List (Loc × Byte)) : Nat :=
  ((List.range 4).map fun own =>
    let mine := bs.filter fun b => b.1.own == own
    let d := s.die own
    ((mine.map fun b => b.1.pa / 4096 * 4096).eraseDups.map fun frame =>
      s.chunksFor (s.phys own) frame ((mine.filter fun b => b.1.pa / 4096 * 4096 == frame).map fun b => (b.1.pa, b.2))
        - d.chunksAt frame).sum - d.pool).foldl max 0

/-- The lanes of a no-allocate store for which the chunks do not suffice, in lane order after those for which they do, and how
many the first of them lacks (R485). -/
def State.chunksShort (s : State) (o : Op) : LaneMask × Nat :=
  if o.mayLack ∧ o.xl.any (fun x => decide (x.own < 4) && cmpOf x.leaf) = true then
    let r := (lanesOf o.e).foldl (fun (c : List (Loc × Byte) × LaneMask × Nat) l =>
      let all := c.1 ++ s.throughBytes o l
      let n := s.lacking all
      if n = 0 then (all, c.2) else (c.1, c.2.1 ||| (1 : LaneMask) <<< l, if c.2.2 = 0 then n else c.2.2)) ([], 0, 0)
    r.2
  else (0, 0)

/-- Such a store parks those lanes (R485), with the record of the event. -/
def State.parkShort (s : State) (o : Op) (lanes : LaneMask) (short : Nat) : State :=
  let s1 := s.record (s.recordHere { kind := 0x16, detail := short })
  let s2 : State := { s1 with hub := { s1.hub with events := s1.hub.events ++ [0x16] } }
  let fs : List LaneFault := (lanesOf (o.e &&& lanes)).map fun l => { lane := l, kind := 6, st := 0, va := o.addr l }
  settleChecks { o with pcm := o.pcm &&& ~~~lanes } { s := s2, xl := o.xl, faults := fs, wait := false }

/-- The lanes of a load whose data arrive together: of global memory some of those that are left, where the choice falls so
(R551). -/
def State.loadPart (s : State) (o : Op) : LaneMask :=
  let part := o.e &&& Config.loadLanes s.n o.id
  if loadCode o.code && !(onceCode o.code) && decide (o.x.space = 0) && decide (part ≠ 0) then part else o.e

/-- A part of a load's lanes performed; the others wait for their data. -/
def State.loadSome (s : State) (o : Op) (part : LaneMask) : State :=
  let q : Op := { o with e := part }
  (((s.performLoad q).sendResponses (s.asks q) q).putOp { o with e := o.e &&& ~~~part })

/-- LOAD_DATA_ARRIVAL (R223, R271): an access that returns a value or fills a cache is performed, a load of global memory perhaps in
parts; an atomic on host or peer memory in two steps, a read and a write (R262). -/
def execLoadDataArrival (op : Nat) (s : State) : Result :=
  match s.focusOp op with
  | some (o, s0) =>
    if (s0.w.pend.any fun p => p.id == op) && s0.opReady o
        && (loadCode o.code || atomCode o.code || fillCode o.code || decide (o.code = 0xFC)) then
      if atomCode o.code = true ∧ (s0.chunksShort o).1 ≠ 0 then .next (s0.parkShort o (s0.chunksShort o).1 (s0.chunksShort o).2).drain
      else
      let s1 := s0.releaseIf o.x.ord.toNat o.x.scope.toNat
      if s1.hubReads o then .next (s1.hubLoad o)
      else if s0.loadPart o ≠ o.e then .next (s1.loadSome o (s0.loadPart o))
      else
        let s2 :=
          if loadCode o.code then s1.performLoad o
          else if atomCode o.code then ((s1.keepOld o).atHub o fun s => s.performAtomic o).noteRelease o
          else if fillCode o.code then s1.performFill o
          else s1.performTlbq o
        .next (((s2.sendResponses (s1.asks o) o).acquireAfter o).afterAccess o)
    else .refused (.notEnabled "LOAD_DATA_ARRIVAL")
  | none => .refused (.notEnabled "LOAD_DATA_ARRIVAL")

/-- STORE_REACHES_POINT (R212, R224, R273): a store, a reduction or a cache operation is performed. -/
def execStoreReachesPoint (op : Nat) (s : State) : Result :=
  match s.focusOp op with
  | some (o, s0) =>
    if (s0.w.pend.any fun p => p.id == op) && s0.opReady o && !(s0.tagHeld o)
        && (storeCode o.code || redCode o.code || cctlCode o.code) then
      if (s0.chunksShort o).1 ≠ 0 then .next (s0.parkShort o (s0.chunksShort o).1 (s0.chunksShort o).2).drain
      else
        let s1 := s0.releaseIf o.x.ord.toNat o.x.scope.toNat
        if s1.hubReads o then .next (s1.hubLoad o)
        else
        let s1 := s1.keepOld o
        let s2 :=
          if redCode o.code then s1.atHub o fun s => s.performAtomic o
          else if cctlCode o.code then s1.performCctl o
          else if stzCode o.code && decide (o.x.space = 0) then
            (lanesOf o.e).foldl (fun s l => s.stzAt o (o.addr l) o.width) s1
          else if stzCode o.code then
            (lanesOf o.e).foldl (fun s l => s.writeRange o (o.addr l) (List.replicate o.width 0)) s1
          else (lanesOf o.e).foldl (fun s l => s.storeLane o l) (s1.count 0x0A (s1.missesOf o))
        .next (((s2.sendResponses (s1.asks o) o).noteRelease o).afterAccess o)
    else .refused (.notEnabled "STORE_REACHES_POINT")
  | none => .refused (.notEnabled "STORE_REACHES_POINT")

/-- The first release entry that an access with RACQ meets, with the die that holds it (R252). -/
def State.racqFirst (s : State) (o : Op) : Option (Nat × Release) :=
  o.askers.findSome? fun l => (o.parts l).findSome? fun p =>
    (s.racqEntry s.g.die s.g.core (o.loc p.1)).map fun r => ((o.loc p.1).own, r)

/-- A promotion request waits: while its context runs, the releasing core's die relocks, or a die on the way to it from the entry's,
or its release steps wait for a held write or for a message that a relock holds (R485, R509). -/
def State.promoteWaits (s : State) (own : Nat) (r : Release) : Bool :=
  let t := s.swapTo r.ctx
  let v := r.core / 160
  decide (t.ctxNum = r.ctx) && (t.stopped v || s.posHeld (s.phys own) (t.phys v) || t.releaseWaits v (r.core % 160))

/-- PROMOTION_REQUEST (R252): the entry that an access with RACQ meets is promoted on the releasing core and cleared. -/
def execPromotionRequest (op : Nat) (s : State) : Result :=
  match (s.findOp op).bind fun o => (s.focus o.warp).map fun s0 => (o, s0) with
  | some (o, s0) =>
    if o.x.racq && decide (o.st = .running) then
      match s0.racqFirst o with
      | some (own, r) =>
        if s0.promoteWaits own r then .refused (.notEnabled "PROMOTION_REQUEST")
        else .next (((s0.promote r).dropEntry own r).count 0x0D)
      | none => .refused (.notEnabled "PROMOTION_REQUEST")
    else .refused (.notEnabled "PROMOTION_REQUEST")
  | none => .refused (.notEnabled "PROMOTION_REQUEST")

/-- TRANSLATION_WALK_COMPLETE (R202): the walks that a word of the warp awaits are made, in ascending lane order. -/
def execTranslationWalkComplete (op : Nat) (s : State) : Result :=
  match (s.findOp op).bind fun o => (s.focus o.warp).map fun s0 => (o, s0) with
  | some (o, s0) =>
    if (s0.w.pend.any fun p => p.id == op) && decide (o.st = .queued) && !(orderOnly o.code) && !(s0.onLinks op)
        && (o.logi.isSome || s0.freeLog.isSome) then
      -- an access that is translated afresh reserves an entry again
      let o1 := { o with logi := o.logi.or s0.freeLog }
      let c := (if o.logi.isSome then s0 else s0.takeLog (s0.freeLog.getD 0) op).checkOp o1 true
      if c.wait then .refused (.notEnabled "TRANSLATION_WALK_COMPLETE") else .next (settleChecks o1 c).drain
    else .refused (.notEnabled "TRANSLATION_WALK_COMPLETE")
  | none => .refused (.notEnabled "TRANSLATION_WALK_COMPLETE")

end Sys2Proof.Machine
end

