-- ==== Sys2Proof/Machine/MemWords.lean ====
section
/-! DEFINITION. The words of the memory class and of atomics (R220 to R237, R268 to R273), each with the registers that its
operands read and its destinations, and the ordered remote channels (R254, R255, R278). -/

namespace Sys2Proof.Machine

/-! ### Loads and stores (R223, R224, R226 to R233) -/

/-- LD.8 (R223). -/
def execLd8 (f : FmtA) (x : Upper) (s : State) : Result :=
  s.accessWord 0xE0 f x [baseRegs x, 0, 0] (regs f.dst 1) []

/-- LD.16 (R223). -/
def execLd16 (f : FmtA) (x : Upper) (s : State) : Result :=
  s.accessWord 0xE1 f x [baseRegs x, 0, 0] (regs f.dst 1) []

/-- LD.32 (R223). -/
def execLd32 (f : FmtA) (x : Upper) (s : State) : Result :=
  s.accessWord 0xE2 f x [baseRegs x, 0, 0] (regs f.dst 1) []

/-- LD.64 (R223). -/
def execLd64 (f : FmtA) (x : Upper) (s : State) : Result :=
  s.accessWord 0xE3 f x [baseRegs x, 0, 0] (regs f.dst 2) []

/-- LD.128 (R223). -/
def execLd128 (f : FmtA) (x : Upper) (s : State) : Result :=
  s.accessWord 0xE4 f x [baseRegs x, 0, 0] (regs f.dst 4) []

/-- LD.ub (R226). -/
def execLdUb (f : FmtA) (x : Upper) (s : State) : Result :=
  s.accessWord 0xE5 f x [baseRegs x, 0, 0] (regs f.dst (2 ^ (f.md.toNat / 64))) []

/-- ST.8 (R224). -/
def execSt8 (f : FmtA) (x : Upper) (s : State) : Result :=
  s.accessWord 0xE6 f x [baseRegs x, 0, 1] [] []

/-- ST.16 (R224). -/
def execSt16 (f : FmtA) (x : Upper) (s : State) : Result :=
  s.accessWord 0xE7 f x [baseRegs x, 0, 1] [] []

/-- ST.32 (R224). -/
def execSt32 (f : FmtA) (x : Upper) (s : State) : Result :=
  s.accessWord 0xE8 f x [baseRegs x, 0, 1] [] []

/-- ST.64 (R224). -/
def execSt64 (f : FmtA) (x : Upper) (s : State) : Result :=
  s.accessWord 0xE9 f x [baseRegs x, 0, 2] [] []

/-- ST.128 (R224). -/
def execSt128 (f : FmtA) (x : Upper) (s : State) : Result :=
  s.accessWord 0xEA f x [baseRegs x, 0, 4] [] []

/-- ST.ub (R226). -/
def execStUb (f : FmtA) (x : Upper) (s : State) : Result :=
  s.accessWord 0xEB f x [baseRegs x, 0, 2 ^ (f.md.toNat / 64)] [] []

/-- GATH.32 (R227). -/
def execGath32 (f : FmtA) (x : Upper) (s : State) : Result :=
  s.accessWord 0xEC f x [baseRegs x, 1, 0] (regs f.dst 1) []

/-- GATH.64 (R227). -/
def execGath64 (f : FmtA) (x : Upper) (s : State) : Result :=
  s.accessWord 0xED f x [baseRegs x, 1, 0] (regs f.dst 2) []

/-- SCAT.32 (R227). -/
def execScat32 (f : FmtA) (x : Upper) (s : State) : Result :=
  s.accessWord 0xEE f x [baseRegs x, 1, 1] [] []

/-- SCAT.64 (R227). -/
def execScat64 (f : FmtA) (x : Upper) (s : State) : Result :=
  s.accessWord 0xEF f x [baseRegs x, 1, 2] [] []

/-- LDW.32 (R228). -/
def execLdw32 (f : FmtA) (x : Upper) (s : State) : Result :=
  s.accessWord 0xF0 f x [baseRegs x, 0, 0] [] (regs f.dst 1)

/-- LDW.64 (R228). -/
def execLdw64 (f : FmtA) (x : Upper) (s : State) : Result :=
  s.accessWord 0xF1 f x [baseRegs x, 0, 0] [] (regs f.dst 2)

/-- LDW.128 (R228). -/
def execLdw128 (f : FmtA) (x : Upper) (s : State) : Result :=
  s.accessWord 0xFE f x [baseRegs x, 0, 0] [] (regs f.dst 4)

/-- LDT (R230). -/
def execLdt (f : FmtA) (x : Upper) (s : State) : Result :=
  s.accessWord 0xF2 f x [baseRegs x, 1, 0] (regs f.dst 4) []

/-- STT (R230). -/
def execStt (f : FmtA) (x : Upper) (s : State) : Result :=
  s.accessWord 0xF3 f x [baseRegs x, 1, 4] [] []

/-- LDT.tr (R231). -/
def execLdtTr (f : FmtA) (x : Upper) (s : State) : Result :=
  s.accessWord 0xFB f x [baseRegs x, 1, 0] (regs f.dst 4) []

/-- ST.msk (R232). -/
def execStMsk (f : FmtA) (x : Upper) (s : State) : Result :=
  s.accessWord 0xFF f x [baseRegs x, 1, 4] [] []

/-- LD.bc (R229). -/
def execLdBc (f : FmtA) (x : Upper) (s : State) : Result :=
  s.accessWord 0x100 f x [baseRegs x, 0, 0] (regs f.dst (2 ^ (f.md.toNat / 64))) []

/-- STZ.line (R233). -/
def execStzLine (f : FmtA) (x : Upper) (s : State) : Result :=
  s.accessWord 0xFA f x [baseRegs x, 0, 0] [] []

/-- STZ.sec (R233). -/
def execStzSec (f : FmtA) (x : Upper) (s : State) : Result :=
  s.accessWord 0x101 f x [baseRegs x, 0, 0] [] []

/-! ### Prefetch, cache control and queries (R234 to R237) -/

/-- PREF (R234). -/
def execPref (f : FmtA) (x : Upper) (s : State) : Result :=
  s.quietWord 0xF4 f x [baseRegs x, 0, 0] []

/-- PREF.l2 (R234). -/
def execPrefL2 (f : FmtA) (x : Upper) (s : State) : Result :=
  s.quietWord 0xF5 f x [baseRegs x, 0, 0] []

/-- PREF.range (R235). -/
def execPrefRange (f : FmtA) (x : Upper) (s : State) : Result :=
  s.quietWord 0xFD f x [baseRegs x, 1, 0] []

/-- CCTL.inv (R236). -/
def execCctlInv (f : FmtA) (x : Upper) (s : State) : Result :=
  s.quietWord 0xF6 f x [baseRegs x, 0, 0] []

/-- CCTL.wb (R236). -/
def execCctlWb (f : FmtA) (x : Upper) (s : State) : Result :=
  s.quietWord 0xF7 f x [baseRegs x, 0, 0] []

/-- CCTL.wbinv (R236). -/
def execCctlWbinv (f : FmtA) (x : Upper) (s : State) : Result :=
  s.quietWord 0xF8 f x [baseRegs x, 0, 0] []

/-- TLBQ (R237). -/
def execTlbq (f : FmtA) (x : Upper) (s : State) : Result :=
  s.quietWord 0xFC f x [baseRegs x, 0, 0] (regs f.dst 1)

/-! ### Atomics and reductions (R271 to R273) -/

/-- ATOM.add (R271, R272). -/
def execAtomAdd (f : FmtA) (x : Upper) (s : State) : Result :=
  s.accessWord 0x110 f x [baseRegs x, 1, 0] (regs f.dst 1) []

/-- ATOM.min (R271, R272). -/
def execAtomMin (f : FmtA) (x : Upper) (s : State) : Result :=
  s.accessWord 0x111 f x [baseRegs x, 1, 0] (regs f.dst 1) []

/-- ATOM.max (R271, R272). -/
def execAtomMax (f : FmtA) (x : Upper) (s : State) : Result :=
  s.accessWord 0x112 f x [baseRegs x, 1, 0] (regs f.dst 1) []

/-- ATOM.and (R271, R272). -/
def execAtomAnd (f : FmtA) (x : Upper) (s : State) : Result :=
  s.accessWord 0x113 f x [baseRegs x, 1, 0] (regs f.dst 1) []

/-- ATOM.or (R271, R272). -/
def execAtomOr (f : FmtA) (x : Upper) (s : State) : Result :=
  s.accessWord 0x114 f x [baseRegs x, 1, 0] (regs f.dst 1) []

/-- ATOM.xor (R271, R272). -/
def execAtomXor (f : FmtA) (x : Upper) (s : State) : Result :=
  s.accessWord 0x115 f x [baseRegs x, 1, 0] (regs f.dst 1) []

/-- ATOM.xchg (R271, R272). -/
def execAtomXchg (f : FmtA) (x : Upper) (s : State) : Result :=
  s.accessWord 0x116 f x [baseRegs x, 1, 0] (regs f.dst 1) []

/-- ATOM.cas (R271, R272). -/
def execAtomCas (f : FmtA) (x : Upper) (s : State) : Result :=
  s.accessWord 0x117 f x [baseRegs x, 1, 1] (regs f.dst 1) []

/-- ATOM.add.64 (R271, R272). -/
def execAtomAdd64 (f : FmtA) (x : Upper) (s : State) : Result :=
  s.accessWord 0x118 f x [baseRegs x, 2, 0] (regs f.dst 2) []

/-- ATOM.min.64 (R271, R272). -/
def execAtomMin64 (f : FmtA) (x : Upper) (s : State) : Result :=
  s.accessWord 0x119 f x [baseRegs x, 2, 0] (regs f.dst 2) []

/-- ATOM.max.64 (R271, R272). -/
def execAtomMax64 (f : FmtA) (x : Upper) (s : State) : Result :=
  s.accessWord 0x11A f x [baseRegs x, 2, 0] (regs f.dst 2) []

/-- ATOM.and.64 (R271, R272). -/
def execAtomAnd64 (f : FmtA) (x : Upper) (s : State) : Result :=
  s.accessWord 0x11B f x [baseRegs x, 2, 0] (regs f.dst 2) []

/-- ATOM.or.64 (R271, R272). -/
def execAtomOr64 (f : FmtA) (x : Upper) (s : State) : Result :=
  s.accessWord 0x11C f x [baseRegs x, 2, 0] (regs f.dst 2) []

/-- ATOM.xor.64 (R271, R272). -/
def execAtomXor64 (f : FmtA) (x : Upper) (s : State) : Result :=
  s.accessWord 0x11D f x [baseRegs x, 2, 0] (regs f.dst 2) []

/-- ATOM.xchg.64 (R271, R272). -/
def execAtomXchg64 (f : FmtA) (x : Upper) (s : State) : Result :=
  s.accessWord 0x11E f x [baseRegs x, 2, 0] (regs f.dst 2) []

/-- ATOM.cas.64 (R271, R272). -/
def execAtomCas64 (f : FmtA) (x : Upper) (s : State) : Result :=
  s.accessWord 0x11F f x [baseRegs x, 2, 2] (regs f.dst 2) []

/-- ATOM.fadd.f32 (R271, R272). -/
def execAtomFaddF32 (f : FmtA) (x : Upper) (s : State) : Result :=
  s.accessWord 0x120 f x [baseRegs x, 1, 0] (regs f.dst 1) []

/-- ATOM.fmin.f32 (R271, R272). -/
def execAtomFminF32 (f : FmtA) (x : Upper) (s : State) : Result :=
  s.accessWord 0x121 f x [baseRegs x, 1, 0] (regs f.dst 1) []

/-- ATOM.fmax.f32 (R271, R272). -/
def execAtomFmaxF32 (f : FmtA) (x : Upper) (s : State) : Result :=
  s.accessWord 0x122 f x [baseRegs x, 1, 0] (regs f.dst 1) []

/-- ATOM.inc (R271, R272). -/
def execAtomInc (f : FmtA) (x : Upper) (s : State) : Result :=
  s.accessWord 0x123 f x [baseRegs x, 1, 0] (regs f.dst 1) []

/-- ATOM.dec (R271, R272). -/
def execAtomDec (f : FmtA) (x : Upper) (s : State) : Result :=
  s.accessWord 0x124 f x [baseRegs x, 1, 0] (regs f.dst 1) []

/-- ATOM.cas.128 (R271, R272). -/
def execAtomCas128 (f : FmtA) (x : Upper) (s : State) : Result :=
  s.accessWord 0x125 f x [baseRegs x, 4, 4] (regs f.dst 4) []

/-- RED.add (R271 to R273). -/
def execRedAdd (f : FmtA) (x : Upper) (s : State) : Result :=
  s.accessWord 0x126 f x [baseRegs x, 1, 0] [] []

/-- RED.fadd.f32 (R271 to R273). -/
def execRedFaddF32 (f : FmtA) (x : Upper) (s : State) : Result :=
  s.accessWord 0x127 f x [baseRegs x, 1, 0] [] []

/-- RED.add.64 (R271 to R273). -/
def execRedAdd64 (f : FmtA) (x : Upper) (s : State) : Result :=
  s.accessWord 0x133 f x [baseRegs x, 2, 0] [] []

/-! ### Ordered remote channels (R254, R278) -/

/-- Channel 0 to 7 of CHOPEN and CHCLOSE. -/
def ocOf (x : Upper) : Nat := x.ext.toNat % 8

/-- CHOPEN and CHCLOSE act once for the word, and take effect when the tagged stores have been performed (R278). -/
def State.ocWord (s : State) (code : Nat) (f : FmtA) (x : Upper) (wid : List Nat) : Result :=
  let e := s.execSet f.cond
  if e = 0 then s.retireLong
  else
    let o := s.mkOp code f x wid e
    let s1 := (s.addOut o [] []).advance 16
    .next { s1 with w := { s1.w with waits := s1.w.waits ++ [o] } }

/-- CHOPEN (R278). -/
def execChopen (f : FmtA) (x : Upper) (s : State) : Result := s.ocWord 0x130 f x [1, 0, 0]
/-- CHCLOSE (R278). -/
def execChclose (f : FmtA) (x : Upper) (s : State) : Result := s.ocWord 0x131 f x []

/-- A store-class word of the workgroup waits at issue while a change of the channel that it names is outstanding (R278). -/
def State.ocChanging (s : State) (k : Nat) : Bool :=
  s.warps.any fun w => w.wg == s.g.id && w.waits.any fun o => (o.code == 0x130 || o.code == 0x131) && ocOf o.x == k

/-- Stores tagged with channel k are not performed yet (R255, R278); none issues while a change is outstanding. -/
def State.taggedBefore (s : State) (k : Nat) : Bool :=
  s.warps.any fun w => w.wg == s.g.id && (w.pend ++ w.parked).any fun p =>
    storeCode p.code && decide (p.x.rch.toNat = k + 1) && decide ((p.aux[0]?).getD 0 ≠ 0)

/-- The new state of a channel (R278). -/
def openedAs (ndie die : Nat) (code d : Nat) (old : Ordered) : Ordered :=
  if code = 0x130 then { opened := true, loc := decide (ndie ≤ d) || decide (d = die), die := d % 4 }
  else { old with opened := false }

/-- CHOPEN_TAKE_EFFECT (R278): the oldest change that the warp awaits, once the tagged stores before it are performed. -/
def execChopenTakeEffect (warp : Nat) (s : State) : Result :=
  match (s.focus warp).bind fun s0 => (s0.w.waits.find? fun o => o.code == 0x130 || o.code == 0x131).map fun o => (s0, o) with
  | some (s0, o) =>
    if s0.taggedBefore (ocOf o.x) then .refused (.notEnabled "CHOPEN_TAKE_EFFECT")
    else
      let c := s0.g.oc.get {} (ocOf o.x)
      let s1 : State := { s0 with
        g := { s0.g with oc := s0.g.oc.set {} (ocOf o.x) (openedAs s0.ndie s0.g.die o.code (o.val32 0 0).toNat c) }
        w := { s0.w with waits := s0.w.waits.filter fun p => p.id != o.id } }
      .next (s1.complete o.id)
  | none => .refused (.notEnabled "CHOPEN_TAKE_EFFECT")

end Sys2Proof.Machine
end

