-- ==== Sys2Proof/Machine/Engine.lean ====
section
/-! DEFINITION. What the engines of a core share: issue into a queue (R34, R43, R456), the checks at issue and chunk by
chunk (R289, R329), the reads and writes of an engine (R256), and the end of an operation (R467). -/

namespace Sys2Proof.Machine

/-! ### Addresses -/

/-- A scratch offset of the workgroup in focus lies outside its size (R198). -/
def State.outsideScratch (s : State) (a n : Nat) : Bool := decide (s.g.size < a + n)

/-- Pieces of a range cut at addresses that are multiples of 4,096: position and length (R289). -/
def cutsFrom (a pos : Nat) : Nat → Nat → List (Nat × Nat)
  | 0, _ => []
  | k + 1, n =>
    let m := min n (4096 - a % 4096)
    if n ≤ m then [(pos, n)] else (pos, m) :: cutsFrom (a + m) (pos + m) k (n - m)

def cuts (a pos n : Nat) : List (Nat × Nat) := if n = 0 then [] else cutsFrom a pos (n / 4096 + 2) n

/-- The first fault of an engine operation: kind, status and address. -/
abbrev EFault := Nat × Nat × Nat

/-- The address-space check of a global range: first and last byte legal, and in one window unless both lie in window 8
(R289). -/
def State.windowFault (s : State) (g n : Nat) : Option EFault :=
  let last := (g + n - 1) % 2 ^ 64
  match s.owner g, s.owner last with
  | none, _ => some (1, 1, g)
  | _, none => some (1, 1, last)
  | some _, some _ => if bitsOf g 55 52 = bitsOf last 55 52 then none else some (1, 1, last)

/-- The translation and permission check of one page's part of a chunk, walked as need be; `none` inside where it must
wait (R289). -/
def State.pieceCheck (s : State) (va : Nat) (k : Kind) : State × Option (Xl × Option EFault) :=
  let r := s.lookup va k true
  match r.2 with
  | none => (s, none)
  | some x =>
    if x.status ≠ 0 then (r.1, some (x, some (4, x.status, va)))
    else if k.permitted x.leaf then (r.1, some (x, none))
    else (r.1, some (x, some (5, 0, va)))

/-- The check of a list of addresses, one in each page: the translations found, or the first fault; none where it must wait. -/
def checkPieces (s : State) (k : Kind) : List Nat → State × Option (Except EFault (List Xl))
  | [] => (s, some (.ok []))
  | va :: vs =>
    let r := s.pieceCheck va k
    match r.2 with
    | none => (s, none)
    | some (_, some e) => (r.1, some (.error e))
    | some (x, none) =>
      let q := checkPieces r.1 k vs
      match q.2 with
      | some (.ok xs) => (q.1, some (.ok (x :: xs)))
      | o => (q.1, o)

/-- The first address in each 4 KB page of a range. -/
def pagesOf (g n : Nat) : List Nat := (cuts g 0 n).map fun p => (g + p.1) % 2 ^ 64

/-- The place of a byte under a list of translations. -/
def locIn (xs : List Xl) (va : Nat) : Loc :=
  match xs.find? fun x => x.covers va with
  | some x => { va := va, own := x.own, pa := x.frame + (va - x.page), cmp := cmpOf x.leaf }
  | none => { va := va, own := 0xC, pa := va }

/-! ### Earlier accesses of the warp and of the workgroup (R256) -/

/-- An access that the warp issued before an operation and that its access to `n` bytes at `a` must follow: one that holds
every later access, or one to a byte of the range, told by its place in its page, which aliases share (R207, R225, R246,
R256). -/
def State.warpFirst (s : State) (o : Op) (a n : Nat) : Bool :=
  decide (s.w.id = o.warp) && s.w.pend.any fun p => decide (p.id < o.id) &&
    (if orderOnly p.code then decide (p.code = 0x128)
     else acqOf p.x.ord.toNat || (decide (p.x.space = 0) && p.askers.any fun l => (p.parts l).any fun q =>
        decide ((q.1 + 4096 - a % 4096) % 4096 < n) || decide ((a + 4096 - q.1 % 4096) % 4096 < q.2)))
  || decide (s.w.id = o.warp) && s.w.waits.any fun p => [0x18D, 0x190].contains p.code && decide (p.id < o.id)

/-- A scratch access that the workgroup issued before an operation touches a range of it (R256). -/
def State.scratchFirst (s : State) (o : Op) (parked : Bool) (r : Nat × Nat) : Bool :=
  s.warps.any fun w => w.wg == o.wg && (w.pend ++ if parked then w.parked else []).any fun p =>
    decide (p.id < o.id) && p.onScratch && p.touches.any fun q => decide (q.1 < r.1 + r.2) && decide (r.1 < q.1 + q.2)

/-! ### Reads and writes of an engine (R256) -/

/-- What an engine operation reads: the bytes kept for it, of those that later stores of its warp have changed, and the others at
the die's L2 points. -/
def State.engineRead (s : State) (kept : List (Nat × Nat × Byte)) (xs : List Xl) (a n : Nat) : List Byte :=
  (List.range n).map fun i =>
    let c := locIn xs ((a + i) % 2 ^ 64)
    match kept.find? fun k => k.1 == c.own && k.2.1 == c.pa with
    | some k => k.2.2
    | none => s.engineByte s.g.die c

/-- What an engine's reads leave in L2. -/
def State.engineFill (s : State) (xs : List Xl) (a n evp : Nat) : State :=
  (List.range ((a % 32 + n + 31) / 32)).foldl (fun s k =>
    let c := locIn xs ((a / 32 * 32 + 32 * k) % 2 ^ 64)
    if c.own = s.g.die then s.homeFill c evp
    else (if holdsByte (s.guestLine s.g.die c.va) (c.va % 128) then s else s.ask c.own vcEngine 0 32).guestFill s.g.die c evp) s

/-- An engine's write of a byte, at the issuing die's L2 points; L1 copies stay as they are (R256, R257). -/
def State.engineWriteByte (s : State) (c : Loc) (b : Byte) (evp : Nat) : State :=
  if c.own = s.g.die then s.homeWrite c b evp
  else if evp = 6 then (s.guestUpdate s.g.die c b evp).homeWrite c b evp
  else s.guestWrite s.g.die c b evp

/-- Bytes that an engine writes, with their places. What goes to another owner past the guest partition is one message for each
line (R504). -/
def State.engineWriteAt (s : State) (bs : List (Loc × Byte)) (evp : Nat) : State :=
  let out := if evp = 6 ∨ s.guestWays s.g.die = 0 then bs.filter fun b => b.1.own != s.g.die else []
  let lines := (out.map fun b => (b.1.own, b.1.va / 128)).eraseDups
  let s1 := lines.foldl (fun s k => s.ask k.1 vcEngine (out.countP fun b => b.1.own == k.1 && b.1.va / 128 == k.2) 0) s
  bs.foldl (fun s b => s.engineWriteByte b.1 b.2 evp) s1

/-- A range that an engine operation writes; other operations that issued before keep what they are to read (R256). -/
def State.engineWrite (s : State) (o : Op) (xs : List Xl) (a evp : Nat) (bs : List Byte) : State :=
  let at_ := bs.zipIdx.map fun b => (locIn xs ((a + b.2) % 2 ^ 64), b.1)
  (s.keepBytes (fun q => q.id != o.id) (at_.map (·.1))).engineWriteAt at_ evp

/-- An uncorrectable error where an engine reads a range: location and address (R467). -/
def State.engineBad (s : State) (xs : List Xl) (a n : Nat) : Option (Nat × Nat) :=
  if s.bad.isEmpty then none
  else (List.range n).findSome? fun i =>
    let c := locIn xs ((a + i) % 2 ^ 64)
    (s.l2Bad s.g.die c).map fun k => (k, c.va)

/-- An uncorrectable error in scratch. -/
def State.scratchBad (s : State) (a n : Nat) : Option (Nat × Nat) :=
  if s.bad.isEmpty then none
  else (List.range n).findSome? fun i => if s.bad.contains (3, s.g.id, (a + i) / 16) then some (3, a + i) else none

/-! ### Pre-emption (R32, R469) -/

/-- An engine of the core in focus, by its number there, as the collector numbers it: 1 copy, 2 matrix, 3 ray, 4 reservoir. -/
def State.engineUnit (s : State) (k : Nat) : Nat := 8 * coreId s.c.die s.c.num + k

/-- A unit that has stopped for pre-emption and acknowledged begins nothing, and no unit does once the context has ended. -/
def State.unitOff (s : State) (u : Nat) : Bool :=
  match s.ctx with
  | some k => k.ended || (k.preempt && k.acks.contains u)
  | none => true

/-! ### Issue into a queue -/

/-- Queues of a core. -/
inductive Queue where
  | copy | mtx | ray | rsv
  deriving DecidableEq, Repr

def Core.queue (c : Core) : Queue → List Op
  | .copy => c.copyq
  | .mtx => c.mtxq
  | .ray => c.rayq
  | .rsv => c.rsvq
def Core.setQueue (c : Core) (q : Queue) (os : List Op) : Core :=
  match q with
  | .copy => { c with copyq := os }
  | .mtx => { c with mtxq := os }
  | .ray => { c with rayq := os }
  | .rsv => { c with rsvq := os }
def State.enqueue (s : State) (q : Queue) (o : Op) : State :=
  { s with c := s.c.setQueue q (s.c.queue q ++ [o]) }

/-- Lanes of an operation that are neither complete nor parked. -/
def Op.left (o : Op) : LaneMask := o.e &&& ~~~o.pcm &&& ~~~o.park

/-- The operations that hold a place of a queue. In those of the ray unit and of the reservoir engine an operation holds none whose
lanes left are all parked: these queues are empty when a context is saved (R347, R379), and it stands in the operand log alone. -/
def Core.places (c : Core) (q : Queue) : List Op :=
  match q with
  | .copy | .mtx => c.queue q
  | .ray | .rsv => (c.queue q).filter fun o => decide (o.left ≠ 0)

/-- A word that enters a 17th operation is refused issue (R288, R310, R346, R376). -/
def State.queueFullAt (s : State) (q : Queue) : Bool := decide (16 ≤ (s.c.places q).length)

/-- A word that acts once for its executing set parks every lane of it, with the record (R289, R455): the operation keeps
its flag and its count. -/
def State.parkWhole (s : State) (o : Op) (acc : Nat) (e : EFault) : State × Op :=
  s.faultOp { o with recs := [] } acc ((lanesOf o.e).map fun l => { lane := l, kind := e.1, st := e.2.1, va := e.2.2 })

/-- An engine operation issues (R43, R288, R310): a parameter trap comes first, then a refusal by a full queue or a full
log; a fault of the checks at issue parks the word, and otherwise `enter` takes it in. A matrix operation that faults keeps its
place in its queue (R329). -/
def State.engineIssue (s : State) (q : Queue) (o : Op) (log glob : Bool) (cause : Nat) (reason : Option Nat) (acc : Nat)
    (fault : Option EFault) (wdst : List Nat) (vdst : List Nat) (enter : Op → State → State) : Result :=
  match reason with
  | some r => .next (s.trapHere cause r o.e)
  | none =>
    if s.queueFullAt q then .next s
    else
      let k := if log then s.freeLog else none
      if log && k.isNone then s.refuseLog
      else
        let o1 := { o with logi := k }
        let s1 := (s.addOut o1 vdst wdst glob).advance 16
        let s2 := match k with
          | some k => s1.takeLog k o.id
          | none => s1
        match fault with
        | some e =>
          if q = .mtx then
            let s3 := enter o1 s2
            let r := s3.parkWhole ((s3.c.mtxq.getLast?).getD o1) acc e
            .next (r.1.putOp r.2)
          else
            let r := s2.parkWhole o1 acc e
            .next { r.1 with w := { r.1.w with parked := r.1.w.parked ++ [r.2] } }
        | none => .next (enter o1 s2)

/-! ### Ends -/

/-- An operation leaves its queue and is complete; what waits on its channels may follow. -/
def State.endEngine (s : State) (o : Op) : State :=
  (((s.mapOp o.id fun _ => none).dropLog o.logi).complete o.id).chanCheck

/-- A read that met an uncorrectable error ends the operation at once (R467). -/
def State.engineError (s : State) (o : Op) (loc addr : Nat) : State :=
  ((s.machineCheck loc o.e addr o.pc).leavePlaces o.id).endEngine o

/-- An event answers its next state, or is refused by name. -/
def orRefuse (m : String) (r : Option State) : Result :=
  match r with
  | some t => .next t
  | none => .refused (.notEnabled m)

end Sys2Proof.Machine
end

