-- ==== Sys2Proof/Machine/Channels.lean ====
section
/-! DEFINITION. The channel and copy class (R280 to R300): the words on channel state, the firing of reservations and inputs,
and the operations of the copy engine, chunk by chunk. -/

namespace Sys2Proof.Machine

/-! ### Parameters (R293) -/

/-- Some reason of a list, the lowest. -/
def lowestReason (rs : List Nat) : Option Nat :=
  rs.foldl (fun b r => match b with
    | none => some r
    | some x => some (min x r)) none

/-- A count that is no multiple of its granule, or is above 16,777,216. -/
def badCount (n granule : Nat) : Bool := decide (n % granule ≠ 0) || decide (16777216 < n)

/-- Reasons of a word with a count on a channel. -/
def State.chanReasons (s : State) (k n granule : Nat) : List Nat :=
  let c := s.chan k
  when (!c.dfn) 0x40 ++ when (badCount n granule) 0x41 ++ when (decide (c.size < n)) 0x42

/-! ### Words on channel state (R294 to R297) -/

/-- A word that waits among the warp's words for a condition. -/
def State.waitWord (s : State) (o : Op) (wdst : List Nat) : State :=
  let s1 := (s.addOut o [] wdst).advance 16
  { s1 with w := { s1.w with waits := s1.w.waits ++ [o] } }

/-- Reasons of CHDEF (R293): `b` the base offset, `n` the size. -/
def State.chdefReasons (s : State) (b n : Nat) : List Nat :=
  when ((decide (n ≠ 0) && !((List.range 9).any fun k => decide (n = 256 * 2 ^ k))) || decide (b % 256 ≠ 0)
    || decide (s.g.size < b + n)) 0x43

/-- CHDEF (R294). -/
def execChdef (f : FmtA) (x : Upper) (s : State) : Result :=
  let e := s.execSet f.cond
  if e = 0 then s.retireLong
  else
    let o := s.mkOp 0x140 f x [1, 1, 0] e
    match lowestReason (s.chdefReasons (o.val32 0 0).toNat (o.val32 1 0).toNat) with
    | some r => .next (s.trapHere 8 r e)
    | none => .next (s.waitWord o []).chanCheck

/-- CHRST (R294). -/
def execChrst (f : FmtA) (x : Upper) (s : State) : Result :=
  let e := s.execSet f.cond
  if e = 0 then s.retireLong
  else if (s.chan (chOf x)).dfn then .next (s.waitWord (s.mkOp 0x141 f x [] e) []).chanCheck
  else .next (s.trapHere 8 0x40 e)

/-- CHPROD.rsv (R283, R295). -/
def execChprodRsv (f : FmtA) (x : Upper) (s : State) : Result :=
  let e := s.execSet f.cond
  if e = 0 then s.retireLong
  else
    let o := s.mkOp 0x142 f x [0, 1, 0] e
    let n := (o.val32 1 0).toNat
    match lowestReason (s.chanReasons (chOf x) n 4) with
    | some r => .next (s.trapHere 8 r e)
    | none =>
      let q := (s.chan (chOf x)).reserve o.id o.warp n true
      .next ((s.waitWord o [f.dst.toNat]).setChan (chOf x) q.2).chanCheck

/-- CHPROD.pub (R295): its turn comes after the warp's earlier accesses. -/
def execChprodPub (f : FmtA) (x : Upper) (s : State) : Result :=
  let e := s.execSet f.cond
  let c := s.chan (chOf x)
  if e = 0 then s.retireLong
  else if c.dfn = false then .next (s.trapHere 8 0x40 e)
  else if c.outs.countP (fun r => r.byPub && r.warp == s.w.id && !r.complete) ≤ s.w.pubs (chOf x) then
    .next (s.trapHere 8 0x44 e)
  else s.orderWord 0x142 f x

/-- CHCONS (R285, R296). -/
def execChcons (f : FmtA) (x : Upper) (s : State) : Result :=
  let e := s.execSet f.cond
  if e = 0 then s.retireLong
  else
    let o := s.mkOp 0x143 f x [0, 1, 0] e
    let n := (o.val32 1 0).toNat
    match lowestReason (s.chanReasons (chOf x) n 4) with
    | some r => .next (s.trapHere 8 r e)
    | none => .next ((s.waitWord o []).mapChan (chOf x) fun c => { c with ins := c.ins ++ [{ op := o.id, n := n }] })

/-- CHWP (R297): the pointer as it stands at issue. -/
def execChwp (f : FmtA) (x : Upper) (s : State) : Result :=
  let e := s.execSet f.cond
  let c := s.chan (chOf x)
  if e = 0 then s.retireLong
  else if c.dfn = false then .next (s.trapHere 8 0x40 e)
  else (s.setU f.dst.toNat (if modeOf x = 0 then c.wp else if modeOf x = 1 then c.cp else c.pp)).retireLong

/-- CHWAIT (R286, R297): the pointer is sampled as soon as the condition holds. -/
def State.chwait (s : State) (f : FmtA) (x : Upper) : Result :=
  let e := s.execSet f.cond
  if e = 0 then s.retireLong
  else
    let o := s.mkOp 0x145 f x [0, 1, 0] e
    match lowestReason (s.chanReasons (chOf x) (o.val32 1 0).toNat 4) with
    | some r => .next (s.trapHere 8 r e)
    | none => .next (s.waitWord o [f.dst.toNat]).chanCheck

/-- CHWAIT.data (R297). -/
def execChwaitData (f : FmtA) (x : Upper) (s : State) : Result := s.chwait f x
/-- CHWAIT.room (R297). -/
def execChwaitRoom (f : FmtA) (x : Upper) (s : State) : Result := s.chwait f x

/-- CHWAIT_CONDITION_MET (R297): the sample is written. -/
def execChwaitConditionMet (op : Nat) (s : State) : Result :=
  orRefuse "CHWAIT_CONDITION_MET" <|
    (s.focusOp op).bind fun p => match p.1.aux with
      | [v] => if p.1.code = 0x145 then some (p.2.answerU p.1 (BitVec.ofNat 32 v)) else none
      | _ => none

/-! ### Firing (R283, R285, R296) -/

/-- Scratch accesses of the warp that issued before an operation and are not performed yet (R296). -/
def Warp.scratchBefore (w : Warp) (id : Nat) : Bool :=
  (w.pend.any fun p => decide (p.id < id) && p.onScratch) || w.scratchParked id

/-- A workgroup in focus, with any warp of it. -/
def State.focusWg (s : State) (wg : Nat) : Option State :=
  (s.warps.find? fun w => w.wg == wg).bind fun w => s.focus w.id

/-- CHANNEL_RESERVATION_FIRE (R283): the oldest reservation of the channel that has not fired. -/
def execChannelReservationFire (wg ch : Nat) (s : State) : Result :=
  orRefuse "CHANNEL_RESERVATION_FIRE" <|
    (s.focusWg wg).bind fun s0 =>
      let c := s0.chan ch
      (c.outs.find? fun r => !r.fired).bind fun r =>
        if c.mayFire r then
          let s1 := s0.setChan ch (c.mapResv r.op r.p fun r => { r with fired := true }).settle
          some (match r.byPub, s1.findOp r.op with
            | true, some o => (s1.answerU o (BitVec.ofNat 32 r.p)).chanCheck
            | _, _ => s1.chanCheck)
        else none

/-- CHANNEL_INPUT_FIRE (R285): the oldest input of the channel, its bytes being ready: CHCONS takes them; an engine
operation begins to read. -/
def execChannelInputFire (wg ch : Nat) (s : State) : Result :=
  orRefuse "CHANNEL_INPUT_FIRE" <|
    (s.focusWg wg).bind fun s0 =>
      let c := s0.chan ch
      match c.ins with
      | [] => none
      | i :: is =>
        (s0.findOp i.op).bind fun o =>
          if i.n ≤ c.fill then
            if o.code = 0x143 then
              (s0.warpOf o.warp).bind fun w =>
                if w.scratchBefore o.id then none
                else
                  let s1 := s0.setChan ch (({ c with ins := is } : Chan).consume i.n)
                  some (s1.updWarp o.warp fun w =>
                    ({ w with waits := w.waits.filter fun p => p.id != o.id } : Warp).finish o.id).chanCheck
            else if o.code = 0x147 ∧ (o.aux[1]?).getD 0 = 0 then
              -- the operation reads from CP as it stands when it fires, and takes a working place with its first chunk (R553)
              some (s0.putOp { o with aux := [c.cp.toNat, 1] }) else none
          else none

/-! ### Copies (R288, R289, R298 to R300) -/

/-- The destination of COPY.g2g. -/
def Op.gDst (o : Op) (i : Nat) : Nat := ((o.val64 1 0).toNat + i) % 2 ^ 64

/-- Where a word's scratch side begins, in space 1. -/
def Op.sAddr (o : Op) : Nat :=
  if o.code = 0x14A ∨ o.code = 0x14B then effAddr 1 (o.val32 0 0).toNat o.x.offset else (o.val32 1 0).toNat

/-- A copy has a side in global memory at SA. -/
def Op.hasGlobal (o : Op) : Bool :=
  decide (0x146 ≤ o.code) && decide (o.code ≤ 0x149) || (decide (o.code = 0x14B) && decide (o.x.space = 0))

/-- A copy has a side in scratch or a channel. -/
def Op.hasScratch (o : Op) : Bool := decide (o.code ≠ 0x148) && !(decide (o.code = 0x14B) && decide (o.x.space = 0))

/-- A copy delivers into its channel; one that does not takes from it. -/
def Op.toChan (o : Op) : Bool := decide (o.code ≠ 0x147)

/-- The block of BXFORM (R300). -/
def Op.block (o : Op) : Nat := if modeOf o.x = 0 then 4 else if modeOf o.x = 1 then 128 else 64

/-- The scratch offset of byte i; `p` is the pointer at which the operation begins on its channel. -/
def State.sAt (s : State) (o : Op) (p i : Nat) : Nat :=
  if o.x.space = 2 then (s.chan (chOf o.x)).offset (p + i) else o.sAddr + i

/-- Scratch pieces: contiguous ranges of positions, with their first offset. -/
def State.sPieces (s : State) (o : Op) (p n : Nat) : List (Nat × Nat × Nat) :=
  if o.x.space = 2 then
    let c := s.chan (chOf o.x)
    let m := min n (c.size - p % c.size)
    if m = n then [(c.offset p, 0, n)] else [(c.offset p, 0, m), (c.base, m, n - m)]
  else [(o.sAddr, 0, n)]

/-- The pointer at which a copy begins on its channel. -/
def Op.ptr (o : Op) : Nat := (o.aux[0]?).getD 0

/-- The chunks of a copy: position and length (R289). -/
def State.chunks (s : State) (o : Op) : List (Nat × Nat) :=
  let n := o.copyLen
  if o.code = 0x149 then
    (List.range o.rows).flatMap fun r => cuts (o.gAt (r * o.rowLen)) (r * o.rowLen) o.rowLen
  else if o.hasGlobal then cuts o.gAddr 0 n
  else (s.sPieces o o.ptr n).flatMap fun q => cuts q.1 q.2.1 q.2.2

/-- The global ranges of a copy that are checked at issue (R289, R298, R299). -/
def Op.gRanges (o : Op) : List (Nat × Nat) :=
  let n := o.copyLen
  if o.code = 0x149 then (List.range o.rows).map fun r => (o.gAt (r * o.rowLen), o.rowLen)
  else if o.code = 0x148 then [(o.gAddr, n), (o.gDst 0, n)]
  else if o.hasGlobal then [(o.gAddr, n)]
  else []

/-- The checks of a copy at issue, in the order of R218 (R289). -/
def State.copyFault (s : State) (o : Op) (p : Nat) : Option EFault :=
  let n := o.copyLen
  if n = 0 then none
  else
    match o.gRanges.findSome? fun r => s.windowFault r.1 r.2 with
    | some e => some e
    | none =>
      let bounds := if o.hasScratch then s.sPieces o p n else []
      match bounds.find? fun q => s.outsideScratch q.1 q.2.2 with
      | some q => some (2, 0, q.1)
      | none =>
        match o.gRanges.find? fun r => r.1 % 4 ≠ 0 with
        | some r => some (3, 0, r.1)
        | none =>
          let al := if o.code = 0x14A then o.block else 4
          if o.hasScratch && decide (o.x.space ≠ 2) && decide (o.sAddr % al ≠ 0) then some (3, 0, o.sAddr) else none

/-- The reasons of a copy (R293). -/
def State.copyReasons (s : State) (o : Op) : List Nat :=
  let n := o.copyLen
  (if o.x.space = 2 then s.chanReasons (chOf o.x) n 4 else when (badCount n (if o.code = 0x14A then o.block else 4)) 0x41)
    ++ when (decide (o.code = 0x149) && decide (o.rowLen % 4 ≠ 0)) 0x45

/-- The pointer at which a copy will begin on its channel. -/
def State.copyPtr (s : State) (o : Op) : Nat :=
  let c := s.chan (chOf o.x)
  if o.toChan then c.pp.toNat else (c.cp.toNat + (c.ins.map (·.n)).sum) % 2 ^ 32

/-- A copy enters the queue, with its reservation or its place (R283, R285). -/
def State.copyEnter (s : State) (o : Op) : State :=
  let n := o.copyLen
  if o.x.space ≠ 2 ∨ n = 0 then s.enqueue .copy (if n = 0 then { o with aux := [0] } else o)
  else
    let k := chOf o.x
    if o.toChan then
      let q := (s.chan k).reserve o.id o.warp n false
      (s.setChan k q.2).enqueue .copy { o with aux := [q.1] }
    else
      (s.mapChan k fun c => { c with ins := c.ins ++ [{ op := o.id, n := n }] }).enqueue .copy { o with aux := [s.copyPtr o] }

/-- ACC of a copy's record at issue: the side of the fault's address is not told apart there. -/
def Op.copyAcc (o : Op) : Nat :=
  if o.code = 0x147 ∨ o.code = 0x14A ∨ o.code = 0x14B then 2 else if o.code = 0x148 then 3 else 1

/-- A word of the copy engine issues (R288, R289). -/
def State.copyWord (s : State) (code : Nat) (f : FmtA) (x : Upper) (wid : List Nat) : Result :=
  let e := s.execSet f.cond
  if e = 0 then s.retireLong
  else
    let o := { s.mkOp code f x wid e with cls := some .copy }
    s.engineIssue .copy o true (decide (code = 0x147) || decide (code = 0x148) || (decide (code = 0x14B) && decide (x.space = 0)))
      8 (lowestReason (s.copyReasons o)) o.copyAcc (s.copyFault o (s.copyPtr o)) [] [] fun o s => s.copyEnter o

/-- COPY.g2s (R298). -/
def execCopyG2s (f : FmtA) (x : Upper) (s : State) : Result := s.copyWord 0x146 f x [2, 1, 1]
/-- COPY.s2g (R298). -/
def execCopyS2g (f : FmtA) (x : Upper) (s : State) : Result := s.copyWord 0x147 f x [2, 1, 1]
/-- COPY.g2g (R299). -/
def execCopyG2g (f : FmtA) (x : Upper) (s : State) : Result := s.copyWord 0x148 f x [2, 2, 1]
/-- COPY.tile (R298). -/
def execCopyTile (f : FmtA) (x : Upper) (s : State) : Result := s.copyWord 0x149 f x [2, 1, 2]
/-- BXFORM (R300). -/
def execBxform (f : FmtA) (x : Upper) (s : State) : Result := s.copyWord 0x14A f x [1, 0, 1]
/-- COPY.fill (R298). -/
def execCopyFill (f : FmtA) (x : Upper) (s : State) : Result := s.copyWord 0x14B f x [if x.space = 0 then 2 else 1, 1, 1]

/-! ### Fields and ranges of matrix words (R307, R314, R315, R317) -/

/-- Fields of a matrix word (R314, R315): the parameter block, the window and the accumulator base (R307). -/
def mtxNc (x : Upper) : Nat := x.ext.toNat / 64 % 32
def mtxC0 (x : Upper) : Nat := x.ext.toNat / 2048 % 16
def mtxMode (x : Upper) : Nat := x.ext.toNat / 8 % 8
def mtxSlot (x : Upper) : Nat := x.ext.toNat / 2 ^ 19 % 8
def Op.pb (o : Op) (i : Nat) : Nat := (o.reg 0 i 0).toNat
def Op.accb (o : Op) : Nat := (o.pb 0 + (o.val32 1 ((lowestLane o.e).getD 0)).toNat) % 2 ^ 32
def Op.aoff (o : Op) : Nat := o.pb 1
def Op.cpitch (o : Op) : Nat := o.pb 2 / 65536
def Op.apitch (o : Op) : Nat := o.pb 2 % 65536
def Op.nrow (o : Op) : Nat := o.pb 3 / 65536
def Op.kblk (o : Op) : Nat := o.pb 3 % 16
/-- Rows of accumulators (R317). -/
def Op.accRows (o : Op) : Nat := if o.code = 0x154 then 32 * o.nrow else o.nrow
/-- Bytes of an output element of MACR. -/
def outSize (fmt : Nat) : Nat := if fmt = 1 then 4 else 2

/-- The scratch ranges of a matrix operation, row by row (R317); `ofmt` is the output format of its slot. -/
def Op.mtxRanges (o : Op) (ofmt : Nat) : List (Nat × Nat) :=
  if 0x152 ≤ o.code ∧ o.code ≤ 0x156 then
    (List.range o.accRows).map (fun i => (o.accb + i * o.cpitch, 128 * mtxNc o.x))
      ++ (if o.code = 0x152 then (List.range o.nrow).map fun i => (o.aoff + i * o.apitch, 64 * o.kblk) else [])
      ++ (if o.code = 0x156 ∧ o.x.space = 1 then
            (List.range o.nrow).map fun i => (o.aoff + i * o.apitch, outSize ofmt * 32 * mtxNc o.x) else [])
  else []

/-- The count that an engine word checks against its channel (R317): bytes per column, row or tile. -/
def State.mtxCount (s : State) (o : Op) : Nat :=
  let slot := s.fslot (mtxSlot o.x)
  if o.code = 0x150 then (if slotFmtOf slot 1 = 4 then 128 else 512)
  else if o.code = 0x153 then 64 * o.kblk
  else if o.code = 0x154 then 2048
  else outSize (slotFmtOf slot 2) * 32 * mtxNc o.x

/-- How many inputs a matrix operation takes from its channel, and the bytes of each. -/
def State.mtxInputs (s : State) (o : Op) : Option (Nat × Nat) :=
  if o.code = 0x150 ∧ o.x.space = 2 then some (32 * mtxNc o.x, s.mtxCount o)
  else if o.code = 0x153 then some (o.nrow, 64 * o.kblk)
  else if o.code = 0x154 then some (o.pb 6, 2048)
  else none

/-- The scratch of a channel from a pointer on, for n bytes at most. -/
def Chan.pieces (c : Chan) (p n : Nat) : List (Nat × Nat) :=
  if n = 0 then []
  else if c.size ≤ n then [(c.base, c.size)]
  else
    let m := min n (c.size - p % c.size)
    (c.offset p, m) :: if m = n then [] else [(c.base, n - m)]

/-- The bytes that an operation with a place on a channel has still to take from it. -/
def State.inputLeft (s : State) (i : Place) : Nat :=
  match s.findOp i.op with
  | none => 0
  | some o => match s.mtxInputs o with
    | some q => (q.1 - o.chunk) * q.2
    | none => i.n

/-- The channel bytes that an operation reads or writes: of its reservations, and of its place among the inputs, which begins
where the earlier places end. -/
def State.chanRanges (s : State) (o : Op) : List (Nat × Nat) :=
  match o.chanNamed with
  | none => []
  | some k =>
    let c := s.chan k
    let before := ((c.ins.takeWhile fun i => i.op != o.id).map s.inputLeft).sum
    ((c.outs.filter fun r => r.op == o.id).flatMap fun r => c.pieces r.p r.n)
      ++ match c.ins.find? fun i => i.op == o.id with
        | some i => c.pieces ((c.cp.toNat + before) % 2 ^ 32) (s.inputLeft i)
        | none => []

/-- The ranges of a matrix operation of the workgroup in focus, with its channel bytes. -/
def State.mtxRanges (s : State) (o : Op) : List (Nat × Nat) :=
  o.mtxRanges (slotFmtOf (s.fslot (mtxSlot o.x)) 2) ++ s.chanRanges o

/-! ### Order among copies (R288, R300, R553)

An operation of the copy engine keeps in `aux` the pointer at which it begins on its channel, whether its input has fired, whether
a chunk is in flight, and how much of that chunk has moved. -/

def Op.inFired (o : Op) : Bool := decide ((o.aux[1]?).getD 0 = 1)
def Op.inFlight (o : Op) : Bool := decide (0x146 ≤ o.code) && decide (o.code ≤ 0x14B) && decide ((o.aux[2]?).getD 0 = 1)
def Op.moved (o : Op) : Nat := (o.aux[3]?).getD 0

/-- Two ranges share a byte. -/
def meets (a b : Nat × Nat) : Bool := decide (a.1 < b.1 + b.2) && decide (b.1 < a.1 + a.2)

/-- The scratch ranges of an operation that has entered the queue. -/
def State.copyRanges (s : State) (o : Op) : List (Nat × Nat) :=
  if o.hasScratch ∧ o.copyLen ≠ 0 then (s.sPieces o o.ptr o.copyLen).map fun q => (q.1, q.2.2) else []

/-- A copy whose reservation has fired or whose input has. -/
def State.copyFired (s : State) (o : Op) : Bool :=
  match o.chanNamed with
  | some k => if o.toChan then (s.chan k).outs.any fun r => r.op == o.id && r.fired else o.inFired
  | none => true

/-- A copy waits for the room of its reservation (R283). -/
def State.awaitsRoom (s : State) (o : Op) : Bool := o.chanNamed.isSome && o.toChan && !(s.copyFired o)

/-- An earlier operation that this one must follow (R288): one of the same channel, or one whose scratch range overlaps. Of
the same channel, an operation that has not fired delays those of its own direction only: the others fire, and then read or
deliver their bytes, as the pointers let them (R283, R285; log entry 54). A reservation that waits for room delays no copy
that names another channel or range (R553). -/
def State.copyBlocked (s : State) (o : Op) : Bool :=
  s.c.copyq.any fun p => decide (p.id < o.id) && decide (p.wg = o.wg) && decide (p.copyLen ≠ 0)
    && (if p.chanNamed.isSome && p.chanNamed == o.chanNamed then p.toChan == o.toChan || s.copyFired p
        else !(s.awaitsRoom p) && (s.copyRanges p).any fun a => (s.copyRanges o).any fun b => meets a b)

/-- CARVE holds the scratch side of an operation that issued after it (R217). -/
def State.copyCarved (s : State) (o : Op) : Bool := (s.copyRanges o).any fun r => s.carveHolds o (r.1 + r.2)

/-- Earlier scratch accesses and engine operations of the workgroup that touch a range are not performed yet (R300). -/
def State.touchedBefore (s : State) (o : Op) (r : Nat × Nat) : Bool :=
  s.scratchFirst o true r
  || s.copyBlocked o
  || s.c.mtxq.any fun p => decide (p.id < o.id) && decide (p.wg = o.wg) && (s.mtxRanges p).any fun a => meets a r

/-- An operation's turn has come, its reservation or its input has fired, and what its accesses must follow is done. -/
def State.copyMay (s : State) (o : Op) : Bool :=
  (decide (o.st = .queued) || decide (o.st = .running)) && decide (o.copyLen ≠ 0) && !(s.copyBlocked o) && !(s.copyCarved o)
    && s.copyFired o && !((s.copyRanges o).any fun r => s.scratchFirst o false r)
    && (if o.code = 0x14A then !(s.touchedBefore o (o.sAddr, o.copyLen)) else true)

/-- What the next chunk of a copy reads with R and writes with W, in global memory: the addresses that are translated, one in each
page. -/
def Op.chunkReads (o : Op) (pos : Nat) : List Nat :=
  if o.hasGlobal && !(decide (o.code = 0x147) || decide (o.code = 0x14B)) then [o.gAt pos] else []
def Op.chunkWrites (o : Op) (pos len : Nat) : List Nat :=
  if o.code = 0x148 then pagesOf (o.gDst pos) len
  else if o.hasGlobal && (decide (o.code = 0x147) || decide (o.code = 0x14B)) then [o.gAt pos] else []

/-- A chunk waits for a translation that is held, or for an earlier access of the warp (R256, R289). -/
def State.chunkHeld (s : State) (o : Op) (pos len : Nat) : Bool :=
  ((o.chunkReads pos).any fun a => s.heldAt a .read || s.warpFirst o a len)
    || ((o.chunkWrites pos len).any fun a => s.heldAt a .write)
    || (decide (o.code = 0x147 ∨ o.code = 0x14B) && o.hasGlobal && s.warpFirst o (o.gAt pos) len)
    || (decide (o.code = 0x148) && s.warpFirst o (o.gDst pos) len)

/-- An operation of the queue may start its next chunk: its turn has come and nothing holds the chunk. -/
def State.copyOpen (s : State) (o : Op) : Bool :=
  s.copyMay o && match (s.chunks o)[o.chunk]? with
    | some (pos, len) => !(s.chunkHeld o pos len)
    | none => false

/-- The engine works on four operations at once, and starts the oldest first of those that may start (R288, R553). -/
def State.copySlots (s : State) (o : Op) : Bool :=
  decide (o.st = .running) ||
    (decide (s.c.copyq.countP (fun p => decide (p.st = .running)) < 4)
      && !(s.c.copyq.any fun p => decide (p.id < o.id) && decide (p.st = .queued) && match s.focusOp p.id with
          | some q => q.2.copyOpen q.1
          | none => false))

/-- A chunk may start or go on; an engine that has stopped for pre-emption only finishes chunks in flight (R290). -/
def State.copyTurn (s : State) (o : Op) : Bool :=
  s.copyMay o && s.copySlots o && (o.inFlight || !(s.unitOff (s.engineUnit 1)))

/-! ### Chunks (R289, R298, R299) -/

/-- The scratch bytes of the workgroup in focus, and a scratch byte written. -/
def State.sByte (s : State) (a : Nat) : Byte := s.g.scratch.get byte0 a
def State.sPut (s : State) (a : Nat) (b : Byte) : State := { s with g := { s.g with scratch := s.g.scratch.set byte0 a b } }

/-- Byte i of a pattern repeated. -/
def patternByte (w : Word) (i : Nat) : Byte := w.extractLsb' (8 * (i % 4)) 8

/-- The bytes of a part moved. A part is read whole before it is written (R299). -/
def State.movePart (s : State) (o : Op) (pos len : Nat) : State :=
  let evp := o.x.evp.toNat
  let bs :=
    if o.code = 0x14B then (List.range len).map fun i => patternByte (o.val32 1 0) (pos + i)
    else if o.code = 0x147 then (List.range len).map fun i => s.sByte (s.sAt o o.ptr (pos + i))
    else s.engineRead o.kept o.xl (o.gAt pos) len
  let s1 := if o.code = 0x146 ∨ o.code = 0x148 ∨ o.code = 0x149 then s.engineFill o.xl (o.gAt pos) len evp else s
  if o.code = 0x148 then s1.engineWrite o o.xl (o.gDst pos) evp bs
  else if o.code = 0x147 ∨ (o.code = 0x14B ∧ o.x.space = 0) then s1.engineWrite o o.xl (o.gAt pos) evp bs
  else (List.range len).foldl (fun s i => s.sPut (s.sAt o o.ptr (pos + i)) ((bs[i]?).getD 0)) s1

/-- An uncorrectable error among the bytes that a part reads. -/
def State.partBad (s : State) (o : Op) (pos len : Nat) : Option (Nat × Nat) :=
  if o.code = 0x147 then s.scratchBad (s.sAt o o.ptr pos) len
  else if o.hasGlobal && decide (o.code ≠ 0x14B) then s.engineBad o.xl (o.gAt pos) len
  else none

/-- The length of the part at a position: parts end at multiples of 16, and those of COPY.tile at the ends of its rows (R298). -/
def Op.partLen (o : Op) (pos left : Nat) : Nat :=
  let i := if o.code = 0x149 then pos % o.rowLen else pos
  min left (16 - i % 16)

/-- What a copy into a channel has delivered, where WP shows it: at the ends of its steps (R284). -/
def State.showDone (s : State) (o : Op) (done : Nat) : State :=
  match o.chanNamed, o.toChan with
  | some k, true => s.mapChan k fun c => c.deliver o.id o.ptr done
  | _, _ => s

/-- A part of the chunk in flight moves; the chunk ends with its last part. -/
def State.copyPart (s : State) (o : Op) (pos len last : Nat) : State :=
  let at_ := pos + o.moved
  let m := o.partLen at_ (len - o.moved)
  match s.partBad o at_ m with
  | some (l, ad) => s.engineError o l ad
  | none =>
    let ends := decide (len ≤ o.moved + m)
    let o1 : Op := if ends then { o with chunk := o.chunk + 1, aux := [o.ptr, (o.aux[1]?).getD 0], xl := [] }
      else { o with aux := [o.ptr, (o.aux[1]?).getD 0, 1, o.moved + m] }
    let step := o.code = 0x149 ∨ (at_ + m) % 16 = 0 ∨ o.copyLen ≤ at_ + m
    let s1 := s.movePart o at_ m
    let s2 := if step then s1.showDone o (at_ + m) else s1
    let s3 := if ends ∧ last ≤ o1.chunk then s2.dropLog o.logi else s2
    (s3.putOp (if ends ∧ last ≤ o1.chunk then { o1 with logi := none } else o1)).chanCheck

/-- A fault of a chunk's checks parks the word; WP shows what the earlier chunks have delivered (R289). -/
def State.copyFail (s : State) (o : Op) (acc pos : Nat) (e : EFault) : State :=
  let r := s.parkWhole o acc e
  ((r.1.putOp { r.2 with aux := [o.ptr, (o.aux[1]?).getD 0] }).showDone o pos).chanCheck

/-- The next part of a copy: at the start of a chunk its translations come first, and the chunk is then in flight; none while it
must wait. -/
def State.copyStep (s : State) (o : Op) : Option State :=
  let cs := s.chunks o
  match cs[o.chunk]? with
  | none => none
  | some (pos, len) =>
    if o.inFlight then some (s.copyPart o pos len cs.length)
    else
      if s.chunkHeld o pos len then none
      else
        let a := checkPieces s .read (o.chunkReads pos)
        match a.2 with
        | none => none
        | some (.error e) => some (a.1.copyFail o 1 pos e)
        | some (.ok xs) =>
          let b := checkPieces a.1 .write (o.chunkWrites pos len)
          match b.2 with
          | none => none
          | some (.error e) => some (b.1.copyFail o 2 pos e)
          | some (.ok ys) =>
            let o1 : Op := { o with st := .running, xl := xs ++ ys, aux := [o.ptr, (o.aux[1]?).getD 0, 1, 0] }
            some (b.1.copyPart o1 pos len cs.length)

/-- COPY_CHUNK_START (R289): the next chunk of a copy starts, or the next part of the one in flight moves (R284, R298). -/
def execCopyChunkStart (op : Nat) (s : State) : Result :=
  orRefuse "COPY_CHUNK_START" <|
    (s.focusOp op).bind fun p =>
      if (p.2.c.copyq.any fun q => q.id == op) && decide (p.1.code ≠ 0x14A) && p.2.copyTurn p.1 then p.2.copyStep p.1 else none

/-- COPY_OPERATION_COMPLETE (R298): every chunk is done; a copy of no byte follows the earlier ones on its channel. -/
def execCopyOperationComplete (op : Nat) (s : State) : Result :=
  orRefuse "COPY_OPERATION_COMPLETE" <|
    (s.focusOp op).bind fun p =>
      let o := p.1
      let s0 := p.2
      let n := o.copyLen
      if (s0.c.copyq.any fun q => q.id == op) && decide (o.st ≠ .parked) && decide (o.st ≠ .resumable) then
        if n = 0 then
          if s0.c.copyq.any fun q => decide (q.id < op) && decide (q.wg = o.wg) && q.chanNamed.isSome
              && q.chanNamed == o.chanNamed then none
          else some (s0.endEngine o)
        else if o.st = .running ∧ (s0.chunks o).length ≤ o.chunk then
          let s1 := match o.chanNamed, o.toChan with
            | some k, false =>
              s0.mapChan k fun c => ({ c with ins := c.ins.filter fun i => i.op != o.id } : Chan).consume n
            | _, _ => s0
          some (s1.endEngine o)
        else none
      else none

/-! ### BXFORM (R300) -/

/-- The transformed bytes of a range, position by position. -/
def bxByte (mode : Nat) (rd : Nat → Byte) (i : Nat) : Byte :=
  if mode = 0 then 0
  else if mode = 1 then
    let j := i % 128
    rd (i / 128 * 128 + (j / 2 % 8 * 8 + j / 16) * 2 + j % 2)
  else
    let j := i % 64
    rd (i / 64 * 64 + (j / 4 % 4 * 4 + j / 16) * 4 + j % 4)

/-- BXFORM_START (R300): the whole range at once, and all its chunks are done. -/
def execBxformStart (op : Nat) (s : State) : Result :=
  orRefuse "BXFORM_START" <|
    (s.focusOp op).bind fun p =>
      let o := p.1
      let s0 := p.2
      if (s0.c.copyq.any fun q => q.id == op) && decide (o.code = 0x14A) && s0.copyTurn o && decide (o.chunk = 0) then
        match (if modeOf o.x = 0 then none else s0.scratchBad o.sAddr o.copyLen) with
        | some (l, ad) => some (s0.engineError o l ad)
        | none =>
          let s1 := (List.range o.copyLen).foldl (fun s i =>
            s.sPut (o.sAddr + i) (bxByte (modeOf o.x) (fun j => s0.sByte (o.sAddr + j)) i)) s0
          some ((s1.dropLog o.logi).putOp { o with st := .running, chunk := (s0.chunks o).length, logi := none })
      else none

end Sys2Proof.Machine
end

