-- ==== Sys2Proof/Machine/Matrix.lean ====
section
/-! DEFINITION. The matrix class (R301 to R330): the weight field, its words, and the operations of the matrix engine, a
column, a row or an entry at a time. -/

namespace Sys2Proof.Machine

/-! ### The weight field (R301 to R303, R328) -/

/-- Format tags (R328). -/
def tagQ4 : Nat := 0
def tagBf16 : Nat := 1
def tagF16 : Nat := 2

/-- The fields of a block-store entry: type, NaN, and an exponent of 13 bits, wide enough for every eb of align; the save area
shows the low 9 (R330). -/
def blkType (e : BitVec 16) : Nat := e.toNat / 2 ^ 14
def blkNan (e : BitVec 16) : Bool := e.getLsbD 13
def blkExp (e : BitVec 16) : Int := sextN 13 e.toNat
def blkMake (t : Nat) (k : Option Int) : BitVec 16 :=
  match k with
  | some k => BitVec.ofNat 16 (t * 2 ^ 14 + wrapN 13 k)
  | none => BitVec.ofNat 16 (t * 2 ^ 14 + 2 ^ 13)

def cellKey (p k n : Nat) : Nat := 131072 * p + 512 * k + n
def elemKey (p k n : Nat) : Nat := 32768 * p + 128 * k + n
def blkKey (p b n : Nat) : Nat := 4096 * p + 512 * b + n

def Mtx.tagOf (m : Mtx) (p : Nat) : Nat := m.tag.get 0 p
def Mtx.load (m : Mtx) : Nat := 1 - m.plane

/-- The three kinds of a 16-bit weight (R302). -/
def elemFinite (s : Bool) (mag : Nat) : BitVec 15 := BitVec.ofNat 15 ((if s then 2 ^ 14 else 0) + mag % 4096 * 4)
def elemInf (s : Bool) : BitVec 15 := BitVec.ofNat 15 ((if s then 2 ^ 14 else 0) + 1)
def elemNan : BitVec 15 := 2

/-- b(k, n) of the compute plane (R303). -/
def Mtx.weight (m : Mtx) (k n : Nat) : FVal :=
  let p := m.plane
  let e := m.blocks.get 0 (blkKey p (k / 32) n)
  if m.tagOf p = tagQ4 then
    (if blkNan e then .nan else (q4Val (m.cells.get 0 (cellKey p k n)).toNat (blkType e)).scale (blkExp e))
  else if 128 ≤ n then .fin false 0 0
  else
    let c := (m.elems.get 0 (elemKey p k n)).toNat
    if c % 4 = 0 then .fin (decide (2 ^ 14 ≤ c)) (c / 4 % 4096) (blkExp e - 11)
    else if c % 4 = 1 then .inf (decide (2 ^ 14 ≤ c))
    else .nan

/-! ### align and the sum of a pass (R89, R304) -/

/-- floor(log2 |x|) of a finite non-zero value. -/
def expOfV : FVal → Option Int
  | .fin _ m e => if m = 0 then none else some ((Nat.log2 m : Int) + e)
  | _ => none

/-- emax of align. -/
def alignMax (xs : List FVal) : Int :=
  (xs.filterMap expOfV).foldl (fun b e => match b with
    | none => some e
    | some x => some (max x e)) (none : Option Int) |>.getD 0

/-- m(x) of align (R89). -/
def alignMag (n : Nat) (emax : Int) : FVal → Nat
  | .fin _ m e => (rndGrid .rne false m e (emax - n + 1)).1
  | _ => 0

/-- seg_term (R304): the term of one column, with its flags. -/
def segTerm (slotSatB : Bool) (as bs : List FVal) : FRes :=
  let ps := as.zip bs
  let emax := alignMax as
  let anyNan := ps.any fun p => decide (p.1 = .nan) || decide (p.2 = .nan)
    || (p.1.isInf && p.2.isZero) || (p.1.isZero && p.2.isInf)
  if anyNan then .nan f32
  else
    let infs := ps.filter fun p => p.1.isInf || p.2.isInf
    match infs with
    | p :: _ =>
      let s := p.1.isNeg != p.2.isNeg
      if infs.all fun q => (q.1.isNeg != q.2.isNeg) == s then .inf f32 s else .nan f32
    | [] =>
      let terms := ps.filterMap fun p => match p.2 with
        | .fin s m e => if m = 0 then none else some (p.1.isNeg != s, alignMag 16 emax p.1 * m, e)
        | _ => none
      let g := (terms.map fun t => t.2.2).foldl min (0 : Int)
      let sum := (terms.map fun t => onGrid t.1 t.2.1 t.2.2 g).sum
      if sum = 0 then .zero f32 false else roundF f32 .rne slotSatB (decide (sum < 0)) sum.natAbs (g + emax - 15)

/-- An accumulation (R304): round_f of the sum of the accumulator and its term. -/
def accAdd (satB : Bool) (a t : Nat) : FRes :=
  let v := (addV .rne (fval f32 a) (fval f32 t)).1
  roundV f32 .rne satB v

/-! ### Words (R310, R313 to R317) -/

/-- Reads of a matrix operand of the elected lane (R313). -/
def Op.elected (o : Op) : Nat := (lowestLane o.e).getD 0

/-- The channel-parameter reasons of a matrix word (R317). -/
def State.mtxChanReasons (s : State) (o : Op) : List Nat :=
  match o.chanNamed with
  | some k => when (!(s.chan k).dfn) 0x40 ++ when (decide ((s.chan k).size < s.mtxCount o)) 0x42
  | none => []

/-- A word that reads a parameter block. -/
def usesBlock (code : Nat) : Bool := decide (0x152 ≤ code) && decide (code ≤ 0x156)
def passCode (code : Nat) : Bool := decide (0x152 ≤ code) && decide (code ≤ 0x154)

/-- The matrix-parameter reasons (R317). -/
def State.mtxReasons (s : State) (o : Op) : List Nat :=
  let c := o.code
  let b := usesBlock c
  let nc := mtxNc o.x
  let slot := s.fslot (mtxSlot o.x)
  when (b && (decide (o.nrow = 0) || decide ((if c = 0x154 then 128 else 4096) < o.nrow))) 0x50
    ++ when ((decide (c = 0x152) || decide (c = 0x153)) && (decide (o.kblk = 0) || decide (8 < o.kblk))
        || (decide (c = 0x154) && decide (o.kblk ≠ 8))) 0x51
    ++ when (b && (decide (o.pb 0 % 16 ≠ 0) || decide (o.accb % 16 ≠ 0) || decide (o.cpitch % 16 ≠ 0))
        || ((decide (c = 0x152) || (decide (c = 0x156) && decide (o.x.space = 1)))
            && (decide (o.aoff % 16 ≠ 0) || decide (o.apitch % 16 ≠ 0)))) 0x52
    ++ when (b && (s.mtxRanges o).any fun r => s.outsideScratch r.1 r.2) 0x53
    ++ when ((b || decide (c = 0x150) || decide (c = 0x158)) && (decide (nc = 0) || decide (16 < mtxC0 o.x + nc)
        || (decide (c = 0x150) && decide (slotFmtOf slot 1 ≠ 4) && decide (4 < mtxC0 o.x + nc)))) 0x54
    ++ when (decide (c = 0x154) && (decide (o.pb 6 = 0) || decide (65536 < o.pb 6))) 0x55
    ++ when (b && (decide (o.pb 7 ≠ 0) || decide (o.pb 3 / 16 % 4096 ≠ 0))) 0x56

/-- The pitch of WLD and WSCL (R318). -/
def Op.wpitch (o : Op) : Nat := (o.val32 1 0).toNat

/-- Bytes of one column of a load. -/
def State.colBytes (s : State) (o : Op) : Nat := if o.code = 0x158 then 16 else s.mtxCount o

/-- The address of column c of a load. -/
def Op.colAddr (o : Op) (c : Nat) : Nat := (o.gAddr + c * o.wpitch) % 2 ^ 64

/-- ELIST of MSPASS (R314). -/
def Op.elist (o : Op) : Nat := o.pb 4 + o.pb 5 * 2 ^ 32
def Op.entryAddr (o : Op) (e : Nat) : Nat := (o.elist + 16 * e) % 2 ^ 64

/-- The checks at issue of a load and of MSPASS's list (R318, R322, R329). -/
def State.mtxFault (s : State) (o : Op) : Option EFault :=
  if (o.code = 0x150 ∧ o.x.space = 0) ∨ o.code = 0x158 then
    let len := (32 * mtxNc o.x - 1) * o.wpitch + s.colBytes o
    match s.windowFault o.gAddr len with
    | some e => some e
    | none => if o.gAddr % 16 ≠ 0 ∨ o.wpitch % 16 ≠ 0 then some (3, 0, o.gAddr) else none
  else if o.code = 0x154 then
    match s.windowFault o.elist (16 * o.pb 6) with
    | some e => some e
    | none => if o.elist % 16 ≠ 0 then some (3, 0, o.elist) else none
  else none

/-- A matrix operation enters the queue, with its place or its reservations (R283, R285, R326). -/
def State.mtxEnter (s : State) (o : Op) : State :=
  let s1 : State := match o.chanNamed, s.mtxInputs o with
    | some k, some q => s.mapChan k fun c => { c with ins := c.ins ++ [{ op := o.id, n := q.2 }] }
    | _, _ => s
  match o.chanNamed with
  | some k =>
    if o.code = 0x156 then
      let r := (List.range o.nrow).foldl (fun (q : List Nat × Chan) _ =>
        let t := q.2.reserve o.id o.warp (s.mtxCount o) false
        (q.1 ++ [t.1], t.2)) ([], s1.chan k)
      (s1.setChan k r.2).enqueue .mtx { o with aux := r.1 }
    else s1.enqueue .mtx o
  | none => s1.enqueue .mtx o

/-- A matrix word issues (R310, R317, R329). -/
def State.mtxWord (s : State) (code : Nat) (f : FmtA) (x : Upper) (wid : List Nat) (log : Bool) (wdst : List Nat) : Result :=
  let e := s.execSet f.cond
  if e = 0 then s.retireLong
  else
    let o := { s.mkOp code f x wid e with cls := some .mtx }
    match lowestReason (s.mtxChanReasons o) with
    | some r => .next (s.trapHere 8 r e)
    | none =>
      s.engineIssue .mtx o log false 9 (lowestReason (s.mtxReasons o)) 1 (s.mtxFault o) wdst [] fun o s => s.mtxEnter o

/-- WLD (R318). -/
def execWld (f : FmtA) (x : Upper) (s : State) : Result := s.mtxWord 0x150 f x [2, 1, 0] true []
/-- WSWAP (R320). -/
def execWswap (f : FmtA) (x : Upper) (s : State) : Result := s.mtxWord 0x151 f x [] false []
/-- MPASS (R321). -/
def execMpass (f : FmtA) (x : Upper) (s : State) : Result := s.mtxWord 0x152 f x [8, 1, 0] false []
/-- MPASSB (R321). -/
def execMpassb (f : FmtA) (x : Upper) (s : State) : Result := s.mtxWord 0x153 f x [8, 1, 0] false []
/-- MSPASS (R322, R323). -/
def execMspass (f : FmtA) (x : Upper) (s : State) : Result := s.mtxWord 0x154 f x [8, 1, 0] true []
/-- MACZ (R325). -/
def execMacz (f : FmtA) (x : Upper) (s : State) : Result := s.mtxWord 0x155 f x [8, 1, 0] false []
/-- MACR (R326). -/
def execMacr (f : FmtA) (x : Upper) (s : State) : Result := s.mtxWord 0x156 f x [8, 1, 0] false []
/-- MEPF (R324). -/
def execMepf (f : FmtA) (x : Upper) (s : State) : Result := s.mtxWord 0x157 f x [2, 1, 0] false []
/-- WSCL (R319). -/
def execWscl (f : FmtA) (x : Upper) (s : State) : Result := s.mtxWord 0x158 f x [2, 1, 0] true []
/-- MSEL (R320). -/
def execMsel (f : FmtA) (x : Upper) (s : State) : Result := s.mtxWord 0x159 f x [] false []
/-- MFLUSH.wait (R327). -/
def execMflushWait (f : FmtA) (x : Upper) (s : State) : Result := s.mtxWord 0x15A f x [] false []
/-- MFLUSH.clr (R327). -/
def execMflushClr (f : FmtA) (x : Upper) (s : State) : Result := s.mtxWord 0x15A f x [] false []
/-- MSTAT (R328). -/
def execMstat (f : FmtA) (x : Upper) (s : State) : Result := s.mtxWord 0x15B f x [] false (regs f.dst 2)

/-- A matrix operation that had failed its checks at issue makes them again where it replays; it has its place (R329). -/
def State.mtxReplay (s : State) (o : Op) : State :=
  match if o.chunk = 0 then s.mtxFault o else none with
  | some e =>
    let r := s.parkWhole o 1 e
    r.1.putOp r.2
  | none => s.putOp o

/-! ### Order (R311) -/

def mtxLoad (code : Nat) : Bool := decide (code = 0x150) || decide (code = 0x158)
def mtxPass (code : Nat) : Bool := decide (0x152 ≤ code) && decide (code ≤ 0x156)
def mtxAlone (code : Nat) : Bool := [0x151, 0x159, 0x15A, 0x15B].contains code

/-- The operation's turn has come among the earlier ones (R311); MFLUSH waits for every earlier one, MEPF among them (R327). An
engine that has stopped for pre-emption does nothing more (R330). -/
def State.mtxTurn (s : State) (o : Op) : Bool :=
  (decide (o.st = .queued) || decide (o.st = .running)) && !(s.unitOff (s.engineUnit 2)) &&
  (decide (o.code = 0x157) || !(s.c.mtxq.any fun p => decide (p.id < o.id) && decide (p.wg = o.wg)
    && (mtxAlone p.code || (mtxAlone o.code && (decide (p.code ≠ 0x157) || decide (o.code = 0x15A)))
      || (mtxLoad o.code && mtxLoad p.code) || (mtxPass o.code && mtxPass p.code))))

/-- Scratch accesses that issued before the operation stand before it in the banks (R312); CARVE holds ranges that it
takes away (R217). -/
def State.mtxHeld (s : State) (o : Op) : Bool :=
  let rs := s.mtxRanges o
  rs.any fun r => s.scratchFirst o false r || s.carveHolds o (r.1 + r.2) || s.bxHolds o r.1 r.2

/-! ### Steps of an operation -/

/-- The matrix state changed. -/
def State.updMtx (s : State) (g : Mtx → Mtx) : State := { s with c := { s.c with mtx := g s.c.mtx } }

/-- Flags ORed into the status, with NV where a value written is a NaN (R305). -/
def Mtx.orStat (m : Mtx) (fl : Flags) (nan : Bool) : Mtx :=
  { m with mstat := m.mstat ||| (fl ||| (if nan then flNV else 0)).setWidth 32 }

/-- A column of the load plane cleared: zero cells, block entries of type 00 with k = 0 (R318). -/
def Mtx.clearPlane (m : Mtx) (p : Nat) : Mtx :=
  let other {α : Type} (size : Nat) (t : Sparse α) : Sparse α := t.filter fun e => decide (e.1 / size ≠ p)
  { m with cells := other 131072 m.cells, elems := other 32768 m.elems, blocks := other 4096 m.blocks }

/-- The tag that BFMT gives. -/
def tagOfFmt (fmt : Nat) : Nat := if fmt = 2 then tagF16 else if fmt = 3 then tagBf16 else tagQ4

/-- WLD begins: cells and entries outside the window become zero (R318). Window columns are written as they arrive, and
are cleared here as well, each being written whole before the operation is done. -/
def Mtx.beginLoad (m : Mtx) (fmt c0 nc : Nat) : Mtx :=
  let p := m.load
  let keep {α : Type} (size cols width : Nat) (t : Sparse α) : Sparse α := t.filter fun e =>
    decide (e.1 / size ≠ p) || (decide (32 * c0 ≤ e.1 % size % cols / width) && decide (e.1 % size % cols / width < 32 * (c0 + nc)))
  let m1 := if fmt = 4 then
      { m with cells := keep 131072 512 1 m.cells, elems := m.elems.filter fun e => decide (e.1 / 32768 ≠ p) }
    else { m with cells := m.cells.filter fun e => decide (e.1 / 131072 ≠ p), elems := keep 32768 128 1 m.elems }
  { m1 with
    blocks := keep 4096 512 1 m.blocks, tag := m.tag.set 0 p (tagOfFmt fmt)
    loaded := m.loaded.set 0 p (if fmt = 4 then 0 else 2 ^ (c0 + nc) - 2 ^ c0) }

/-- The default block entry of a Q4 load (R318). -/
def wldBlock (slot : Word64) : BitVec 16 :=
  let k : Option Int := if 2 ≤ slotSS slot 1 then
      (if slotTen slot 1 = 255 then none else some ((slotTen slot 1 : Int) - 127)) else some 0
  blkMake (if slotQF slot 1 then slotQT slot 1 else 0) k

/-- Column n of the load plane written from its bytes (R318). -/
def Mtx.putColumn (m : Mtx) (slot : Word64) (n : Nat) (bs : List Byte) : Mtx :=
  let p := m.load
  if slotFmtOf slot 1 = 4 then
    let cells := (List.range 256).foldl (fun t k =>
      t.set 0 (cellKey p k n) (BitVec.ofNat 4 (((bs[k / 2]?).getD 0).toNat / 16 ^ (k % 2)))) m.cells
    let blocks := (List.range 8).foldl (fun t b => t.set 0 (blkKey p b n) (wldBlock slot)) m.blocks
    { m with cells := cells, blocks := blocks }
  else
    let fm := if slotFmtOf slot 1 = 2 then f16 else bf16
    let kb : Int := if slotSS slot 1 = 2 then (slotTen slot 1 : Int) - 127 else 0
    let val (k : Nat) : FVal :=
      if slotSS slot 1 = 2 ∧ slotTen slot 1 = 255 then .nan
      else (fval fm (leNat [(bs[2 * k]?).getD 0, (bs[2 * k + 1]?).getD 0])).scale kb
    (List.range 8).foldl (fun m b =>
      let xs := (List.range 32).map fun i => val (32 * b + i)
      let emax := alignMax xs
      let elems := (List.range 32).foldl (fun t i => t.set 0 (elemKey p (32 * b + i) n) (match val (32 * b + i) with
        | .fin sg mm ee => elemFinite sg (alignMag 12 emax (.fin sg mm ee))
        | .inf sg => elemInf sg
        | .nan => elemNan)) m.elems
      { m with elems := elems, blocks := m.blocks.set 0 (blkKey p b n) (blkMake 0 (some emax)) }) m

/-- Nibble i of the cells of element (k, n) of a 16-bit plane: of a loaded element packed as the manual does not say (log
entry 17), and zero elsewhere (R318). -/
def Mtx.nibble (m : Mtx) (p k n i : Nat) : BitVec 4 :=
  if (m.loaded.get 0 p).testBit (n / 32) then Config.floatCell (m.elems.get 0 (elemKey p k n)) i else 0

/-- WSCL makes the load plane Q4 (R319): cells of a 16-bit plane then read as codes. DESIGN CHOICE (log entry 17): an entry of
the block store that WSCL does not write keeps its bits, so that the block exponent of a 16-bit plane then reads as a Q4 entry
of type 00 whose k is that exponent. -/
def Mtx.makeQ4 (m : Mtx) : Mtx :=
  let p := m.load
  if m.tagOf p = tagQ4 then m
  else
    { m with
      tag := m.tag.set 0 p tagQ4
      cells := (List.range 32768).foldl (fun t j =>
        (List.range 4).foldl (fun t i =>
          t.set 0 (cellKey p (j / 128) (4 * (j % 128) + i)) (m.nibble p (j / 128) (j % 128) i)) t) m.cells
      loaded := m.loaded.set 0 p 0
      elems := m.elems.filter fun e => decide (e.1 / 32768 ≠ p) }

/-- The block entries of column n from its scale array (R319). -/
def Mtx.putScales (m : Mtx) (slot : Word64) (j0 n : Nat) (bs : List Byte) : Mtx :=
  let p := m.load
  let sw (j : Nat) : Nat := leNat ((bs.drop (4 * (j / 3))).take 4) / 2 ^ (10 * (j % 3)) % 1024
  { m with blocks := (List.range 8).foldl (fun t b =>
      t.set 0 (blkKey p b n) (blkMake (q4Type slot 1 (sw (j0 + b))) (scaleK slot 1 (sw (j0 + b))))) m.blocks }

/-- A word of scratch. -/
def State.sWord (s : State) (a : Nat) : Nat := leNat ((List.range 4).map fun i => s.sByte (a + i))
def State.sPutBytes (s : State) (a : Nat) (bs : List Byte) : State :=
  (List.range bs.length).foldl (fun s i => s.sPut (a + i) ((bs[i]?).getD 0)) s

/-- mtx_row (R304): one row of A against the window of the compute plane. -/
def State.mtxRow (s : State) (o : Op) (row : Nat) (as : List FVal) : State :=
  let slot := s.fslot (mtxSlot o.x)
  let satB := slotSat slot
  (List.range (32 * mtxNc o.x)).foldl (fun s j =>
    let n := 32 * mtxC0 o.x + j
    let t := segTerm satB as ((List.range 256).map fun k => s.c.mtx.weight k n)
    let a := o.accb + row * o.cpitch + 4 * j
    let r := if mtxMode o.x % 2 = 1 then t else
      let q := accAdd satB (s.sWord a) t.bits
      { q with fl := q.fl ||| t.fl }
    (s.sPutBytes a (leBytes 4 r.bits)).updMtx fun m => m.orStat r.fl (isNan f32 r.bits)) s

/-- The values of A's elements, scaled (R304). -/
def State.aValues (s : State) (o : Op) (bits : Nat → Option Nat) : List FVal :=
  let slot := s.fslot (mtxSlot o.x)
  let fm := if slotFmtOf slot 0 = 2 then f16 else bf16
  let ka : Int := if slotSS slot 0 = 2 then (slotTen slot 0 : Int) - 127 else 0
  (List.range 256).map fun k => match bits k with
    | some b => if slotSS slot 0 = 2 ∧ slotTen slot 0 = 255 then .nan else (fval fm b).scale ka
    | none => if slotSS slot 0 = 2 ∧ slotTen slot 0 = 255 then .nan else .fin false 0 0

/-- Two bytes of scratch. -/
def State.sHalf (s : State) (a : Nat) : Nat := leNat [s.sByte a, s.sByte (a + 1)]

/-- An uncorrectable error that a row of a pass meets (R467): in the window of the compute plane, whose places are
32,768 times the plane and 128 k + n, or in C where the pass adds to it. -/
def State.rowBad (s : State) (o : Op) (row : Nat) : Option (Nat × Nat) :=
  if s.bad.isEmpty then none
  else
    let unit := coreId (s.phys s.c.die) s.c.num
    let hits (k j : Nat) : Bool := s.bad.contains (4, unit, 32768 * s.c.mtx.plane + 128 * k + 32 * mtxC0 o.x + j)
    if (List.range 256).any fun k => (List.range (32 * mtxNc o.x)).any (hits k) then some (4, 0)
    else if mtxMode o.x % 2 = 1 then none
    else s.scratchBad (o.accb + row * o.cpitch) (128 * mtxNc o.x)

/-- A row of A read from scratch at the offsets of its elements. -/
def State.aRow (s : State) (o : Op) (at_ : Nat → Nat) : List FVal :=
  s.aValues o fun k => if k < 32 * o.kblk then some (s.sHalf (at_ k)) else none

/-- Bytes at the consumer's pointer of a channel, after an input of n bytes is ready; none while it is not. -/
def State.takeInput (s : State) (o : Op) (n : Nat) : Option (State × List Byte) :=
  match o.chanNamed with
  | some k =>
    let c := s.chan k
    match c.ins with
    | i :: _ =>
      if i.op = o.id ∧ n ≤ c.fill then
        some (s.setChan k (c.consume n), (List.range n).map fun j => s.sByte (c.offset (c.cp.toNat + j)))
      else none
    | [] => none
  | none => none

/-- An uncorrectable error in the bytes that an input of n bytes takes (R467). -/
def State.inputBad (s : State) (o : Op) (n : Nat) : Option (Nat × Nat) :=
  if s.bad.isEmpty then none
  else match o.chanNamed with
    | some k => (List.range n).findSome? fun j => s.scratchBad ((s.chan k).offset ((s.chan k).cp.toNat + j)) 1
    | none => none

/-- The place on the channel is given up: the last input has been taken. -/
def State.leaveInput (s : State) (o : Op) : State :=
  match o.chanNamed with
  | some k => s.mapChan k fun c => { c with ins := c.ins.filter fun i => i.op != o.id }
  | none => s

/-- The next step of an operation is done; its chunk number counts its steps. -/
def State.stepDone (s : State) (o : Op) : State := (s.putOp { o with chunk := o.chunk + 1, st := .running }).chanCheck

/-- One column of WLD or WSCL (R318, R319, R329). -/
def State.loadColumn (s : State) (o : Op) : Option State :=
  let slot := s.fslot (mtxSlot o.x)
  let c := o.chunk
  let n := 32 * mtxC0 o.x + c
  let s0 := if c = 0 then s.updMtx fun m => if o.code = 0x150 then m.beginLoad (slotFmtOf slot 1) (mtxC0 o.x) (mtxNc o.x)
      else m.makeQ4 else s
  let put (bs : List Byte) (m : Mtx) : Mtx :=
    if o.code = 0x150 then m.putColumn slot n bs else m.putScales slot (mtxMode o.x) n bs
  if o.x.space = 2 then
    (s0.takeInput o (s.mtxCount o)).map fun r =>
      match s0.inputBad o (s.mtxCount o) with
      | some (l, ad) => s0.engineError o l ad
      | none =>
        let s1 := if 32 * mtxNc o.x ≤ c + 1 then r.1.leaveInput o else r.1
        (s1.updMtx (put r.2)).stepDone o
  else
    let a := o.colAddr c
    let len := s.colBytes o
    let pages := pagesOf a len
    if (pages.any fun p => s.heldAt p .read) || s.warpFirst o a len then none
    else
      let q := checkPieces s0 .read pages
      match q.2 with
      | none => none
      | some (.error e) =>
        let r := q.1.parkWhole { o with chunk := e.2.2 / 4096 - o.gAddr / 4096 } 1 e
        some (r.1.putOp { r.2 with chunk := c })
      | some (.ok xs) =>
        match q.1.engineBad xs a len with
        | some (l, ad) => some (q.1.engineError o l ad)
        | none =>
          let s1 := (q.1.engineFill xs a len o.x.evp.toNat).updMtx (put (q.1.engineRead o.kept xs a len))
          let last := decide (32 * mtxNc o.x ≤ c + 1)
          let s2 := if last then s1.dropLog o.logi else s1
          some (s2.stepDone (if last then { o with logi := none } else o))

/-- One row of MPASS or MPASSB (R321). -/
def State.passRow (s : State) (o : Op) : Option State :=
  let i := o.chunk
  if o.code = 0x152 then
    match (s.scratchBad (o.aoff + i * o.apitch) (64 * o.kblk)).or (s.rowBad o i) with
    | some (l, ad) => some (s.engineError o l ad)
    | none => some ((s.mtxRow o i (s.aRow o fun k => o.aoff + i * o.apitch + 2 * k)).stepDone o)
  else
    (s.takeInput o (64 * o.kblk)).map fun r =>
      match (s.inputBad o (64 * o.kblk)).or (s.rowBad o i) with
      | some (l, ad) => s.engineError o l ad
      | none =>
        let s1 := if o.nrow ≤ i + 1 then r.1.leaveInput o else r.1
        let as := s.aValues o fun k =>
          if k < 32 * o.kblk then some (leNat [(r.2[2 * k]?).getD 0, (r.2[2 * k + 1]?).getD 0]) else none
        (s1.mtxRow o i as).stepDone o

/-- One row of MACZ (R325). -/
def State.maczRow (s : State) (o : Op) : State :=
  (s.sPutBytes (o.accb + o.chunk * o.cpitch) (List.replicate (128 * mtxNc o.x) 0)).stepDone o

/-- One row of MACR (R326). -/
def State.macrRow (s : State) (o : Op) : Option State :=
  let slot := s.fslot (mtxSlot o.x)
  let fmt := slotFmtOf slot 2
  let fm := if fmt = 1 then f32 else if fmt = 2 then f16 else bf16
  let i := o.chunk
  let conv (j : Nat) : FRes :=
    let v := fval f32 (s.sWord (o.accb + i * o.cpitch + 4 * j))
    if slotSS slot 2 = 2 then
      (if slotTen slot 2 = 255 then .nan fm else roundV fm .rne (slotSat slot) (v.scale (127 - (slotTen slot 2 : Int))))
    else roundV fm .rne (slotSat slot) v
  let rs := (List.range (32 * mtxNc o.x)).map conv
  let bs := rs.flatMap fun r => leBytes (outSize fmt) r.bits
  let st (m : Mtx) : Mtx := rs.foldl (fun m r => m.orStat r.fl (isNan fm r.bits)) m
  match s.scratchBad (o.accb + i * o.cpitch) (128 * mtxNc o.x) with
  | some (l, ad) => some (s.engineError o l ad)
  | none =>
    match o.chanNamed with
    | none => some (((s.sPutBytes (o.aoff + i * o.apitch) bs).updMtx st).stepDone o)
    | some k =>
      let p := (o.aux[i]?).getD 0
      let c := s.chan k
      if c.outs.any fun r => r.op == o.id && r.p == p && r.fired then
        let s1 := (List.range bs.length).foldl (fun s j => s.sPut (c.offset (p + j)) ((bs[j]?).getD 0)) s
        some (((s1.mapChan k fun c => c.deliver o.id p bs.length).updMtx st).stepDone o)
      else none

/-! ### MSPASS (R322 to R324)

An operation keeps, in `aux`: one above the last valid entry's ROW, its KB (8 where its E is 1), and the tiles of the current
block row: for each, its KB and its 1,024 elements. -/

/-- A malformed entry (R323). -/
def badEntry (nrow : Nat) (last : List Nat) (e : Word128) : Bool :=
  let row := (e.extractLsb' 64 16).toNat
  let kb := (e.extractLsb' 80 3).toNat
  let em := e.getLsbD 88
  decide ((e.extractLsb' 83 5).toNat ≠ 0) || decide ((e.extractLsb' 89 39).toNat ≠ 0) || decide (nrow ≤ row)
    || (em && decide (kb ≠ 0))
    || (match last with
        | r1 :: k1 :: _ =>
          decide (r1 ≠ 0) && (decide (row + 1 < r1)
            || (decide (row + 1 = r1) && (decide (kb ≤ k1 % 8) || em || decide (8 ≤ k1))))
        | _ => false)

/-- The tiles of the current block row. -/
def tilesOf : Nat → List Nat → List (Nat × List Nat)
  | 0, _ => []
  | _ + 1, [] => []
  | n + 1, kb :: rest => (kb, rest.take 1024) :: tilesOf n (rest.drop 1024)

/-- The first n of the 32 rows of a block row (R323). -/
def State.blockRows (s : State) (o : Op) (row : Nat) (tiles : List (Nat × List Nat)) (n : Nat) : State :=
  (List.range n).foldl (fun s t =>
    let as := s.aValues o fun k =>
      some (match tiles.find? fun q => q.1 == k / 32 with
        | some q => (q.2[32 * t + k % 32]?).getD 0
        | none => 0)
    s.mtxRow o (32 * row + t) as) s

/-- A block row of the tiles that an operation keeps, and then what follows; an uncorrectable error stops it before the row that
meets it (R467). -/
def State.blockRow (s : State) (o : Op) (row : Nat) (tiles : List (Nat × List Nat)) (then_ : State → State) : State :=
  if tiles.isEmpty then then_ s
  else
    match (List.range 32).findSome? fun t => (s.rowBad o (32 * row + t)).map fun q => (t, q) with
    | some (t, l, ad) => (s.blockRows o row tiles t).engineError o l ad
    | none => then_ (s.blockRows o row tiles 32)

/-- The first entry that the 4 KB chunk of an entry holds: a fault record names it (R554). -/
def Op.chunkFirst (o : Op) (e : Nat) : Nat := ((List.range (e + 1)).find? fun i =>
  decide (o.entryAddr i / 4096 = o.entryAddr e / 4096)).getD e

/-- The entry of index e: from the entry buffer, or from memory: none while it must wait. -/
def State.mspEntry (s : State) (o : Op) : State × Option (Except EFault Word128) × Option (Nat × Nat) :=
  let a := o.entryAddr o.chunk
  match s.c.mtx.ebuf.find? fun p => p.1 == a with
  | some p => (s.updMtx fun m => { m with ebuf := m.ebuf.filter fun q => q.1 != a }, some (.ok p.2), none)
  | none =>
    if s.heldAt a .read || s.warpFirst o a 16 then (s, none, none)
    else
      let q := checkPieces s .read [a]
      match q.2 with
      | none => (s, none, none)
      | some (.error e) => (q.1, some (.error e), none)
      | some (.ok xs) =>
        (q.1.engineFill xs a 16 o.x.evp.toNat, some (.ok (BitVec.ofNat 128 (leNat (q.1.engineRead o.kept xs a 16)))),
          q.1.engineBad xs a 16)

/-- The last block row ends and the operation gives up its place. -/
def State.mspEnd (s : State) (o : Op) : State :=
  let row1 := (o.aux[0]?).getD 0
  s.blockRow o (row1 - 1) (tilesOf 8 (o.aux.drop 2)) fun s1 =>
    ((s1.leaveInput o).dropLog o.logi).putOp { o with chunk := o.chunk + 1, st := .running, aux := [], logi := none }

/-- One entry of MSPASS, or the end of its list (R323). -/
def State.mspStep (s : State) (o : Op) : Option State :=
  if o.pb 6 ≤ o.chunk then (if o.chunk = o.pb 6 then some (s.mspEnd o).chanCheck else none)
  else
    let q := s.mspEntry o
    match q.2.1 with
    | none => none
    | some (.error e) =>
      let r := q.1.parkWhole { o with chunk := o.entryAddr o.chunk / 4096 - o.elist / 4096 } 1
        (e.1, e.2.1, o.entryAddr (o.chunkFirst o.chunk))
      some (r.1.putOp { r.2 with chunk := o.chunk })
    | some (.ok e) =>
      match q.2.2 with
      | some (l, ad) => some (q.1.engineError o l ad)
      | none =>
        let row := (e.extractLsb' 64 16).toNat
        let kb := (e.extractLsb' 80 3).toNat
        if badEntry o.nrow o.aux e then
          some ((q.1.updMtx fun m => { m with
            mstat := m.mstat ||| 0x40
            bidx := if m.bidx = 0xFFFFFFFF then BitVec.ofNat 32 o.chunk else m.bidx }).stepDone o)
        else
          let row1 := (o.aux[0]?).getD 0
          let newRow := decide (row1 ≠ row + 1)
          let s1 := q.1
          let tiles := if newRow then [] else o.aux.drop 2
          if newRow && decide (2 < o.aux.length) then
            -- the list completes the block row before: its passes run, and the entry is still to be taken
            some (s.blockRow o (row1 - 1) (tilesOf 8 (o.aux.drop 2)) fun s2 => s2.putOp { o with st := .running, aux := o.aux.take 2 })
          else if e.getLsbD 88 then
            some ((s1.updMtx fun m => { m with mstat := m.mstat ||| 0x20 }).stepDone { o with aux := [row + 1, 8] })
          else
            -- the entry is taken with its tile: nothing of it happens before the tile is ready
            (s1.takeInput o 2048).map fun r =>
              match s1.inputBad o 2048 with
              | some (l, ad) => s1.engineError o l ad
              | none =>
              let elems := (List.range 1024).map fun i => leNat [(r.2[2 * i]?).getD 0, (r.2[2 * i + 1]?).getD 0]
              r.1.stepDone { o with aux := [row + 1, kb] ++ tiles ++ (kb :: elems) }

/-- The entry of index e of MEPF (R324), read without a fault: one that would fault is dropped. It follows earlier accesses of
the warp (R256, R312); none while it must wait. DESIGN CHOICE (log entry 58): an entry whose address the buffer holds takes
the place of the older one, as the newest. -/
def State.mepf (s : State) (o : Op) : Option State :=
  let a := (o.gAddr + 16 * o.chunk) % 2 ^ 64
  if (o.val32 1 0).toNat ≤ o.chunk then some (s.stepDone o)
  else if s.heldAt a .quiet || s.warpFirst o a 16 then none
  else
    let r := checkPieces s .quiet (pagesOf a 16)
    match r.2 with
    | none => none
    | some (.ok xs) =>
      match (if xs.all fun x => Kind.read.permitted x.leaf then r.1.engineBad xs a 16 else none) with
      | some (l, ad) => some (r.1.engineError o l ad)
      | none =>
      some ((if xs.all fun x => Kind.read.permitted x.leaf then
          (r.1.engineFill xs a 16 o.x.evp.toNat).updMtx fun m => { m with
            ebuf := ((a, BitVec.ofNat 128 (leNat (r.1.engineRead o.kept xs a 16))) :: m.ebuf.filter fun q => q.1 != a).take 256 }
        else r.1).stepDone o)
    | some (.error _) => some (r.1.stepDone o)

/-- MSTAT's words (R328). -/
def Mtx.statWord (m : Mtx) : Word64 :=
  BitVec.ofNat 64 (m.bidx.toNat * 2 ^ 32 + m.tagOf 1 * 2 ^ 22 + m.tagOf 0 * 2 ^ 20 + m.plane * 2 ^ 16 + m.mstat.toNat % 128)

/-- The state of the weight field at the start of a workgroup (R301), but for the status. -/
def Mtx.clear (m : Mtx) : Mtx := { mstat := m.mstat, bidx := m.bidx }

/-- The uniform registers of the operation's warp written. -/
def State.putPair (s : State) (o : Op) (x : Word64) : State :=
  let r := o.f.dst.toNat
  s.updWarp o.warp fun w =>
    { w with u := (w.u.set 0 r (x.setWidth 32)).set 0 (r + 1) (x.extractLsb' 32 32) }

/-- Words that act at one moment: WSWAP, MSEL, MFLUSH and MSTAT (R320, R327, R328). -/
def State.mtxOnce (s : State) (o : Op) : State :=
  let m := mtxMode o.x
  (if o.code = 0x151 then s.updMtx fun q => { q with plane := 1 - q.plane }
   else if o.code = 0x159 then s.updMtx fun q => { q with plane := m % 2 }
   else if o.code = 0x15A then s.updMtx fun q => if m = 1 then { q.clear with ebuf := [] } else { q with ebuf := [] }
   else
     let s1 := s.putPair o s.c.mtx.statWord
     if m = 1 then s1.updMtx fun q => { q with bidx := 0xFFFFFFFF, mstat := q.mstat &&& ~~~0x7F } else s1).stepDone o

/-- The number of steps of an operation. -/
def Op.mtxSteps (o : Op) : Nat :=
  if mtxLoad o.code then 32 * mtxNc o.x
  else if o.code = 0x154 then o.pb 6 + 1
  else if o.code = 0x157 then max 1 (min (o.val32 1 0).toNat 256)
  else if mtxPass o.code then o.nrow
  else 1

/-- The next step of a matrix operation. -/
def State.mtxStep (s : State) (o : Op) : Option State :=
  if o.mtxSteps ≤ o.chunk then none
  else if mtxLoad o.code then s.loadColumn o
  else if o.code = 0x152 ∨ o.code = 0x153 then s.passRow o
  else if o.code = 0x154 then s.mspStep o
  else if o.code = 0x155 then some (s.maczRow o)
  else if o.code = 0x156 then s.macrRow o
  else if o.code = 0x157 then s.mepf o
  else some (s.mtxOnce o)

/-- MATRIX_OPERATION_START (R311): an operation starts, or takes its next column, row or entry. -/
def execMatrixOperationStart (op : Nat) (s : State) : Result :=
  orRefuse "MATRIX_OPERATION_START" <|
    (s.focusOp op).bind fun p =>
      if (p.2.c.mtxq.any fun q => q.id == op) && p.2.mtxTurn p.1 && !(p.2.mtxHeld p.1) then p.2.mtxStep p.1 else none

/-- MATRIX_OPERATION_COMPLETE (R310): every step is done. -/
def execMatrixOperationComplete (op : Nat) (s : State) : Result :=
  orRefuse "MATRIX_OPERATION_COMPLETE" <|
    (s.focusOp op).bind fun p =>
      if (p.2.c.mtxq.any fun q => q.id == op) && decide (p.1.st = .running) && decide (p.1.mtxSteps ≤ p.1.chunk) then
        some (p.2.endEngine p.1)
      else none

end Sys2Proof.Machine
end

