-- ==== Sys2Proof/Machine/Carve.lean ====
section
/-! DEFINITION. CARVE (R216, R217, R238): the split of a core's array between L1 and scratch, changed by a running
workgroup. -/

namespace Sys2Proof.Machine

/-- Scratch offsets from which the ways of L1 count n take the array (R197). -/
def carveLimit (n : Nat) : Nat := (16 - n) * 32768

/-- Another workgroup is on the core of the one in focus. -/
def State.coreShared (s : State) : Bool :=
  s.gs.any fun g => decide (g.id ≠ 0) && decide (g.id ≠ s.g.id) && decide (g.die = s.g.die) && decide (g.core = s.g.core)

/-- The L1 way count that CARVE asks for (R238). -/
def carveWays (x : Word) : Nat := min (max x.toNat 2) 16

/-- CARVE (R217, R238): the warp issues nothing further until the last step is done. -/
def execCarve (f : FmtA) (x : Upper) (s : State) : Result :=
  let e := s.execSet f.cond
  if e = 0 then s.retireLong
  else if s.coreShared then .next (s.trapHere 0x0C 0 e)
  else
    let o := s.mkOp 0xF9 f x [1, 0, 0] e
    let n := carveWays (o.val32 0 0)
    let s1 := (s.addOut o [] []).advance 16
    if n = s.c.ways then .next (s1.complete o.id)
    else .next { s1 with w := { s1.w with waits := s1.w.waits ++ [{ o with aux := [n] }], carving := true } }

/-- Operations of the workgroup that issued before an operation and touch scratch from an offset on. -/
def State.scratchUsers (s : State) (id from_ : Nat) : Bool :=
  (s.warps.any fun w => w.wg == s.g.id && (w.pend ++ w.parked).any fun p =>
      decide (p.id < id) && decide (p.x.space ≠ 0) && p.touches.any fun q => decide (from_ < q.1 + q.2))
  || (s.c.copyq.any fun p => decide (p.id < id) && decide (p.wg = s.g.id)
      && (s.copyRanges p).any fun r => decide (from_ < r.1 + r.2))
  || s.c.mtxq.any fun p => decide (p.id < id) && decide (p.wg = s.g.id)
      && (s.mtxRanges p).any fun r => decide (from_ < r.1 + r.2)

/-- The lines that stay: those in ways 0 to n − 1. Which way a line has taken is the model's choice (`freeWay`, log entry 53). -/
def keptLines (n : Nat) (ls : List Line) : List Line := ls.filter fun l => decide (l.way < n)

/-- Scratch bytes from an offset on become zero. -/
def clearFrom (m : Sparse Byte) (a : Nat) : Sparse Byte := m.filter fun p => decide (p.1 < a)

/-- CARVE_APPLY (R217): the last step of a CARVE. -/
def execCarveApply (warp : Nat) (s : State) : Result :=
  orRefuse "CARVE_APPLY" <|
    (s.focus warp).bind fun s0 => (s0.w.waits.find? fun o => o.code == 0xF9).bind fun o =>
      match o.aux with
      | [n] =>
        let l := s0.c.ways
        let rest : State := { s0 with w := { s0.w with
          waits := s0.w.waits.filter fun p => p.id != o.id, carving := false } }
        -- another warp's CARVE has brought the count about meanwhile
        if n = l then some (rest.complete o.id)
        else if l < n then
          if s0.scratchUsers o.id (carveLimit n) then none
          else
            some (({ rest with
              g := { rest.g with scratch := clearFrom rest.g.scratch (carveLimit n), size := min rest.g.size (carveLimit n) }
              c := { rest.c with ways := n } } : State).complete o.id)
        else
          let kept := keptLines n rest.c.l1
          let out := rest.c.l1.filter fun x => !(kept.contains x)
          let s1 := out.foldl (fun s x => if x.dirty = 0 then s else s.l1Writeback s.c.die s.c.num x) rest
          some (({ s1 with
            g := { s1.g with scratch := clearFrom s1.g.scratch (carveLimit l), size := carveLimit n }
            c := { s1.c with l1 := kept, ways := n } } : State).complete o.id)
      | _ => none

end Sys2Proof.Machine
end

