-- ==== Sys2Proof/Machine/Rays.lean ====
section
/-! DEFINITION. The ray unit (R331 to R347, R357 to R362): exact geometry, the traversal step by step, and its words. -/

namespace Sys2Proof.Machine

/-! ### Exact ratios and geometry (R336, R337) -/

def Ratio.le (a b : Ratio) : Bool := decide (a.num * b.den ≤ b.num * a.den)
def Ratio.lt (a b : Ratio) : Bool := decide (a.num * b.den < b.num * a.den)
/-- The quotient of integers, the divisor not 0. -/
def Ratio.div (n d : Int) : Ratio := if d < 0 then { num := -n, den := d.natAbs } else { num := n, den := d.natAbs }
/-- The exact value of a ratio, for rounding. -/
def Ratio.val (q : Ratio) : FVal :=
  if q.num = 0 then .fin false 0 0 else divFin (decide (q.num < 0)) q.num.natAbs 0 false q.den 0

/-- A ratio or an infinity: `k` is −1, 0 or 1. -/
structure XRatio where
  k : Int
  q : Ratio
  deriving DecidableEq, Repr

def XRatio.le (a b : XRatio) : Bool := decide (a.k < b.k) || (decide (a.k = b.k) && (decide (a.k ≠ 0) || a.q.le b.q))
def XRatio.max (a b : XRatio) : XRatio := if a.le b then b else a
def XRatio.min (a b : XRatio) : XRatio := if a.le b then a else b
def XRatio.fin (q : Ratio) : XRatio := { k := 0, q := q }
def XRatio.val (x : XRatio) : FVal := if x.k = 0 then x.q.val else .inf (decide (x.k < 0))

/-- A finite FP32 value in units of 2^−149. -/
def units (b : Word) : Int :=
  match fval f32 b.toNat with
  | .fin s m e => onGrid s m e (-149)
  | _ => 0
/-- An FP32 value as a ratio, infinities included. -/
def xratio (b : Word) : XRatio :=
  match fval f32 b.toNat with
  | .inf s => { k := if s then -1 else 1, q := { num := 0, den := 1 } }
  | _ => .fin { num := units b, den := 2 ^ 149 }
def isFinite (b : Word) : Bool :=
  match fval f32 b.toNat with
  | .fin .. => true
  | _ => false

/-- An integer bound, or an infinity, in units. -/
def xunits (b : Word) : XRatio :=
  match fval f32 b.toNat with
  | .inf s => { k := if s then -1 else 1, q := { num := 0, den := 1 } }
  | _ => .fin { num := units b, den := 1 }

/-- (c − o) / d for a bound c that may be infinite, d not 0. -/
def crossing (c : XRatio) (o d : Int) : XRatio :=
  if c.k = 0 then .fin (Ratio.div (c.q.num - o) d)
  else { k := if d < 0 then -c.k else c.k, q := { num := 0, den := 1 } }

/-- slab (R336): the entry and exit distances where the test passes. -/
def slab (os ds : List Int) (t0 t1 : XRatio) (los his : List XRatio) : Option (XRatio × XRatio) :=
  let r := (List.range 3).foldl (fun (b : Option (XRatio × XRatio)) a =>
    b.bind fun (te, tx) =>
      let o := (os[a]?).getD 0
      let d := (ds[a]?).getD 0
      let z : XRatio := .fin { num := 0, den := 1 }
      let lo := (los[a]?).getD z
      let hi := (his[a]?).getD z
      if d = 0 then
        let oo : XRatio := .fin { num := o, den := 1 }
        if lo.le oo && oo.le hi then some (te, tx) else none
      else
        let p := crossing lo o d
        let q := crossing hi o d
        some (te.max (p.min q), tx.min (p.max q))) (some (t0, t1))
  match r with
  | some (te, tx) => if te.le tx then some (te, tx) else none
  | none => none

abbrev V3 := Int × Int × Int
def V3.sub (a b : V3) : V3 := (a.1 - b.1, a.2.1 - b.2.1, a.2.2 - b.2.2)
def V3.cross (a b : V3) : V3 :=
  (a.2.1 * b.2.2 - a.2.2 * b.2.1, a.2.2 * b.1 - a.1 * b.2.2, a.1 * b.2.1 - a.2.1 * b.1)
def V3.dot (a b : V3) : Int := a.1 * b.1 + a.2.1 * b.2.1 + a.2.2 * b.2.2
def v3At (ws : List Word) (i : Nat) : V3 := (units (nth0 ws i), units (nth0 ws (i + 1)), units (nth0 ws (i + 2)))

/-- A triangle met (R337): t, u, v and whether the face is front. -/
structure TriTest where
  t : Ratio
  u : Ratio
  v : Ratio
  front : Bool
  deriving DecidableEq, Repr

/-- The triangle test (R337), on the exact values. -/
def triTest (o d : V3) (ws : List Word) : Option TriTest :=
  let v0 := v3At ws 0
  let e1 := (v3At ws 3).sub v0
  let e2 := (v3At ws 6).sub v0
  let s := o.sub v0
  let nd : V3 := (-d.1, -d.2.1, -d.2.2)
  let n := e1.cross e2
  let det := nd.dot n
  if det = 0 then none
  else
    let t := Ratio.div (s.dot n) det
    let u := Ratio.div (nd.dot (s.cross e2)) det
    let v := Ratio.div (nd.dot (e1.cross s)) det
    let zero : Ratio := { num := 0, den := 1 }
    let sum : Ratio := Ratio.div (nd.dot (s.cross e2) + nd.dot (e1.cross s)) det
    if zero.le u && zero.le v && sum.le { num := 1, den := 1 } then
      some { t := t, u := u, v := v, front := decide (n.dot d < 0) }
    else none

/-- One component of xf (R338): a sum of products formed exactly and rounded once; a sum that is exactly zero is −0 where
every term is negative (R70). -/
def xfRow (m : List Word) (x : List Word) (pt : Bool) : Word :=
  let one : FVal := .fin false 1 0
  let ps := ((List.range 3).map fun c => mulV (fval f32 (nth0 m c).toNat) (fval f32 (nth0 x c).toNat))
    ++ [mulV (fval f32 (nth0 m 3).toNat) (if pt then one else .fin false 0 0)]
  let infs := ps.filter fun p => p.1.isInf
  let bits :=
    if ps.any fun p => decide (p.1 = .nan) then f32.nan
    else
      match infs with
      | p :: _ => if infs.all fun q => q.1.isNeg == p.1.isNeg then (FRes.inf f32 p.1.isNeg).bits else f32.nan
      | [] =>
        let sum : Int := (ps.map fun p => match p.1 with
          | .fin s m e => onGrid s m e (-298)
          | _ => (0 : Int)).sum
        (roundF f32 .rne false (decide (sum < 0) || (decide (sum = 0) && ps.all fun p => p.1.isNeg)) sum.natAbs (-298)).bits
  BitVec.ofNat 32 bits

/-- xf of a vector by the 3 × 4 matrix whose words are given (R338). -/
def xfVec (m x : List Word) (pt : Bool) : List Word := (List.range 3).map fun r => xfRow (m.drop (4 * r)) x pt

/-! ### Records (R332 to R335, R341) -/

def refKind (r : Word64) : Nat := (r.extractLsb' 62 2).toNat
def refCnt (r : Word64) : Nat := (r.extractLsb' 56 4).toNat
def refAddr (r : Word64) : Nat := (r.extractLsb' 0 56).toNat

/-- Reasons of a reference (R341). DESIGN CHOICE (log entry 57): a count that is not 0 in a reference to a box node or an instance,
to which R332 gives 0 and R341 no reason, is ignored. -/
def refReasons (r : Word64) : List Nat :=
  when (decide (refKind r = 3) || decide ((r.extractLsb' 60 2).toNat ≠ 0)) 0x01
    ++ when ((decide (refKind r = 0) && decide (refAddr r % 128 ≠ 0)) || (decide (refKind r = 1) && decide (refAddr r % 16 ≠ 0))
        || (decide (refKind r = 2) && decide (refAddr r % 64 ≠ 0))) 0x02

/-- Word i of a record's bytes. -/
def wordAt (bs : List Byte) (i : Nat) : Word := BitVec.ofNat 32 (leNat ((bs.drop (4 * i)).take 4))
def wordsOf (bs : List Byte) (n : Nat) : List Word := (List.range n).map (wordAt bs)
def byteAt (bs : List Byte) (i : Nat) : Nat := ((bs[i]?).getD 0).toNat

/-- A box node (R333): its fields by child. -/
def boxValid (bs : List Byte) (c : Nat) : Bool := (byteAt bs 15).testBit c
def boxQ (bs : List Byte) (c i : Nat) : Nat := byteAt bs (16 + 6 * c + i)
def boxRef (bs : List Byte) (c : Nat) : Word64 := BitVec.ofNat 64 (leNat ((bs.drop (64 + 8 * c)).take 8))

/-- Reasons of a box node, with those of the references of its valid children (R341). -/
def boxReasons (bs : List Byte) : List Nat :=
  when (decide (byteAt bs 15 = 0)) 0x07
    ++ when (!((List.range 3).all fun a => isFinite (wordAt bs a))
        || (List.range 3).any fun a => decide (byteAt bs (12 + a) = 255)) 0x03
    ++ (List.range 8).flatMap fun c =>
        if boxValid bs c then
          when ((List.range 3).any fun a => decide (boxQ bs c (3 + a) < boxQ bs c a)) 0x04 ++ refReasons (boxRef bs c)
        else []

/-- A bound of a child on an axis, in units of 2^−149 (R333). -/
def boxBound (bs : List Byte) (a q : Nat) : Int := units (wordAt bs a) + (q : Int) * 2 ^ (byteAt bs (12 + a) + 22)

/-- Reasons of a triangle record (R334, R341). -/
def triReasons (ws : List Word) : List Nat :=
  when (!((List.range 9).all fun i => isFinite (nth0 ws i))) 0x03 ++ when (decide (1 < (nth0 ws 11).toNat)) 0x06

/-- Fields of an instance record (R335). -/
def instBit (ws : List Word) (i : Nat) : Bool := (nth0 ws 15).getLsbD i
def instFO (ws : List Word) : Bool := instBit ws 0
def instFN (ws : List Word) : Bool := instBit ws 1
def instFLIP (ws : List Word) : Bool := instBit ws 2
def instCD (ws : List Word) : Bool := instBit ws 3
def instMask (ws : List Word) : Nat := (nth0 ws 14).toNat / 2 ^ 24
def instIid (ws : List Word) : Nat := (nth0 ws 14).toNat % 2 ^ 24
def instRef (ws : List Word) : Word64 := join2 (nth0 ws 12) (nth0 ws 13)

/-- Reasons of an instance record (R341). -/
def instReasons (ws : List Word) : List Nat :=
  refReasons (instRef ws)
    ++ when (!((List.range 12).all fun i => isFinite (nth0 ws i))) 0x03
    ++ when (decide (refKind (instRef ws) = 2)) 0x05
    ++ when (decide (16 ≤ (nth0 ws 15).toNat) || (instFO ws && instFN ws)) 0x06

/-! ### The ray (R338, R342) -/

/-- The ray of a traversal in world space, or in that of its instance. -/
def Trav.spaceRay (t : Trav) (inInst : Bool) : List Word × List Word :=
  let o := t.ray.take 3
  let d := (t.ray.drop 4).take 3
  if inInst then (xfVec t.idata o true, xfVec t.idata d false) else (o, d)

def flagBit (fl : Word) (i : Nat) : Bool := fl.getLsbD i
def Trav.tmin (t : Trav) : XRatio := xratio (nth0 t.ray 3)
def Trav.tmax (t : Trav) : XRatio := xratio (nth0 t.ray 7)

/-- A bad ray, flags aside (R342). -/
def badRay (ray : List Word) : Bool :=
  !([0, 1, 2, 4, 5, 6].all fun i => isFinite (nth0 ray i)) || !(isFinite (nth0 ray 3))
    || (match fval f32 (nth0 ray 7).toNat with
        | .nan => true
        | .inf s => s
        | _ => false)
/-- A bad flags word (R342). -/
def badFlags (fl : Word) : Bool := decide (2 ^ 13 ≤ fl.toNat) || (flagBit fl 10 && flagBit fl 11)

/-- The test of a triangle met earlier, in its space. -/
def Trav.testOf (t : Trav) (h : TriHit) : Option TriTest :=
  let r := ({ t with idata := h.idata } : Trav).spaceRay (h.inst.isSome)
  triTest (v3At r.1 0) (v3At r.2 0) h.data

/-- tc: the exact t of the committed hit, or tmax (R340). -/
def Trav.tc (t : Trav) : XRatio :=
  match t.hit with
  | some h => match t.testOf h with
    | some q => .fin q.t
    | none => t.tmax
  | none => t.tmax

/-! ### A step of the traversal (R340, R341) -/

/-- What a step of a traversal comes to. -/
inductive TravOut where
  /-- It goes on. -/
  | go (t : Trav)
  /-- It has ended. -/
  | done (t : Trav)
  /-- It has met a non-opaque candidate. -/
  | pause (t : Trav)
  /-- It has met a malformed item. -/
  | malformed (reason : Nat)
  /-- A read faults. -/
  | fault (e : EFault)
  /-- A read must wait. -/
  | wait
  deriving DecidableEq, Repr

/-- Stands in the place of a fault's kind where a read meets an uncorrectable error: location and address follow (R467). -/
def badRead : Nat := 0xFF

/-- The bytes of a record, read for an operation: the machine with what the read leaves in it (R344, R345). -/
def State.readRecord (s : State) (o : Op) (va n : Nat) : State × Option (Except EFault (List Byte)) :=
  let pages := pagesOf va n
  match (s.owner va), (s.owner (va + n - 1)) with
  | none, _ => (s, some (.error (1, 1, va)))
  | _, none => (s, some (.error (1, 1, va + n - 1)))
  | some _, some _ =>
    if (pages.any fun p => s.heldAt p .read) || s.warpFirst o va n then (s, none)
    else
      let q := checkPieces s .read pages
      match q.2 with
      | none => (s, none)
      | some (.error e) => (q.1, some (.error e))
      | some (.ok xs) =>
        match q.1.engineBad xs va n with
        | some (l, a) => (q.1, some (.error (badRead, l, a)))
        | none => (q.1.engineFill xs va n o.x.evp.toNat, some (.ok (q.1.engineRead o.kept xs va n)))

/-- The lowest of a list of reasons, or the step that follows. DESIGN CHOICE (log entry 57): where one item breaks several
rows of R341, which has no order, the lowest reason is reported. -/
def orMalformed (rs : List Nat) (x : TravOut) : TravOut :=
  match lowestReason rs with
  | some r => .malformed r
  | none => x

/-- The entry distance of child c of a box node, up to a distance, where the ray passes it (R336). -/
def Trav.childEntry (t : Trav) (inInst : Bool) (bs : List Byte) (upTo : XRatio) (c : Nat) : Option Ratio :=
  let r := t.spaceRay inInst
  let os := (List.range 3).map fun a => units (nth0 r.1 a)
  let ds := (List.range 3).map fun a => units (nth0 r.2 a)
  let lo := (List.range 3).map fun a => XRatio.fin { num := boxBound bs a (boxQ bs c a), den := 1 }
  let hi := (List.range 3).map fun a => XRatio.fin { num := boxBound bs a (boxQ bs c (3 + a) + 1), den := 1 }
  (slab os ds t.tmin upTo lo hi).map fun p => p.1.q

/-- The children of a box node that pass, in ascending entry distance and index, as they come to lie on the stack. -/
def Trav.children (t : Trav) (inInst : Bool) (addr : Nat) (bs : List Byte) : List StackEnt :=
  let ents := (List.range 8).filterMap fun c =>
    if boxValid bs c then
      (t.childEntry inInst bs t.tc c).map fun q =>
        ({ ref := boxRef bs c, te := q, inInst := inInst, parent := addr, child := c } : StackEnt)
    else none
  ents.foldr (fun e es => es.takeWhile (fun x => x.te.lt e.te) ++ e :: es.dropWhile (fun x => x.te.lt e.te)) []

/-- A stack that may grow: 80 entries, or 16 with no spill area (R429). -/
def pushable (spill : Bool) (st : List StackEnt) : Bool := decide (st.length ≤ (if spill then 80 else 16))

/-- Triangle `t.tri` of the leaf in progress: opacity (R339), culling, commitment or a pause (R340). -/
def Trav.triangle (t : Trav) (ref : Word64) (inInst : Bool) (ws : List Word) : TravOut :=
  let i := t.tri
  let next : Trav := { t with tri := i + 1 }
  let h : TriHit := { tri := refAddr ref + 48 * i, data := ws, inst := if inInst then some t.inst else none,
                      idata := if inInst then t.idata else [] }
  orMalformed (triReasons ws) <|
    match t.testOf h with
    | none => .go next
    | some q =>
      let front := q.front != (inInst && instFLIP t.idata)
      let culled := !(inInst && instCD t.idata) && ((flagBit t.flags 8 && !front) || (flagBit t.flags 9 && front))
      let x := XRatio.fin q.t
      if culled || !(t.tmin.le x) || !(x.le t.tc) || (t.hit.isSome && t.tc.le x) then .go next
      else
        let opaque_ :=
          if flagBit t.flags 10 || flagBit t.flags 11 then flagBit t.flags 10
          else if inInst && (instFO t.idata || instFN t.idata) then instFO t.idata
          else (nth0 ws 11).getLsbD 0
        if opaque_ then
          (if flagBit t.flags 12 then .done { next with hit := some h } else .go { next with hit := some h })
        else .pause { next with cand := some h }

/-- The context is to be pre-empted, and the traversal has made its 4,096 box visits since the request (R347). -/
def State.rayStops (s : State) (t : Trav) : Bool :=
  decide (4096 ≤ t.since) && s.ctx.any fun k => k.preempt

/-- A step of the traversal of one lane; a traversal that stops for pre-emption does so at a node boundary (R347). -/
def State.travStep (s : State) (o : Op) (spill : Bool) (t : Trav) : State × TravOut :=
  match t.leaf with
  | some (ref, inInst) =>
    if refCnt ref < t.tri then (s, .go { t with leaf := none })
    else
      let r := s.readRecord o (refAddr ref + 48 * t.tri) 48
      match r.2 with
      | none => (s, .wait)
      | some (.error e) => (r.1, .fault e)
      | some (.ok bs) => (r.1, t.triangle ref inInst (wordsOf bs 12))
  | none =>
    match t.stack with
    | [] => (s, .done t)
    | e :: es =>
      if s.rayStops t then (s, .wait)
      else if !((XRatio.fin e.te).le t.tc) then (s, .go { t with stack := es })
      else if !(refReasons e.ref).isEmpty then (s, orMalformed (refReasons e.ref) .wait)
      else if refKind e.ref = 1 then (s, .go { t with stack := es, leaf := some (e.ref, e.inInst), tri := 0 })
      else if refKind e.ref = 2 ∧ e.inInst then (s, .malformed 0x05)
      else if refKind e.ref = 0 then
        let r := s.readRecord o (refAddr e.ref) 128
        match r.2 with
        | none => (s, .wait)
        | some (.error x) => (r.1, .fault x)
        | some (.ok bs) =>
          let st := t.children e.inInst (refAddr e.ref) bs ++ es
          (r.1, orMalformed (boxReasons bs)
            (if pushable spill st then .go { t with stack := st, visits := t.visits + 1, since := t.since + 1 } else .malformed 0x08))
      else
        let r := s.readRecord o (refAddr e.ref) 64
        match r.2 with
        | none => (s, .wait)
        | some (.error x) => (r.1, .fault x)
        | some (.ok bs) =>
          let ws := wordsOf bs 16
          let t1 : Trav := { t with stack := es, inst := refAddr e.ref, idata := ws }
          let q := t1.spaceRay true
          let st : List StackEnt := { ref := instRef ws, te := t.tmin.q, inInst := true } :: es
          (r.1, orMalformed (instReasons ws)
            (if instMask ws &&& t.flags.toNat % 256 = 0 then .go { t with stack := es }
             else if !((q.1 ++ q.2).all isFinite) || (q.2.all fun x => decide (units x = 0)) then .go { t with stack := es }
             else if pushable spill st then .go { t1 with stack := st } else .malformed 0x08))

/-- A traversal runs on until it ends, pauses, faults or must wait, or its steps run out. -/
def State.travRun (s : State) (o : Op) (spill : Bool) : Nat → Trav → State × TravOut × Trav
  | 0, t => (s, .wait, t)
  | n + 1, t =>
    match s.travStep o spill t with
    | (s1, .go t1) => s1.travRun o spill n t1
    | (s1, .done t1) => (s1, .done t1, t1)
    | (s1, .pause t1) => (s1, .pause t1, t1)
    | (s1, x) => (s1, x, t)

/-! ### Results (R343) -/

def rnd32 (v : FVal) : Word := BitVec.ofNat 32 (roundV f32 .rne false v).bits

/-- SEQ after it increases (R331, R340). -/
def nextSeq (q : Nat) : Nat := if q = 0xFFFFFFFF then 1 else q + 1

/-- The eight registers for a hit or a candidate. -/
def Trav.report (t : Trav) (stat : Nat) (h : TriHit) : List Word :=
  match t.testOf h with
  | some q =>
    let front := q.front != (h.inst.isSome && instFLIP h.idata)
    [BitVec.ofNat 32 (stat * 2 ^ 28 + (if front then 2 ^ 27 else 0) + (if h.inst.isSome then 2 ^ 26 else 0)),
     rnd32 q.t.val, rnd32 q.u.val, rnd32 q.v.val, nth0 h.data 9,
     if h.inst.isSome then BitVec.ofNat 32 (instIid h.idata) else 0xFFFFFFFF, nth0 h.data 10, BitVec.ofNat 32 t.seq]
  | none => List.replicate 8 0

/-- The registers at the end of a traversal. -/
def Trav.final (t : Trav) : List Word :=
  match t.hit with
  | some h => t.report 1 h
  | none => [0, nth0 t.ray 7, 0, 0, 0, 0, 0, 0]

/-- A status alone. -/
def statOnly (stat reason : Nat) : List Word := BitVec.ofNat 32 (stat * 2 ^ 28 + reason) :: List.replicate 7 0

/-- The resume point, or an entry of the stack, lies in the space of an instance (R475). -/
def Trav.inside (t : Trav) : Bool := (t.stack.any (·.inInst)) || t.leaf.any (·.2)

/-- A traversal reloaded from its image (R347, R475): the records that it needs are read again, and every entry distance is
formed from them, as tc is from the committed triangle; what cannot be read stays as it was. -/
def Trav.reload (rd : Nat → Nat → Option (List Byte)) (t : Trav) : Trav :=
  let words (a n : Nat) (old : List Word) : List Word := ((rd a (4 * n)).map fun bs => wordsOf bs n).getD old
  let hit (h : TriHit) : TriHit :=
    { h with data := words h.tri 12 h.data, idata := match h.inst with
        | some i => words i 16 h.idata
        | none => h.idata }
  let t1 : Trav := { t with hit := t.hit.map hit, cand := t.cand.map hit, idata := if t.inside then words t.inst 16 t.idata else t.idata }
  let far : XRatio := { k := 1, q := { num := 0, den := 1 } }
  { t1 with stack := t1.stack.map fun e =>
      if e.parent = 0 then { e with te := t1.tmin.q }
      else { e with te := ((rd e.parent 128).bind fun bs => t1.childEntry e.inInst bs far e.child).getD e.te } }

/-- The traversal record of a lane, and a lane's registers written. -/
def State.trav (s : State) (l : Nat) : Trav := s.w.trav.get {} l
def State.setTrav (s : State) (l : Nat) (t : Trav) : State := { s with w := { s.w with trav := s.w.trav.set {} l t } }
def oneLane (l : Nat) : LaneMask := (1 : LaneMask) <<< l
def State.putLane (s : State) (r l : Nat) (ws : List Word) : State := s.setRegs r (oneLane l) (fun _ => ws) ws.length

/-- A lane of an operation is complete. -/
def Op.laneDone (o : Op) (l : Nat) : Op := { o with pcm := o.pcm ||| oneLane l }

/-- What an operation's lanes have come to: the machine, the operation, and the faults of its lanes. -/
structure LaneRun where
  s  : State
  o  : Op
  fs : List LaneFault := []

/-- What a traversal's stop does for its lane: its registers, its record, or its fault (R343, R345). -/
def State.travStop (s : State) (o : Op) (l : Nat) (x : TravOut) (t : Trav) : LaneRun :=
  let r := o.f.dst.toNat
  match x with
  | .done _ =>
    { s := (s.setTrav l { t with st := 3, leaf := none, stack := [], cand := none }).putLane r l t.final, o := o.laneDone l }
  | .pause _ =>
    let t1 : Trav := { t with st := 2, seq := nextSeq t.seq }
    let ws := match t1.cand with
      | some h => t1.report 2 h
      | none => []
    { s := (s.setTrav l t1).putLane r l ws, o := o.laneDone l }
  | .malformed reason => { s := (s.setTrav l { seq := t.seq }).putLane r l (statOnly 4 reason), o := o.laneDone l }
  | .fault e => { s := s.setTrav l t, o := o, fs := [{ lane := l, kind := e.1, st := e.2.1, va := e.2.2 }] }
  | _ => { s := s.setTrav l t, o := o }

/-- The launch names a spill area. -/
def State.spills (s : State) : Bool := decide (lrField s.g.lrec 1664 64 ≠ 0)

/-- Steps that a traversal takes in one event. -/
def travFuel : Nat := 8192

/-- A lane's traversal runs. -/
def State.travGo (s : State) (o : Op) (l : Nat) (t : Trav) : LaneRun :=
  let r := s.travRun o s.spills travFuel { t with st := 1 }
  r.1.travStop o l r.2.1 r.2.2

/-- The lanes that an operation has begun on; `aux` holds them (R345). -/
def Op.begun (o : Op) (l : Nat) : Bool := ((o.aux[0]?).getD 0).testBit l
def Op.begin (o : Op) (l : Nat) : Op :=
  { o with aux := [(BitVec.ofNat 32 ((o.aux[0]?).getD 0) ||| oneLane l).toNat] }

/-- One lane of TRACE or TRACE.OCC (R340, R342, R357). -/
def State.traceLane (s : State) (o : Op) (l : Nat) : LaneRun :=
  let t := s.trav l
  if o.begun l then
    if t.st = 1 then s.travGo o l t else { s := s.putLane o.f.dst.toNat l (statOnly 5 0), o := o.laneDone l }
  else
    let ray := (List.range 8).map fun i => o.reg 0 i l
    let fl0 := o.val32 1 l
    let fl := if o.code = 0x162 then fl0 ||| 0x1000 else fl0
    let root := join2 (o.reg 2 0 l) (o.reg 2 1 l)
    let seq := nextSeq t.seq
    let o1 := o.begin l
    if badRay ray || badFlags fl0 then
      { s := (s.setTrav l { seq := seq }).putLane o.f.dst.toNat l (statOnly 3 0), o := o1.laneDone l }
    else
      let t0 : Trav := { seq := seq, st := 1, ray := ray, flags := fl, root := root }
      if ([4, 5, 6].all fun i => decide (units (nth0 ray i) = 0)) || !(t0.tmin.le t0.tmax) then
        s.travStop o1 l (.done t0) t0
      else s.travGo o1 l { t0 with stack := [{ ref := root, te := t0.tmin.q, inInst := false }] }

/-- One lane of TRACE.CONT (R358). -/
def State.contLane (s : State) (o : Op) (l : Nat) : LaneRun :=
  let t := s.trav l
  if o.begun l then
    if t.st = 1 then s.travGo o l t else { s := s.putLane o.f.dst.toNat l (statOnly 5 0), o := o.laneDone l }
  else
    let o1 := o.begin l
    if (o.val32 0 l).toNat ≠ t.seq ∨ t.st ≠ 2 then
      { s := s.putLane o.f.dst.toNat l (statOnly 5 0), o := o1.laneDone l }
    else
      let d := (o.val32 1 l).toNat % 4
      let t1 : Trav := if d = 1 ∨ d = 2 then { t with hit := t.cand } else t
      let t2 : Trav := { t1 with cand := none, st := 1 }
      if d = 2 ∨ d = 3 ∨ (d = 1 ∧ flagBit t.flags 12 = true) then s.travStop o1 l (.done t2) t2
      else s.travGo o1 l t2

/-- A token is current (R331). -/
def Trav.current (t : Trav) (tok : Word) : Bool := decide (tok.toNat = t.seq) && (decide (t.st = 2) || decide (t.st = 3))

/-- RAYQ's values (R360). -/
def Trav.query (t : Trav) (tok : Word) (mode : Nat) : List Word :=
  let h := if t.st = 2 then t.cand else t.hit
  match t.current tok, h with
  | true, some h =>
    let r := ({ t with idata := h.idata } : Trav).spaceRay (h.inst.isSome)
    if mode = 0 then r.1 ++ [nth0 t.ray 3]
    else if mode = 1 then
      -- with no committed hit tc is tmax, whose sign stays where it is a zero
      r.2 ++ [if t.hit.isNone then nth0 t.ray 7 else BitVec.ofNat 32 (roundV f32 .rne false t.tc.val).bits]
    else if mode ≤ 4 then (List.range 3).map (fun a => nth0 h.data (3 * (mode - 2) + a)) ++ [0]
    else if h.inst.isNone then List.replicate 4 0
    else (List.range 4).map fun c => nth0 h.idata (4 * (mode - 5) + c)
  | _, _ => List.replicate 4 0

/-- A distance rounded (R361). One that is zero is the ray's bound, with its sign, where the bound is a zero. DESIGN CHOICE (log
entry 57): elsewhere a zero, the exact quotient of R336, is +0 in every rounding mode. -/
def clipBits (rm : Rm) (bound : Word) (x : XRatio) : Word :=
  if decide (x.k = 0) && decide (x.q.num = 0) && isFinite bound && decide (units bound = 0) then bound
  else BitVec.ofNat 32 (roundV f32 rm false x.val).bits

/-- RAYC's values (R361). -/
def rayClip (ray box : List Word) : List Word :=
  let nan : Word := 0x7FC00000
  if badRay ray || (List.range 6).any fun i => isNan f32 (nth0 box i).toNat then [nan, nan]
  else
    let t0 := xratio (nth0 ray 3)
    let t1 := xratio (nth0 ray 7)
    let los := (List.range 3).map fun a => xunits (nth0 box a)
    let his := (List.range 3).map fun a => xunits (nth0 box (3 + a))
    let inv := (List.range 3).any fun a => !((xunits (nth0 box a)).le (xunits (nth0 box (3 + a))))
    match slab ([0, 1, 2].map fun i => units (nth0 ray i)) ([4, 5, 6].map fun i => units (nth0 ray i)) t0 t1 los his, inv with
    | some (te, tx), false =>
      [clipBits .rdn (nth0 ray 3) te, clipBits .rup (nth0 ray 7) tx]
    | _, _ => [0x7F800000, 0xFF800000]

end Sys2Proof.Machine
end

