-- ==== Sys2Proof/Machine/Light.lean ====
section
/-! DEFINITION. Light trees, counter-based numbers and Sobol points (R348 to R354, R363 to R366), and the words and the
event of the ray unit (R346, R355 to R366). -/

namespace Sys2Proof.Machine

/-! ### Random numbers (R350, R351) -/

structure Philox where
  c0 : Nat
  c1 : Nat
  c2 : Nat
  c3 : Nat
  k0 : Nat
  k1 : Nat
  deriving DecidableEq, Repr

/-- A round and the bump of the key. -/
def Philox.round (p : Philox) : Philox :=
  let p0 := 0xD2511F53 * p.c0
  let p1 := 0xCD9E8D57 * p.c2
  { c0 := (p1 / 2 ^ 32) ^^^ p.c1 ^^^ p.k0, c1 := p1 % 2 ^ 32, c2 := (p0 / 2 ^ 32) ^^^ p.c3 ^^^ p.k1, c3 := p0 % 2 ^ 32,
    k0 := (p.k0 + 0x9E3779B9) % 2 ^ 32, k1 := (p.k1 + 0xBB67AE85) % 2 ^ 32 }

def Philox.rounds (p : Philox) : Nat → Philox
  | 0 => p
  | n + 1 => p.round.rounds n

/-- philox(key, ctr): word j of the output (R350). -/
def philox (key ctr : Nat) (j : Nat) : Nat :=
  let p := ({ c0 := ctr % 2 ^ 32, c1 := ctr / 2 ^ 32 % 2 ^ 32, c2 := 0, c3 := 0,
              k0 := key % 2 ^ 32, k1 := key / 2 ^ 32 % 2 ^ 32 } : Philox).rounds 10
  ([p.c0, p.c1, p.c2, p.c3][j % 4]?).getD 0

/-- rnd24 (R351). -/
def rnd24 (key ctr j : Nat) : Nat := philox key ((ctr + j / 4) % 2 ^ 64) (j % 4) / 256

/-- unit (R351). -/
def unitOf (w : Nat) : Word := BitVec.ofNat 32 (roundF f32 .rne false false (w % 2 ^ 32 / 256) (-24)).bits

/-! ### Sobol points (R352 to R354) -/

/-- The direction numbers of a dimension from 1 up, lowest first (R352). -/
def sobolV (d : Nat) : List Nat :=
  let s := if d = 1 then 1 else Config.joeKuoS d
  let a := if d = 1 then 0 else Config.joeKuoA d
  let m (i : Nat) : Nat := if d = 1 then 1 else Config.joeKuoM d i
  (List.range 32).foldl (fun vs b =>
    let at_ (i : Nat) : Nat := (vs[i]?).getD 0
    vs ++ [if b < s then m (b + 1) * 2 ^ (31 - b) % 2 ^ 32
           else
             (List.range (s - 1)).foldl (fun x k =>
               if a.testBit (s - 1 - (k + 1)) then x ^^^ at_ (b - (k + 1)) else x) (at_ (b - s) ^^^ (at_ (b - s) / 2 ^ s))]) []

/-- sobol_raw (R352). -/
def sobolRaw (i d : Nat) : Nat :=
  let v (b : Nat) : Nat := if d = 0 then 2 ^ (31 - b) else ((sobolV d)[b]?).getD 0
  (List.range 32).foldl (fun x b => if i.testBit b then x ^^^ v b else x) 0

/-- nest (R353). -/
def nest (y s : Nat) : Nat :=
  let m := 2 ^ 32
  let y1 := (y + s) % m
  let y2 := y1 ^^^ (y1 * 2 ^ 6 % m)
  let y3 := (y2 + y2 * 8) % m
  let y4 := y3 ^^^ (y3 * 2 ^ 11 % m)
  let y5 := (y4 + s * 2) % m
  y5 ^^^ (y5 * 2 ^ 15 % m)

/-- owen (R353). -/
def owen (x s : Nat) : Nat := brev (nest (brev x) s)

/-- sobol (R354). -/
def sobol (px i d seed : Nat) : Nat :=
  let key := seed + px * 2 ^ 32
  owen (sobolRaw (owen i (philox key d 0)) d) (philox key d 1)

/-! ### Light trees (R348, R349, R363, R364) -/

/-- A node's words (R348): centre, radius, power, LI, RI, leaf. -/
def nodeBad (ws : List Word) : Bool :=
  let leaf := (nth0 ws 7).getLsbD 0
  let pos (w : Word) : Bool := isFinite w && !(w.getLsbD 31)
  !((List.range 3).all fun i => isFinite (nth0 ws i)) || !(pos (nth0 ws 3)) || !(pos (nth0 ws 4))
    || decide (2 ≤ (nth0 ws 7).toNat)
    || (if leaf then decide (nth0 ws 6 ≠ 0) else decide (nth0 ws 5 = 0) || decide (nth0 ws 6 = 0))

/-- imp (R349): the encoding of the importance. -/
def importance (ws p : List Word) : Nat :=
  let sq (a : Nat) : Int := (units (nth0 ws a) - units (nth0 p a)) * (units (nth0 ws a) - units (nth0 p a))
  let d2 := (roundF f32 .rne false false (sq 0 + sq 1 + sq 2).natAbs (-298)).bits
  let r2 := (fMul f32 .rne (nth0 ws 3).toNat (nth0 ws 3).toNat).bits
  let mx := max d2 r2
  let den := if mx = 0 then 0x00800000 else mx
  match fval f32 (nth0 ws 4).toNat, fval f32 den with
  | .fin _ pm pe, .fin _ dm de =>
    if pm = 0 then 0 else (roundV f32 .rne true (divFin false pm pe false dm de)).bits
  | _, _ => 0

/-- split (R349), of two importances by encoding. -/
def splitOf (wa wb : Nat) : Nat :=
  let a := (units (BitVec.ofNat 32 wa)).natAbs
  let b := (units (BitVec.ofNat 32 wb)).natAbs
  if a = 0 ∧ b = 0 then 2 ^ 23
  else
    let n := a * 2 ^ 24
    let q := n / (a + b)
    let r := n % (a + b)
    let thr := if 2 * r < a + b then q else if a + b < 2 * r then q + 1 else if q % 2 = 0 then q else q + 1
    let t1 := if 0 < a then max thr 1 else thr
    if 0 < b then min t1 (2 ^ 24 - 1) else t1

/-- How a walk stands. -/
structure LWalk where
  n    : Nat := 0
  p    : Nat := 1
  path : Nat := 0
  k    : Nat := 0
  deriving DecidableEq, Repr

/-- The quad of a walk (R363). -/
def LWalk.quad (w : LWalk) (stat light : Nat) : List Word :=
  [if stat = 0 then BitVec.ofNat 32 light else 0xFFFFFFFF,
   if stat = 0 then BitVec.ofNat 32 (roundF f32 .rne false false w.p (-(24 * w.k : Nat))).bits else 0,
   BitVec.ofNat 32 w.path, BitVec.ofNat 32 (stat * 2 ^ 24 + w.k)]

/-- Node i of the tree at a base. -/
def State.lightNode (s : State) (o : Op) (base i : Nat) : State × Option (Except EFault (List Word)) :=
  let r := s.readRecord o ((base + 32 * i) % 2 ^ 64) 32
  (r.1, r.2.map fun x => x.map fun bs => wordsOf bs 8)

/-- LTWALK from a node on, `pick` choosing the child (R363); with `depth` LTPDF's walk of exactly that many levels, whose path
is its operand (R364). -/
def State.lightWalk (s : State) (o : Op) (base : Nat) (p : List Word) (pick : Nat → Nat → Bool) (depth : Option Nat) :
    Nat → LWalk → State × Option (Except EFault (List Word))
  | 0, w => (s, some (.ok (w.quad 3 0)))
  | fuel + 1, w =>
    let r := s.lightNode o base w.n
    match r.2 with
    | none => (s, none)
    | some (.error e) => (r.1, some (.error e))
    | some (.ok ws) =>
      let leaf := (nth0 ws 7).getLsbD 0
      if nodeBad ws then (r.1, some (.ok (w.quad 2 0)))
      else if leaf then
        (r.1, some (.ok (w.quad (match depth with
          | some d => if w.k = d then 0 else 5
          | none => 0) (nth0 ws 5).toNat)))
      else if depth = some w.k then (r.1, some (.ok (w.quad 5 0)))
      else if w.k = 32 then (r.1, some (.ok (w.quad 3 0)))
      else
        let a := r.1.lightNode o base (nth0 ws 5).toNat
        match a.2 with
        | none => (s, none)
        | some (.error e) => (a.1, some (.error e))
        | some (.ok wa) =>
          if nodeBad wa then (a.1, some (.ok (w.quad 2 0)))
          else
            let b := a.1.lightNode o base (nth0 ws 6).toNat
            match b.2 with
            | none => (s, none)
            | some (.error e) => (b.1, some (.error e))
            | some (.ok wb) =>
              if nodeBad wb then (b.1, some (.ok (w.quad 2 0)))
              else
                let thr := splitOf (importance wa p) (importance wb p)
                let path := if depth.isSome then w.path else w.path + 2 ^ w.k
                b.1.lightWalk o base p pick depth fuel
                  (if pick w.k thr then { n := (nth0 ws 5).toNat, p := w.p * thr, path := w.path, k := w.k + 1 }
                   else { n := (nth0 ws 6).toNat, p := w.p * (2 ^ 24 - thr), path := path, k := w.k + 1 })

/-- The result of a light word for lane l (R363, R364). -/
def State.lightLane (s : State) (o : Op) (l : Nat) : State × Option (Except EFault (List Word)) :=
  let p := (List.range 3).map fun i => o.reg 0 i l
  let base := (join2 (o.reg 2 0 l) (o.reg 2 1 l)).toNat
  let w : LWalk := if o.code = 0x168 then { path := (o.reg 1 0 l).toNat } else {}
  let depth := (o.reg 1 1 l).toNat % 64
  if !(p.all isFinite) then (s, some (.ok (w.quad 1 0)))
  else if base % 32 ≠ 0 then (s, some (.ok (w.quad 2 0)))
  else if o.code = 0x168 then
    if 32 < depth then (s, some (.ok (w.quad 3 0)))
    else
      let path := w.path
      s.lightWalk o base p (fun k _ => !(path.testBit k)) (some depth) 34 w
  else
    let key := (join2 (o.reg 2 2 l) (o.reg 2 3 l)).toNat
    let ctr := (join2 (o.reg 1 0 l) (o.reg 1 1 l)).toNat
    s.lightWalk o base p (fun k thr => decide (rnd24 key ctr k < thr)) none 34 {}

/-! ### Words without a traversal -/

/-- MODE of the class (R355). -/
def rayMode (x : Upper) : Nat := x.ext.toNat % 8

/-- SOBOL's values (R365). -/
def sobolWords (mode px i d seed : Nat) : List Word :=
  let one (d : Nat) : Word :=
    let v := if mode / 2 % 2 = 1 then sobolRaw i d else sobol px i d seed
    if mode % 2 = 1 then unitOf v else BitVec.ofNat 32 v
  if 4 ≤ mode then (List.range 4).map fun k => one ((d + k) % 256) else [one d]

/-- RND's and RNDF's values (R366). -/
def rndWords (float : Bool) (mode key ctr : Nat) : List Word :=
  let one (j : Nat) : Word := if float then unitOf (philox key ctr j) else BitVec.ofNat 32 (philox key ctr j)
  if mode = 4 then (List.range 4).map one else [one mode]

/-- The registers that a lane of a word without a traversal or a walk writes. -/
def State.rayPlain (s : State) (o : Op) (l : Nat) : List Word :=
  let m := rayMode o.x
  if o.code = 0x164 then (s.trav l).query (o.val32 0 l) m
  else if o.code = 0x165 then
    rayClip ((List.range 8).map fun i => o.reg 0 i l) ((List.range 6).map fun i => o.reg 1 i l)
  else if o.code = 0x166 then
    xfVec ((List.range 12).map fun i => o.reg 1 i l) ((List.range 3).map fun i => o.reg 0 i l) (decide (m = 0))
  else if o.code = 0x169 then
    sobolWords m (o.val32 0 l).toNat (o.val32 1 l).toNat ((o.reg 2 1 l).toNat % 256) (o.reg 2 0 l).toNat
  else rndWords (decide (o.code = 0x16B)) m (o.val64 2 l).toNat (o.val64 0 l).toNat

/-- One lane of an operation of the ray unit. -/
def State.rayLane (s : State) (o : Op) (l : Nat) : LaneRun :=
  if o.code = 0x160 ∨ o.code = 0x162 then s.traceLane o l
  else if o.code = 0x161 then s.contLane o l
  else if o.code = 0x163 then
    { s := if (s.trav l).current (o.val32 0 l) then s.setTrav l { seq := (s.trav l).seq } else s, o := o.laneDone l }
  else if o.code = 0x167 ∨ o.code = 0x168 then
    let r := s.lightLane o l
    match r.2 with
    | none => { s := s, o := o }
    | some (.error e) => { s := r.1, o := o, fs := [{ lane := l, kind := e.1, st := e.2.1, va := e.2.2 }] }
    | some (.ok ws) => { s := r.1.putLane o.f.dst.toNat l ws, o := o.laneDone l }
  else { s := s.putLane o.f.dst.toNat l (s.rayPlain o l), o := o.laneDone l }

/-! ### Words (R346, R355 to R366) -/

/-- A word of the class issues. -/
def State.rayWord (s : State) (code : Nat) (f : FmtA) (x : Upper) (wid : List Nat) (log : Bool) (n : Nat) : Result :=
  let e := s.execSet f.cond
  if e = 0 then s.retireLong
  else
    s.engineIssue .ray { s.mkOp code f x wid e with cls := some .ray } log false 0 none 0 none [] (regs f.dst n)
      fun o s => s.enqueue .ray o

/-- TRACE (R357). -/
def execTrace (f : FmtA) (x : Upper) (s : State) : Result := s.rayWord 0x160 f x [8, 1, 2] true 8
/-- TRACE.CONT (R358). -/
def execTraceCont (f : FmtA) (x : Upper) (s : State) : Result := s.rayWord 0x161 f x [1, 1, 0] true 8
/-- TRACE.OCC (R357). -/
def execTraceOcc (f : FmtA) (x : Upper) (s : State) : Result := s.rayWord 0x162 f x [8, 1, 2] true 8
/-- TRACE.END (R359). -/
def execTraceEnd (f : FmtA) (x : Upper) (s : State) : Result := s.rayWord 0x163 f x [1, 0, 0] true 0
/-- RAYQ (R360). -/
def execRayq (f : FmtA) (x : Upper) (s : State) : Result := s.rayWord 0x164 f x [1, 0, 0] true 4
/-- RAYC (R361). -/
def execRayc (f : FmtA) (x : Upper) (s : State) : Result := s.rayWord 0x165 f x [8, 6, 0] true 2
/-- RAYXF (R362). -/
def execRayxf (f : FmtA) (x : Upper) (s : State) : Result := s.rayWord 0x166 f x [3, 12, 0] true 3
/-- LTWALK (R363). -/
def execLtwalk (f : FmtA) (x : Upper) (s : State) : Result := s.rayWord 0x167 f x [3, 2, 4] true 4
/-- LTPDF (R364). -/
def execLtpdf (f : FmtA) (x : Upper) (s : State) : Result := s.rayWord 0x168 f x [3, 2, 2] true 4
/-- SOBOL (R365). -/
def execSobol (f : FmtA) (x : Upper) (s : State) : Result :=
  s.rayWord 0x169 f x [1, 1, 2] false (if 4 ≤ rayMode x then 4 else 1)
/-- RND (R366). -/
def execRnd (f : FmtA) (x : Upper) (s : State) : Result := s.rayWord 0x16A f x [2, 0, 2] false (if rayMode x = 4 then 4 else 1)
/-- RNDF (R366). -/
def execRndf (f : FmtA) (x : Upper) (s : State) : Result := s.rayWord 0x16B f x [2, 0, 2] false (if rayMode x = 4 then 4 else 1)

/-! ### The event (R346) -/

/-- The words that work on the traversal record of a lane: TRACE, TRACE.CONT, TRACE.OCC, TRACE.END and RAYQ. -/
def recordCode (code : Nat) : Bool := decide (0x160 ≤ code) && decide (code ≤ 0x164)

/-- Lanes of an operation whose turn has come: not complete, not parked, and, where it works on traversal records, in no earlier
such operation of the warp in the queue that has yet to complete them; a lane that is parked in an earlier one holds nothing back
(R345), and the other words wait for none (R347). -/
def State.rayReady (s : State) (o : Op) : LaneMask :=
  let before := (s.c.rayq.filter fun p =>
      decide (p.id < o.id) && decide (p.warp = o.warp) && recordCode p.code && recordCode o.code).foldl
    (fun (m : LaneMask) p => m ||| p.left) 0
  o.left &&& ~~~before

/-- The lanes of an operation that still run: those whose turn has come and whose traversal has not stopped (R347). -/
def State.rayRuns (s : State) (o : Op) : Bool :=
  (lanesOf (s.rayReady o)).any fun l => !(o.begun l && decide ((s.trav l).st = 1) && s.rayStops (s.trav l) && (s.trav l).leaf.isNone)

/-- The lanes of a list, each run as far as it goes. -/
def LaneRun.lanes (r : LaneRun) : List Nat → LaneRun
  | [] => r
  | l :: ls =>
    let q := r.s.rayLane r.o l
    ({ q with fs := r.fs ++ q.fs } : LaneRun).lanes ls

/-- An operation whose lanes have run: the lanes that fault park, with one record for each kind and page; an uncorrectable
error ends it; with its last lane it is complete (R346, R461, R467). `acc` is that of its reads. -/
def LaneRun.settle (r : LaneRun) (acc : Nat) : State :=
  match r.fs.find? fun f => f.kind == badRead with
  | some f => r.s.engineError r.o f.st f.va
  | none =>
    if !r.fs.isEmpty then
      let p := r.s.faultOp r.o acc r.fs
      p.1.putOp p.2
    else if r.o.e &&& ~~~r.o.pcm = 0 then r.s.endEngine r.o
    else r.s.putOp r.o

/-- RAY_OPERATION_COMPLETE (R346): the lanes whose turn has come run on, each until its destination is written, its lane
parks, or its steps in one event are used up; with its last lane the word completes. -/
def execRayOperationComplete (op : Nat) (s : State) : Result :=
  orRefuse "RAY_OPERATION_COMPLETE" <|
    (s.focusOp op).bind fun p =>
      let m := p.2.rayReady p.1
      if (p.2.c.rayq.any fun q => q.id == op) && decide (m ≠ 0) then
        some ((({ s := p.2, o := p.1 } : LaneRun).lanes (lanesOf m)).settle 1)
      else none

end Sys2Proof.Machine
end

