-- ==== Sys2Proof/Machine/Reservoir.lean ====
section
/-! DEFINITION. The reservoir store (R367 to R378): its geometry, its records and their arithmetic, and the words of the
class but for RUSE and CALRET (R380 to R390). -/

namespace Sys2Proof.Machine

/-! ### Geometry (R368 to R371) -/

/-- A descriptor's fields: width, height, halo width, layers, and the dies that share the image. -/
structure Geom where
  w  : Nat
  h  : Nat
  hw : Nat
  l  : Nat
  nd : Nat
  deriving DecidableEq, Repr

def geomOf (d : Nat) (nd : Nat) : Geom :=
  { w := bitsOf d 12 0 + 1, h := bitsOf d 24 13 + 1, hw := bitsOf d 37 32, l := bitsOf d 39 38 + 1, nd := nd }

/-- The store's geometry; none while it is unconfigured. -/
def State.geom (s : State) : Option Geom :=
  match s.ctx with
  | some k => if k.rsvDesc = 0 then none else some (geomOf k.rsvDesc.toNat s.ndie)
  | none => none

def State.rot (s : State) : Nat :=
  match s.ctx with
  | some k => k.rot.toNat
  | none => 0

/-- The quadrant of a pixel, and its owner (R369). -/
def Geom.quadrant (g : Geom) (x y : Nat) : Nat := (if g.h / 2 ≤ y then 2 else 0) + (if g.w / 2 ≤ x then 1 else 0)
def Geom.owner (g : Geom) (x y : Nat) : Nat := g.quadrant x y % g.nd

/-- The bounds of a quadrant's window along one axis: `far` for the half further from the origin. -/
def windowSpan (n hw : Nat) (far : Bool) : Nat × Nat :=
  if far then (n / 2 - min hw (n / 2), n) else (0, n / 2 + min hw (n - n / 2))

def Geom.spanX (g : Geom) (q : Nat) : Nat × Nat := windowSpan g.w g.hw (decide (q % 2 = 1))
def Geom.spanY (g : Geom) (q : Nat) : Nat × Nat := windowSpan g.h g.hw (decide (q / 2 = 1))

/-- A pixel lies in the window of some quadrant that a die owns. -/
def Geom.inWindows (g : Geom) (d x y : Nat) : Bool :=
  (List.range 4).any fun q => decide (q % g.nd = d)
    && decide ((g.spanX q).1 ≤ x) && decide (x < (g.spanX q).2) && decide ((g.spanY q).1 ≤ y) && decide (y < (g.spanY q).2)

/-- A pixel lies in a die's halo. -/
def Geom.inHalo (g : Geom) (d x y : Nat) : Bool := decide (g.owner x y ≠ d) && g.inWindows d x y

/-- The records that a die stores (R369, R388). -/
def Geom.needs (g : Geom) (d : Nat) : Nat :=
  g.l * (((List.range 4).filter fun q => q % g.nd == d).map fun q =>
    ((g.spanX q).2 - (g.spanX q).1) * ((g.spanY q).2 - (g.spanY q).1)).sum

/-- A reservoir address (R370). -/
structure RsvAddr where
  lyr : Nat
  x   : Nat
  y   : Nat
  deriving DecidableEq, Repr

def rsvAddr (a : Nat) : RsvAddr := { lyr := bitsOf a 31 30, y := bitsOf a 29 18, x := bitsOf a 17 5 }

/-- The checks of R382 on an address: the kind of the fault. -/
def rsvFault (g : Option Geom) (a : Nat) : Option Nat :=
  match g with
  | none => some 1
  | some g =>
    let r := rsvAddr a
    if g.l ≤ r.lyr ∨ g.w ≤ r.x ∨ g.h ≤ r.y then some 1 else if a % 32 ≠ 0 then some 3 else none

/-! ### Records (R371, R373) -/

/-- Where a record stands in a die's table: physical layer, row and column. -/
def rsvKey (p x y : Nat) : Nat := (p * 4096 + y) * 8192 + x

/-- The physical layer of a logical layer (R371). -/
def State.physLayer (s : State) (g : Geom) (lyr : Nat) : Nat := (lyr + s.rot) % g.l

/-- The owner's record. -/
def State.rsvAt (s : State) (g : Geom) (lyr x y : Nat) : BitVec 256 :=
  (s.die (g.owner x y)).rsv.get 0 (rsvKey (s.physLayer g lyr) x y)
def State.setRsv (s : State) (g : Geom) (lyr x y : Nat) (r : BitVec 256) : State :=
  s.updDie (g.owner x y) fun d => { d with rsv := d.rsv.set 0 (rsvKey (s.physLayer g lyr) x y) r }

/-- A write of an operation is noted with what it overwrites, until its warp has counted and released it (R377, R557). -/
def State.noteRsv (s : State) (o : Op) (die : Nat) (halo : Bool) (key : Nat) : State :=
  let prev := (if halo then (s.die die).halo else (s.die die).rsv).get 0 key
  let num := ((s.warpOf o.warp).bind fun w => w.outs.find? fun q => q.id == o.id).elim 0 (·.num)
  s.updCtx fun k => { k with rsvOpen := k.rsvOpen ++
    [{ die := die, halo := halo, key := key, warp := o.warp, wg := o.wg, num := num, prev := prev }] }

/-- A record written by an operation. -/
def State.putRsv (s : State) (o : Op) (g : Geom) (lyr x y : Nat) (r : BitVec 256) : State :=
  (s.noteRsv o (g.owner x y) false (rsvKey (s.physLayer g lyr) x y)).setRsv g lyr x y r

/-- The records and halo copies of the context's dies. -/
def State.stores (s : State) : List (Sparse (BitVec 256) × Sparse (BitVec 256)) :=
  (List.range s.ndie).map fun v => ((s.die v).rsv, (s.die v).halo)

/-- A warp's own write is before a RUSE of it once a WAITC has counted the write; those of other warps once they are released as
well, and then they stand in no list (R557; log entry 30). -/
def RsvWrite.before (r : RsvWrite) (warp : Nat) : Bool := decide (r.warp = warp) && r.counted

/-- The stores with the writes undone that are not before a RUSE of a warp, newest first; `kept` are the places where one that
is has been met. -/
def undoOpen (warp : Nat) (kept : List (Nat × Bool × Nat)) (st : List (Sparse (BitVec 256) × Sparse (BitVec 256))) :
    List RsvWrite → List (Sparse (BitVec 256) × Sparse (BitVec 256))
  | [] => st
  | r :: rs =>
    let at_ := (r.die, r.halo, r.key)
    if kept.contains at_ then undoOpen warp kept st rs
    else if r.before warp then undoOpen warp (at_ :: kept) st rs
    else undoOpen warp kept (st.modify r.die fun q =>
      if r.halo then (q.1, q.2.set 0 r.key r.prev) else (q.1.set 0 r.key r.prev, q.2)) rs

/-- What a RUSE of a warp reads (R557): every record and halo copy as the writes before it leave them. -/
def State.storesFor (s : State) (warp : Nat) : List (Sparse (BitVec 256) × Sparse (BitVec 256)) :=
  undoOpen warp [] s.stores (s.ctx.elim [] (·.rsvOpen)).reverse

/-- An acquire that a warp issued before an operation is still to come (R250). -/
def Warp.acqBefore (w : Warp) (id : Nat) : Bool :=
  (w.pend.any fun p => decide (p.id < id) && (acqOf p.x.ord.toNat || decide (p.code = 0x128)))
    || w.waits.any fun p => [0x18D, 0x190].contains p.code && decide (p.id < id)

/-- What a RUSE that the warp in focus issues now reads: none yet where an acquire stands before it, after which it is taken. -/
def State.snapNow (s : State) : List (Sparse (BitVec 256) × Sparse (BitVec 256)) :=
  if s.w.acqBefore s.nextId then [] else s.storesFor s.w.id

/-- Operations of Loess that await it take what they read once no acquire stands before them, or at once where `all` says so. -/
def State.takeSnaps (s : State) (all : Bool) : State :=
  (List.range s.ndie).foldl (fun s v =>
    if (s.die v).loessQ.any fun o => o.stores.isEmpty then
      s.updDie v fun d => { d with loessQ := d.loessQ.map fun o =>
        if o.stores.isEmpty && (all || !((s.warpOf o.warp).any fun w => w.acqBefore o.id)) then { o with stores := s.storesFor o.warp } else o }
    else s) s

/-- A record as RSVLD reads it on a die: the halo copy where the die has one (R383). -/
def State.rsvRead (s : State) (g : Geom) (d lyr x y : Nat) : BitVec 256 :=
  if g.inHalo d x y then (s.die d).halo.get 0 (rsvKey (s.physLayer g lyr) x y) else s.rsvAt g lyr x y

/-- The fields of a record; the reserved bits are kept. -/
structure Rec where
  key   : Word
  phat  : Word
  wsum  : Word
  wt    : Word
  m     : Nat
  lyr   : BitVec 4
  res   : BitVec 4
  age   : BitVec 7
  valid : Bool
  pay   : BitVec 96
  deriving DecidableEq, Repr

def Rec.ofBits (b : BitVec 256) : Rec :=
  { key := b.extractLsb' 0 32, phat := b.extractLsb' 32 32, wsum := b.extractLsb' 64 32, wt := b.extractLsb' 96 32,
    m := (b.extractLsb' 128 16).toNat, lyr := b.extractLsb' 144 4, res := b.extractLsb' 148 4, age := b.extractLsb' 152 7,
    valid := b.getLsbD 159, pay := b.extractLsb' 160 96 }
def Rec.toBits (r : Rec) : BitVec 256 :=
  r.pay ++ BitVec.ofBool r.valid ++ r.age ++ r.res ++ r.lyr ++ BitVec.ofNat 16 r.m ++ r.wt ++ r.wsum ++ r.phat ++ r.key

/-- The registers of an octet that hold a record, and the record that they hold. -/
def octetOf (b : BitVec 256) : List Word := (List.range 8).map fun i => b.extractLsb' (32 * i) 32
def ofOctet (ws : List Word) : BitVec 256 :=
  BitVec.ofNat 256 ((List.range 8).foldl (fun a i => a + (nth0 ws i).toNat * 2 ^ (32 * i)) 0)

/-! ### Arithmetic (R374, R384 to R386) -/

/-- clean(b) as an encoding: a finite value from +0 up, else +0. -/
def clean (b : Word) : Word := if b.toNat < 0x7F800000 then b else 0
/-- clean(b) differs from the value of b. -/
def unclean (b : Word) : Bool := decide (0x7F800000 ≤ b.toNat) && decide (b ≠ 0x80000000)
/-- The value of clean(b) in units of 2^−149. -/
def cleanU (b : Word) : Nat := (units (clean b)).toNat

/-- round_f of m × 2^e, saturating (R374). -/
def roundSat (m : Nat) (e : Int) : Word := BitVec.ofNat 32 (roundF f32 .rne true false m e).bits

/-- MCAP and the caps of a parameter block: 0 means 65,535. -/
def capOf (c : Nat) : Nat := if c = 0 then 65535 else c

/-- RSVUPD on one record (R384): the record afterwards, and the status. -/
def Rec.update (r : Rec) (cand : List Word) (mcap : Nat) : Rec × Nat :=
  let w := nth0 cand 2
  let fl := nth0 cand 6
  let wsum := roundSat (cleanU r.wsum + cleanU w) (-149)
  let acc := decide ((nth0 cand 7).toNat / 256 * (units wsum).toNat < cleanU w * 2 ^ 24)
  let r1 : Rec := if acc then
      { r with key := nth0 cand 0, phat := nth0 cand 1, pay := nth0 cand 5 ++ nth0 cand 4 ++ nth0 cand 3,
               age := fl.extractLsb' 8 7, lyr := fl.extractLsb' 0 4, valid := true }
    else r
  ({ r1 with wsum := wsum, m := min (r.m + 1) mcap }, (if acc then 1 else 0) + (if unclean w then 2 else 0))

/-- The merge of a source into a record, with the target value `pt` already clean and a random value of 24 bits (R385). -/
def Rec.merge (d s : Rec) (pt : Word) (rnd mcap : Nat) : Rec × Bool :=
  let ws : Word := if s.valid then roundSat ((units pt).toNat * cleanU s.wt * s.m) (-298) else 0
  let wsum := roundSat (cleanU d.wsum + (units ws).toNat) (-149)
  let acc := s.valid && decide (rnd * (units wsum).toNat < (units ws).toNat * 2 ^ 24)
  let d1 : Rec := if acc then
      { d with key := s.key, pay := s.pay, age := s.age, lyr := s.lyr, phat := pt, valid := true }
    else d
  ({ d1 with wsum := wsum, m := min (d.m + s.m) mcap }, acc)

/-- The weight that RSVNRM writes (R386). -/
def Rec.weight (r : Rec) : Word :=
  if r.valid ∧ cleanU r.phat ≠ 0 ∧ 0 < r.m then
    BitVec.ofNat 32 (roundV f32 .rne true (divFin false (cleanU r.wsum) (-149) false (r.m * cleanU r.phat) (-149))).bits
  else 0
def Rec.normalise (r : Rec) : Rec := { r with wt := r.weight }

/-! ### Performing a record word (R375, R383 to R387) -/

/-- The address that a lane names (R370). -/
def Op.rsvA (o : Op) (l : Nat) : Nat := effAddr 3 (o.val32 0 l).toNat o.x.offset
/-- The addresses that a lane's checks cover: RSVMRG's source comes after its destination (R382). -/
def Op.rsvAs (o : Op) (l : Nat) : List Nat :=
  if o.code = 0x173 then [o.rsvA l, (o.reg 1 0 l).toNat] else [o.rsvA l]

/-- The pixels of the 16 × 16 tile that holds a pixel. -/
def Geom.tile (g : Geom) (x y : Nat) : List (Nat × Nat) :=
  ((List.range 16).flatMap fun j => (List.range 16).map fun i => (x / 16 * 16 + i, y / 16 * 16 + j)).filter
    fun p => decide (p.1 < g.w) && decide (p.2 < g.h)

/-- RSVHALO on one lane (R387). -/
def State.haloTile (s : State) (o : Op) (g : Geom) (d : Nat) (a : RsvAddr) : State :=
  if g.owner a.x a.y ≠ d then s
  else
    (g.tile a.x a.y).foldl (fun s p =>
      if g.owner p.1 p.2 = d then
        (List.range g.nd).foldl (fun s e =>
          if g.inHalo e p.1 p.2 then
            let r := s.rsvAt g a.lyr p.1 p.2
            let key := rsvKey (s.physLayer g a.lyr) p.1 p.2
            (s.noteRsv o e true key).updDie e fun q => { q with halo := q.halo.set 0 key r }
          else s) s
      else s) s

/-- One lane's access, with its destination. An address outside the geometry is none: what does not fit a new geometry is performed
under the old one (State.underOld). -/
def State.rsvLane (s : State) (o : Op) (l : Nat) : State :=
  let ok := (o.rsvAs l).all fun a => (rsvFault s.geom a).isNone
  match s.geom, ok with
  | some g, true =>
    let a := rsvAddr (o.rsvA l)
    let r := Rec.ofBits (s.rsvAt g a.lyr a.x a.y)
    let put (r : Rec) (dst : List Word) : State := (s.putRsv o g a.lyr a.x a.y r.toBits).putLane o.f.dst.toNat l dst
    let cap := capOf (o.x.ext.toNat % 2 ^ 16)
    if o.code = 0x170 then s.putLane o.f.dst.toNat l (octetOf (s.rsvRead g s.g.die a.lyr a.x a.y))
    else if o.code = 0x171 then s.putRsv o g a.lyr a.x a.y (ofOctet ((List.range 8).map fun i => o.reg 2 i l))
    else if o.code = 0x172 then
      let q := r.update ((List.range 8).map fun i => o.reg 1 i l) cap
      put q.1 [BitVec.ofNat 32 q.2]
    else if o.code = 0x173 then
      let b := rsvAddr (o.reg 1 0 l).toNat
      let src := Rec.ofBits (s.rsvRead g s.g.die b.lyr b.x b.y)
      let pt := o.reg 1 1 l
      let q := r.merge src (clean pt) ((o.val32 2 l).toNat / 256) cap
      put q.1 [BitVec.ofNat 32 ((if q.2 then 1 else 0) + (if unclean pt then 2 else 0))]
    else if o.code = 0x174 then put r.normalise [r.weight]
    else if o.code = 0x175 then s.putRsv o g a.lyr a.x a.y 0
    else s.haloTile o g s.g.die a
  | _, _ => if o.code = 0x170 then s.putLane o.f.dst.toNat l (List.replicate 8 0)
            else if 0x172 ≤ o.code ∧ o.code ≤ 0x174 then s.putLane o.f.dst.toNat l [0] else s

/-- An uncorrectable error where the die in focus reads a record (R467). -/
def State.recBad (s : State) (g : Geom) (lyr x y : Nat) : Bool :=
  s.bad.contains (7, s.phys (if g.inHalo s.g.die x y then s.g.die else g.owner x y), rsvKey (s.physLayer g lyr) x y)

/-- An uncorrectable error in a record that a lane reads (R467): its address. -/
def State.rsvBad (s : State) (o : Op) (l : Nat) : Option Nat :=
  if s.bad.isEmpty ∨ o.code = 0x171 ∨ o.code = 0x175 then none
  else
    match s.geom with
    | none => none
    | some g => (o.rsvAs l).find? fun a =>
        let r := rsvAddr a
        s.recBad g r.lyr r.x r.y

/-! ### Issue (R376, R382) -/

/-- The faults of an operation's lanes. -/
def State.rsvFaults (s : State) (o : Op) (lanes : LaneMask) : List LaneFault :=
  (lanesOf lanes).filterMap fun l =>
    ((o.rsvAs l).find? fun a => (rsvFault s.geom a).isSome).map fun a =>
      { lane := l, kind := (rsvFault s.geom a).getD 0, st := 0, va := a }

/-- ACC of the class's records. -/
def rsvAcc (code : Nat) : Nat := if code = 0x170 ∨ code = 0x176 then 1 else if code = 0x171 ∨ code = 0x175 then 2 else 3

/-- An operation whose lanes have been checked: those that fault park (R382). -/
def State.rsvCheck (s : State) (o : Op) (lanes : LaneMask) : State × Op :=
  let fs := if o.x.space = 3 then s.rsvFaults o lanes else []
  if fs.isEmpty then (s, o) else s.faultOp { o with recs := [] } (rsvAcc o.code) fs

/-- A word of the class issues; `aux` are values taken at issue. -/
def State.rsvWord (s : State) (code : Nat) (f : FmtA) (x : Upper) (wid : List Nat) (vdst wdst : List Nat)
    (reason : Option Nat := none) (aux : List Nat := []) (after : State → State := id) : Result :=
  let e := s.execSet f.cond
  if e = 0 then s.retireLong
  else
    s.engineIssue .rsv { s.mkOp code f x wid e with cls := some .rsv, aux := aux } (decide (x.space = 3)) false 0x0A reason 0
      none wdst vdst fun o s =>
        let r := s.rsvCheck o o.e
        after (r.1.enqueue .rsv r.2)

/-- Parked lanes of an operation issue again (R457). -/
def State.rsvReplay (s : State) (o : Op) : State :=
  let r := s.rsvCheck { o with park := 0, recs := [], st := .running } o.park
  r.1.putOp r.2

/-! ### The words (R383 to R390) -/

/-- RSVLD (R383). -/
def execRsvld (f : FmtA) (x : Upper) (s : State) : Result := s.rsvWord 0x170 f x [1, 0, 0] (regs f.dst 8) []
/-- RSVST (R383). -/
def execRsvst (f : FmtA) (x : Upper) (s : State) : Result := s.rsvWord 0x171 f x [1, 0, 8] [] []
/-- RSVUPD (R384). -/
def execRsvupd (f : FmtA) (x : Upper) (s : State) : Result := s.rsvWord 0x172 f x [1, 8, 0] (regs f.dst 1) []
/-- RSVMRG (R385). -/
def execRsvmrg (f : FmtA) (x : Upper) (s : State) : Result := s.rsvWord 0x173 f x [1, 2, 1] (regs f.dst 1) []
/-- RSVNRM (R386). -/
def execRsvnrm (f : FmtA) (x : Upper) (s : State) : Result := s.rsvWord 0x174 f x [1, 0, 0] (regs f.dst 1) []
/-- RSVCLR (R383). -/
def execRsvclr (f : FmtA) (x : Upper) (s : State) : Result := s.rsvWord 0x175 f x [1, 0, 0] [] []
/-- RSVHALO (R387). -/
def execRsvhalo (f : FmtA) (x : Upper) (s : State) : Result := s.rsvWord 0x176 f x [1, 0, 0] [] []
/-- RSVSWAP (R389). -/
def execRsvswap (f : FmtA) (x : Upper) (s : State) : Result := s.rsvWord 0x177 f x [] [] []

/-- MODE of the class (R380). -/
def rsvMode (x : Upper) : Nat := x.ext.toNat / 2 ^ 16 % 8

/-- RSVQ's values (R390). -/
def State.rsvStatus (s : State) (mode : Nat) : List Nat :=
  match s.ctx with
  | some k =>
    if mode = 0 then
      [k.rsvDesc.toNat % 2 ^ 32, k.rsvDesc.toNat / 2 ^ 32 + k.rot.toNat % 4 * 2 ^ 8, k.ways, k.ways * 409600]
    else [(s.die s.g.die).loessStat.toNat, s.loessCount s.g.die, 0, 0]
  | none => [0, 0, 0, 0]

/-- RSVQ (R390): its values are read at issue, and .rclr clears the status then. -/
def execRsvq (f : FmtA) (x : Upper) (s : State) : Result :=
  s.rsvWord 0x178 f x [] [] (regs f.dst 4) none (s.rsvStatus (rsvMode x)) fun s =>
    if rsvMode x = 2 then s.updDie s.g.die fun d => { d with loessStat := 0 } else s

/-- The reason for which a descriptor is refused (R388). -/
def State.descReason (s : State) (d : Nat) : Option Nat :=
  let g := geomOf d s.ndie
  let cap := (match s.ctx with
    | some k => k.ways
    | none => 0) * 409600
  if d = 0 then none
  else if bitsOf d 63 40 ≠ 0 ∨ bitsOf d 31 25 ≠ 0 ∨ g.w % 4 ≠ 0 ∨ g.h % 4 ≠ 0 ∨ 32 < g.hw then some 0x60
  else if (List.range s.ndie).any fun v => decide (cap < g.needs v) then some 0x61
  else none

/-- RSVCFG (R388). -/
def execRsvcfg (f : FmtA) (x : Upper) (s : State) : Result :=
  s.rsvWord 0x179 f x [2, 0, 0] [] [] (s.descReason (s.usrc64 f f.sa).toNat)

/-! ### The events -/

/-- The lanes of an operation in the queue whose turn has come: no earlier word of the warp is queued that has lanes still to
perform (R375). -/
def State.rsvReady (s : State) (o : Op) : LaneMask :=
  let before := (s.c.rsvq.filter fun p => decide (p.id < o.id) && decide (p.warp = o.warp)).foldl
    (fun (m : LaneMask) p => m ||| p.left) 0
  if before = 0 then o.left else 0

/-- The store of every die changed, table by table. -/
def State.mapStores (s : State) (g : Sparse (BitVec 256) → Sparse (BitVec 256)) : State :=
  (List.range s.ndie).foldl (fun s v => s.updDie v fun d => { d with rsv := g d.rsv, halo := g d.halo }) s

/-- RSVSWAP applied (R389). -/
def State.swapLayers (s : State) (clr : Bool) : State :=
  match s.geom with
  | none => s
  | some g =>
    let rot := (s.rot + g.l - 1) % g.l
    let s1 := s.updCtx fun k => { k with rot := BitVec.ofNat 32 rot }
    if clr then
      (s1.updCtx fun k => { k with rsvOpen := k.rsvOpen.filter fun r => r.key / (4096 * 8192) != rot }).mapStores fun t =>
        t.filter fun p => p.1 / (4096 * 8192) != rot
    else s1

/-- A queued word performed for the lanes whose turn has come. -/
def State.performRsv (s : State) (o : Op) (m : LaneMask) : State :=
  if o.code = 0x177 then (s.swapLayers (decide (rsvMode o.x = 1))).endEngine o
  else if o.code = 0x178 then
    ((List.range 4).foldl (fun s i => s.setU (o.f.dst.toNat + i) (BitVec.ofNat 32 ((o.aux[i]?).getD 0))) s).endEngine o
  else
    match (lanesOf m).findSome? fun l => s.rsvBad o l with
    | some a => s.engineError o 7 a
    | none =>
      let s1 := (lanesOf m).foldl (fun s l => s.rsvLane o l) s
      let o1 := { o with pcm := o.pcm ||| m }
      if o1.e &&& ~~~o1.pcm = 0 then s1.endEngine o1 else s1.putOp o1

/-- RESERVOIR_OPERATION_COMPLETE (R375 to R378): a queued word other than RSVCFG and RUSE is performed. -/
def execReservoirOperationComplete (op : Nat) (s : State) : Result :=
  orRefuse "RESERVOIR_OPERATION_COMPLETE" <|
    (s.focusOp op).bind fun p =>
      let m := p.2.rsvReady p.1
      if (p.2.c.rsvq.any fun q => q.id == op) && decide (m ≠ 0) && decide (p.1.code ≠ 0x179) then
        some (p.2.performRsv p.1 m)
      else none

/-- The words that wait, of one of whose lanes a new geometry has no record, are performed under the old one as the change is
applied, after the earlier words of their warps (R388). -/
def State.underOld (s : State) (desc : Nat) : State :=
  let g := if desc = 0 then none else some (geomOf desc s.ndie)
  let mine := ((s.c :: s.cs).flatMap (·.rsvq)).filter fun o => decide (o.code ≤ 0x176) && decide (o.left ≠ 0)
  let lost := mine.filter fun o => (lanesOf o.left).any fun l => (o.rsvAs l).any fun a => (rsvFault g a).isSome
  let go := mine.filter fun o => lost.any fun q => decide (q.warp = o.warp) && decide (o.id ≤ q.id)
  ((go.map (·.id)).mergeSort).foldl (fun s id => match s.focusOp id with
    | some p => p.2.performRsv p.1 p.1.left
    | none => s) s

/-- RSVCFG_INSTALL (R388): every record and copy is cleared, ROT and the status of Loess become 0, and the descriptor
stands; a RUSE that has issued keeps to the old one. -/
def execRsvcfgInstall (op : Nat) (s : State) : Result :=
  orRefuse "RSVCFG_INSTALL" <|
    (s.focusOp op).bind fun p =>
      if (p.2.c.rsvq.any fun q => q.id == op) && decide (p.2.rsvReady p.1 ≠ 0) && decide (p.1.code = 0x179) then
        let s0 := (p.2.underOld (p.1.val64 0 0).toNat).takeSnaps true
        let s1 := ((s0.focus p.1.warp).getD s0).mapStores fun _ => []
        let s2 := (List.range s1.ndie).foldl (fun s v => s.updDie v fun d =>
          { d with loessStat := 0, loessQ := d.loessQ.map fun o => if o.aux.isEmpty then o else { o with aux := o.aux.take 2 ++ [1] } }) s1
        let s3 := s2.updCtx fun k => { k with rsvDesc := p.1.val64 0 0, rot := 0, rsvOpen := [] }
        some (s3.endEngine p.1)
      else none

end Sys2Proof.Machine
end

