-- ==== Sys2Proof/Machine/Micro.lean ====
section
/-! DEFINITION. The micro-core of Loess (R396, R397): sixteen lanes, each one evaluation, on words of the callable subset. -/

namespace Sys2Proof.Machine

/-! ### The callable subset (R397) -/

/-- The transfers, and the words of the integer class but MOVW. -/
def microInteger : List (Nat × (FmtA → State → Result)) := [
  (0x2, execBra), (0x3, execBru), (0x4, execBrany), (0x5, execBrall),
  (0x20, execIadd), (0x21, execIadd64), (0x22, execIsub), (0x23, execIsub64), (0x24, execIaddc),
  (0x25, execIsubb), (0x26, execIadd3), (0x27, execLea), (0x28, execImulLo), (0x29, execImulHi),
  (0x2A, execImulWide), (0x2B, execImadLo), (0x2C, execImadHi), (0x2D, execImadWide), (0x2E, execIdiv),
  (0x2F, execIrem), (0x30, execIabs), (0x31, execIneg), (0x32, execImin), (0x33, execImax),
  (0x34, execImin64), (0x35, execImax64), (0x36, execIcmp), (0x37, execIcmp64), (0x38, execIsetm),
  (0x39, execSel), (0x3A, execSel64), (0x3B, execMov), (0x3C, execMov64), (0x3E, execVadie),
  (0x3F, execIdp4), (0x40, execAnd), (0x41, execOr), (0x42, execXor), (0x43, execAndn),
  (0x44, execLop3), (0x45, execShl), (0x46, execShr), (0x47, execSar), (0x48, execRot),
  (0x49, execShl64), (0x4A, execShr64), (0x4B, execSar64), (0x4C, execBfx), (0x4D, execBfi),
  (0x4E, execPopc), (0x4F, execClz), (0x50, execCtz), (0x51, execBrev), (0x52, execBperm),
  (0x53, execSad)]

/-- The words of the float, special-function and conversion class but for the block formats. -/
def microFloat : List (Nat × (FmtA → State → Result)) := [
  (0x60, execFaddF32), (0x61, execFaddF16), (0x62, execFaddBf16), (0x63, execFmulF32), (0x64, execFmulF16),
  (0x65, execFmulBf16), (0x66, execFfmaF32), (0x67, execFfmaF16), (0x68, execFfmaBf16), (0x69, execFminF32),
  (0x6A, execFminF16), (0x6B, execFminBf16), (0x6C, execFmaxF32), (0x6D, execFmaxF16), (0x6E, execFmaxBf16),
  (0x6F, execFcmpF32), (0x70, execFcmpF16), (0x71, execFcmpBf16), (0x72, execFsetmF32), (0x73, execFsetmF16),
  (0x74, execFsetmBf16), (0x75, execFclassF32), (0x76, execFclassF16), (0x77, execFclassBf16), (0x78, execFrndF32),
  (0x79, execFrndF16), (0x7A, execFrndBf16), (0x7B, execFldexpF32), (0x7C, execFcpysF32), (0x7D, execFmed3F32),
  (0x7E, execFdot2Bf16)] ++ [
  (0x80, execHadd2F16), (0x81, execHadd2Bf16), (0x82, execHmul2F16), (0x83, execHmul2Bf16), (0x84, execHfma2F16),
  (0x85, execHfma2Bf16), (0x88, execFrcpF32), (0x89, execFrsqF32), (0x8A, execFsqrtF32), (0x8B, execFdivF32),
  (0x8C, execFexp2F32), (0x8D, execFlog2F32), (0x8E, execFsinF32), (0x8F, execFcosF32), (0x90, execFexp2F16),
  (0x98, execCvtF16F32), (0x99, execCvtBf16F32), (0x9A, execCvtF32F16), (0x9B, execCvtF32Bf16), (0x9C, execCvtBf16F16),
  (0x9D, execCvtF16Bf16), (0x9E, execCvtF16x2F32), (0x9F, execCvtBf16x2F32), (0xA0, execCvtS32F32), (0xA1, execCvtN32F32),
  (0xA2, execCvtS64F32), (0xA3, execCvtN64F32), (0xA4, execCvtF32S32), (0xA5, execCvtF32N32), (0xA6, execCvtF32S64),
  (0xA7, execCvtF32N64)]

/-- The loads. -/
def microLoads : List Nat := [0xE0, 0xE1, 0xE2, 0xE3, 0xE4, 0xE5, 0x100]

/-- What the micro-core decodes with: 32 lane registers and 16 uniform ones, and no resource of a launch (R396, R397). -/
def microCtx (last : Bool) : DecodeCtx :=
  { regs := 32, uregs := 16, nwarp := 1, opened := 0, slots := 0, fuse := false, fs := [], last := last, micro := true }

/-- A word's entry writes a uniform register. -/
def writesUni (cx : DecodeCtx) (w : Raw) : Bool :=
  match rowOf cx w.op w with
  | some r => match r.dst with
    | .uni _ => true
    | _ => false
  | none => false

/-- The word is one that a callable may hold. -/
def microOk (b : BitVec 128) (last : Bool) : Bool :=
  let w := Raw.ofBits b
  if w.op = 0x07F then true
  else if writesUni (microCtx last) w then false
  else
    (microInteger.any fun e => e.1 == w.op) || (microFloat.any fun e => e.1 == w.op)
      || decide (w.op = 0x001) || decide (w.op = 0x00B) || decide (w.op = 0x00C) || decide (w.op = 0x00D) || decide (w.op = 0x17B)
      || (microLoads.contains w.op && decide (w.up.space = 0) && decide (w.up.ord = 0) && decide (w.up.scope = 0) && !w.up.racq)

/-! ### A batch -/

/-- A batch as it runs: the machine with the batch's lanes in focus, the words that each lane has issued, and what stops the
batch: a read that must wait, or an uncorrectable error (R467). -/
structure Micro where
  s    : State
  cnt  : List Nat
  stat : BitVec 4 := 0
  /-- The callable's address. -/
  call : Nat := 0
  wait : Bool := false
  err  : Option (Nat × Nat) := none

/-- Evaluations end: their lanes leave the run and every barrier. -/
def State.endEvals (s : State) (set : LaneMask) : State :=
  let w : Warp := { s.w with
    lanes := s.w.lanes.mapIdx fun l e => if inSet set l then { e with st := .exited, bidx := 0 } else e
    rcb := leaveRcb s.w.rcb set
    run := s.w.run.bind fun r => if r.mask &&& ~~~set = 0 then none else some { r with mask := r.mask &&& ~~~set } }
  { s with w := w.releaseAll }

/-- The number by which the model names the micro-core of a die, which is none of its 160 cores. -/
def microCore : Nat := 160

/-- CALRET on the micro-core (R398): its executing evaluations end with their values; the other lanes fall through. -/
def State.callReturn (s : State) (f : FmtA) : State :=
  let e := s.execSet f.cond
  let vals := (lanesOf e).map fun l =>
    (l, s.src32 f f.sa l, match f.sb with
      | .lane n => (List.range 8).map fun i => s.v (n.toNat + i) l
      | _ => [])
  ({ s with w := { s.w with ret := s.w.ret ++ vals } } : State).advance 16 |>.endEvals e

/-- CALRET (R398): issued by a warp it raises the illegal-instruction trap with reason 0x11 (R57, R381). -/
def execCalret (f : FmtA) (_x : Upper) (s : State) : Result :=
  .next (if s.c.num = microCore then s.callReturn f else s.trapHere 3 0x11 s.m0)

/-- Evaluations fail (R397): pt is 0 and a status bit is set. -/
def Micro.fail (m : Micro) (set : LaneMask) (bit : BitVec 4) : Micro :=
  if set = 0 then m else { m with s := m.s.endEvals set, stat := m.stat ||| bit }

/-- BADC, CFLT and BUDG (R390). -/
def badC : BitVec 4 := 4
def cFlt : BitVec 4 := 2
def budG : BitVec 4 := 1

/-- The lanes of a warp that stand where a word is illegal or a target bad leave as a runahead episode would leave them;
the batch counts on that record, which also keeps sticky flags and floating-point traps away (R77, R397). -/
def Runahead.blank : Runahead :=
  { v := [], u := [], m := [], ccC := 0, ccZ := 0, ccN := 0, ccV := 0, lanes := [], rcb := [], run := none, blocker := 0,
    left := 0, unkV := [], unkU := [], unkM := [], unkC := 0, sched := {} }

/-- A word of the control, integer or float class. -/
def Micro.plain (m : Micro) (g : State → Result) : Micro :=
  match g { m.s with w := { m.s.w with ra := some Runahead.blank } } with
  | .next t =>
    let left := match t.w.ra with
      | some r => r.left
      | none => 0
    ({ m with s := { t with w := { t.w with ra := none } } } : Micro).fail left badC
  | _ => m
/-- A word of the reconvergence barriers, which hold lanes as on a core. -/
def Micro.barrier (m : Micro) (g : State → Result) : Micro :=
  match g m.s with
  | .next t => { m with s := t }
  | _ => m

/-- A load (R395, R397): lanes that would fault end their evaluations. -/
def Micro.load (m : Micro) (w : Raw) : Micro :=
  let f := w.fmtA
  let e := m.s.execSet f.cond
  let o := m.s.mkOp w.op f w.up [2, 0, 0] e
  let c := m.s.checkOp o true
  if c.wait then { m with wait := true }
  else
    let bad := faultLanes (o.spread c.faults)
    let good := e &&& ~~~bad
    let one := (lanesOf good).head?.getD 0
    let kept := match (c.s.die c.s.g.die).loessQ with
      | q :: _ => q.kept
      | [] => []
    let at_ (l : Nat) : Nat := o.addr (if onceCode w.op then one else l)
    match (lanesOf good).findSome? fun l => c.s.engineBad c.xl (at_ l) o.width with
    | some x => { m with err := some x }
    | none =>
      let ws := (List.range 32).map fun l =>
        if inSet good l then o.loadWords (c.s.engineRead kept c.xl (at_ l) o.width) else []
      let s1 := (lanesOf good).foldl (fun s l => s.engineFill c.xl (at_ l) o.width o.evp) c.s
      let s2 := s1.setRegs f.dst.toNat good (fun l => (ws[l]?).getD []) o.dstRegs
      ({ m with s := s2.advance 16 } : Micro).fail bad cFlt

/-- A legal word of the subset issues. -/
def Micro.word (m : Micro) (b : BitVec 128) : Micro :=
  let w := Raw.ofBits b
  if w.op = 0x07F then m.plain (execPair (.ofBits (b.extractLsb' 11 42)) (.ofBits (b.extractLsb' 53 42)))
  else if w.op = 0x001 then m.plain fun s => .next (s.advance (wordBytes b))
  else if w.op = 0x00B then m.plain (execRcbArm w.fmtA)
  else if w.op = 0x00C then m.barrier (execRcbWait w.fmtA)
  else if w.op = 0x00D then m.barrier (execRcbClr w.fmtA)
  else if w.op = 0x17B then m.barrier (execCalret w.fmtA w.up)
  else if microLoads.contains w.op then m.load w
  else
    match (microInteger ++ microFloat).find? fun e => e.1 == w.op with
    | some e => m.plain (e.2 w.fmtA)
    | none => m

/-- The lanes of a run have issued a word; those that reach the budget end (R397). -/
def Micro.budget (m : Micro) (run : LaneMask) : Micro :=
  let cnt := m.cnt.mapIdx fun l n => if inSet run l then n + 1 else n
  let done := laneSet fun l => inSet run l && decide (1024 ≤ (cnt[l]?).getD 0) && decide ((m.s.lane l).st ≠ .exited)
  ({ m with cnt := cnt } : Micro).fail done budG

/-- The ready lanes at the lowest address, and that address (R91). -/
def Warp.headRun (w : Warp) : Option (Word64 × LaneMask) :=
  let pcs := (List.range 32).filterMap fun l => match w.lanes[l]? with
    | some e => if e.st = .ready then some e.pc.toNat else none
    | none => none
  match pcs.min? with
  | none => none
  | some p => some (BitVec.ofNat 64 p, laneSet fun l => match w.lanes[l]? with
      | some e => decide (e.st = .ready) && decide (e.pc.toNat = p)
      | none => false)

/-- One step of a batch: a clause header at the head run's address, or a word. Lanes that fall past the callable's end fail
(log entry 54). -/
def Micro.step (m : Micro) : Micro :=
  match m.s.w.run with
  | some r =>
    let pc := r.pc.toNat
    let f := m.s.fetchCheck pc
    let m1 : Micro := { m with s := f.1 }
    let b := f.1.wordBits pc
    let last := decide (r.left ≤ 1)
    if f.2.isSome || (f.1.wordBad pc).isSome || !(clauseReasons (microCtx last) b pc).isEmpty || !(microOk b last) then m1.fail r.mask badC
    else (m1.word b).budget r.mask
  | none =>
    match m.s.w.headRun with
    | none => m.fail (m.s.w.lanesIn .waiting) badC
    | some (pc, set) =>
      let f := m.s.fetchCheck pc.toNat
      let m1 : Micro := { m with s := f.1 }
      let b := f.1.wordBits pc.toNat
      let past := laneSet fun l => inSet set l && decide ((m.s.lane l).via = none) && decide (pc.toNat ≠ m.call)
        && decide (m.call + Config.callableBytes m.call ≤ pc.toNat)
      if past ≠ 0 then m.fail past badC
      else if f.2.isSome || (f.1.wordBad pc.toNat).isSome || !(f.1.headerAt pc.toNat) || !(headerReasons (b.extractLsb' 0 64)).isEmpty then m1.fail set badC
      else
        let h := Header.ofBits (b.extractLsb' 0 64)
        let run : Run := { hdr := pc, pc := nextWord pc 8, left := h.count, flag0 := none, flag1 := none, mask := set }
        { m1 with s := { f.1 with w := { f.1.w with run := some run } } }

/-- A batch runs until every evaluation has ended. -/
def Micro.run : Nat → Micro → Micro
  | 0, m => m
  | n + 1, m =>
    if m.wait || m.err.isSome || decide (m.s.w.liveLanes = 0) then m else m.step.run n

/-- Steps that sixteen evaluations of 1,024 words can take. -/
def microFuel : Nat := 40000

/-- The first state of a batch (R396): registers of each lane, and the parameter block. -/
def State.microStart (s : State) (die : Nat) (call : Word64) (block : List Word) (lanes : List (List Word)) : Micro :=
  let n := lanes.length
  let v := (List.range n).foldl (fun t l =>
    (List.range 19).foldl (fun t r => Sparse.set 0 t (vKey r l) (nth0 ((lanes[l]?).getD []) r)) t) ([] : Sparse Word)
  let u := (List.range 16).foldl (fun t r => Sparse.set 0 t r (nth0 block r)) ([] : Sparse Word)
  let ents := (List.range 32).map fun l => ({ st := if l < n then .ready else .exited, pc := call } : LaneEnt)
  let c : Core := { die := die, num := microCore }
  { s := { s with w := { id := 0, wg := 0, v := v, u := u, lanes := ents }, g := { s.g with die := die, core := microCore }, c := c,
                  cs := [] }
    cnt := List.replicate 32 0, call := call.toNat }

/-- The machine after a batch: the warp, the workgroup and the cores as they stood. -/
def Micro.finish (m : Micro) (s : State) : State := { m.s with w := s.w, g := s.g, c := s.c, cs := s.cs }

end Sys2Proof.Machine
end

