-- ==== Sys2Proof/Machine/Loess.lean ====
section
/-! DEFINITION. The reuse engine Loess (R391 to R395): RUSE, and the steps that it takes on the operation at the head of its
queue. -/

namespace Sys2Proof.Machine

/-! ### The parameter block (R391) -/

def Op.par (o : Op) (i : Nat) : Nat := (o.reg 0 i 0).toNat
def Op.par64 (o : Op) (i : Nat) : Nat := o.par i + 2 ^ 32 * o.par (i + 1)
def Op.ruOrg (o : Op) : Nat × Nat := (o.par 0 % 2 ^ 16, o.par 0 / 2 ^ 16)
def Op.ruSize (o : Op) : Nat × Nat := (o.par 1 % 2 ^ 16, o.par 1 / 2 ^ 16)
def Op.ruCan (o : Op) : Nat := bitsOf (o.par 2) 1 0
def Op.ruTmp (o : Op) : Nat := bitsOf (o.par 2) 3 2
def Op.ruOut (o : Op) : Nat := bitsOf (o.par 2) 5 4
def Op.ruLyrm (o : Op) : Bool := decide (bitsOf (o.par 2) 7 7 = 1)
def Op.ruNsp (o : Op) : Nat := bitsOf (o.par 2) 11 8
def Op.ruRad (o : Op) : Nat := bitsOf (o.par 2) 21 16
def Op.ruAmax (o : Op) : Nat := bitsOf (o.par 2) 30 24
def Op.ruTemporal (o : Op) : Bool := decide (bitsOf (o.par 2) 31 31 = 1)
def Op.ruKey (o : Op) : Nat := o.par64 12

/-- The reason for which a RUSE is refused (R388). -/
def State.ruseReason (s : State) (o : Op) : Option Nat :=
  let f := o.par 2
  if bitsOf f 23 22 ≠ 0 ∨ bitsOf f 15 12 ≠ 0 ∨ bitsOf f 6 6 ≠ 0 then some 0x62
  else
    match s.geom with
    | none => some 0x63
    | some g =>
      let (x, y) := o.ruOrg
      let (w, h) := o.ruSize
      if w = 0 ∨ h = 0 ∨ w % 2 ≠ 0 ∨ h % 2 ≠ 0 ∨ x % 2 ≠ 0 ∨ y % 2 ≠ 0 ∨ g.w < x + w ∨ g.h < y + h
          ∨ g.quadrant x y ≠ g.quadrant (x + w - 1) (y + h - 1) ∨ g.owner x y ≠ s.g.die then some 0x63
      else if g.l ≤ o.ruCan ∨ g.l ≤ o.ruTmp ∨ g.l ≤ o.ruOut ∨ o.ruOut = o.ruCan ∨ (o.ruTemporal = true ∧ o.ruOut = o.ruTmp) then
        some 0x64
      else if 8 < o.ruNsp ∨ o.ruRad = 0 ∨ 32 < o.ruRad then some 0x65
      else if o.par64 4 % 32 ≠ 0 ∨ o.par 6 % 32 ≠ 0 ∨ o.par64 8 % 4 ≠ 0 ∨ o.par 7 % 4 ≠ 0 ∨ o.par64 10 % 8 ≠ 0 then some 0x66
      else none

/-- The descriptor and the ROT in force. -/
def State.geomNow (s : State) : Option (Nat × Nat) := s.ctx.map fun k => (k.rsvDesc.toNat, k.rot.toNat)

/-- RUSE (R391): a ninth operation of the die is refused issue; the parameter block is read at issue, and the records that the
operation reads are those that happen before its issue (R557). -/
def execRuse (f : FmtA) (x : Upper) (s : State) : Result :=
  let e := s.execSet f.cond
  if e = 0 then s.retireLong
  else
    let o := { s.mkOp 0x17A f x [16, 0, 0] e with cls := some .rsv }
    match s.ruseReason o with
    | some r => .next (s.trapHere 0x0A r e)
    | none =>
      if 8 ≤ s.loessCount s.g.die then .next s
      else
        match s.freeLog with
        | none => s.refuseLog
        | some k =>
          let o1 := { o with logi := some k, stores := s.snapNow, aux := s.geomNow.elim [] fun q => [q.1, q.2] }
          let s1 := ((s.addOut o1 [] []).takeLog k o.id).advance 16
          .next (s1.updDie s.g.die fun d => { d with loessQ := d.loessQ ++ [o1] })

/-! ### The sources of a pixel (R392, R393) -/

/-- The counter of a pixel. -/
def ctrOf (x y : Nat) : Nat := y * 2 ^ 16 + x

/-- A coordinate moved by an FP16 element: floor(x + 0.5 + d); none where d is not finite. -/
def movedBy (x d : Nat) : Option Int :=
  match fval f16 d with
  | .fin sg m e => some (((x : Int) * 2 ^ 25 + 2 ^ 24 + onGrid sg m e (-25)) / 2 ^ 25)
  | _ => none

/-- The temporal pixel, where it exists. -/
def temporalPixel (g : Geom) (x y : Nat) (mv : Nat) : Option (Nat × Nat) :=
  match movedBy x (mv % 2 ^ 16), movedBy y (mv / 2 ^ 16) with
  | some a, some b => if 0 ≤ a ∧ a < g.w ∧ 0 ≤ b ∧ b < g.h then some (a.toNat, b.toNat) else none
  | _, _ => none

/-- Neighbour k of a pixel, where it exists. -/
def neighbour (g : Geom) (die key rad x y k : Nat) : Option (Nat × Nat) :=
  let off (j : Nat) : Int := ((rnd24 key (ctrOf x y) j * (2 * rad + 1) / 2 ^ 24 : Nat) : Int) - rad
  let dx := off (2 * k)
  let dy := off (2 * k + 1)
  let a := (x : Int) + dx
  let b := (y : Int) + dy
  if (dx = 0 ∧ dy = 0) ∨ a < 0 ∨ (g.w : Int) ≤ a ∨ b < 0 ∨ (g.h : Int) ≤ b then none
  else if g.inWindows die a.toNat b.toNat then some (a.toNat, b.toNat) else none

/-- An evaluation to make; a source without a sample gives 0 at once (R394). -/
def leval (pix idx : Nat) (q : Nat × Nat) (r : Rec) : LEval :=
  { pix := pix, idx := idx, q := BitVec.ofNat 32 (q.2 * 2 ^ 16 + q.1), src := r.toBits, st := if r.valid then 0 else 2 }

/-- The pixels of the operation's next quad. -/
def Op.quadPixels (o : Op) : List (Nat × Nat) :=
  let n := o.ruSize.1 / 2
  let x := o.ruOrg.1 + o.chunk % n * 2
  let y := o.ruOrg.2 + o.chunk / n * 2
  [(x, y), (x + 1, y), (x, y + 1), (x + 1, y + 1)]
def Op.quads (o : Op) : Nat := o.ruSize.1 / 2 * (o.ruSize.2 / 2)

/-- A record as it stood at the issue of a RUSE (R557). -/
def State.ruseRead (s : State) (o : Op) (g : Geom) (lyr x y : Nat) : BitVec 256 :=
  ((o.stores.mapIdx fun v q => (v, q)).foldl (fun (s : State) p => s.updDie p.1 fun d => { d with rsv := p.2.1, halo := p.2.2 })
    s).rsvRead g s.g.die lyr x y

/-- The records that the evaluations of a pixel read, by layer and pixel: its own, the temporal one, and its neighbours'. -/
def State.pixelReads (s : State) (o : Op) (g : Geom) (x y mv : Nat) : List (Nat × Nat × Nat) :=
  let at_ (lyr : Nat) (q : Nat × Nat) : Nat × Nat × Nat := (lyr, q.1, q.2)
  (o.ruCan, x, y) :: ((if o.ruTemporal then temporalPixel g x y mv else none).toList.map (at_ o.ruTmp)
    ++ ((List.range o.ruNsp).filterMap fun k => neighbour g s.g.die o.ruKey o.ruRad x y k).map (at_ o.ruCan))

/-- The evaluations of a pixel in the order of their sources. -/
def State.pixelEvals (s : State) (o : Op) (g : Geom) (pix : Nat) (x y : Nat) (mv : Nat) : List LEval :=
  let c := Rec.ofBits (s.ruseRead o g o.ruCan x y)
  let skip (r : Rec) : Bool := o.ruLyrm && decide (r.lyr ≠ c.lyr)
  let temporal : List LEval :=
    if o.ruTemporal then
      match temporalPixel g x y mv with
      | some q =>
        let t := Rec.ofBits (s.ruseRead o g o.ruTmp q.1 q.2)
        if (o.ruAmax ≠ 0 ∧ o.ruAmax ≤ t.age.toNat) ∨ skip t = true then []
        else [leval pix 0 q { t with m := min t.m (capOf (o.par 3 % 2 ^ 16)) }]
      | none => []
    else []
  temporal ++ (List.range o.ruNsp).filterMap fun k =>
    (neighbour g s.g.die o.ruKey o.ruRad x y k).bind fun q =>
      let r := Rec.ofBits (s.ruseRead o g o.ruCan q.1 q.2)
      if skip r then none else some (leval pix (1 + k) q r)

/-- The reads of a quad, pixel by pixel (R395). -/
def State.readPixels (s : State) (o : Op) (g : Geom) (pix : Nat) :
    List (Nat × Nat) → State × Option (Except EFault (List LPix × List LEval))
  | [] => (s, some (.ok ([], [])))
  | (x, y) :: ps =>
    let r := s.readRecord o ((o.par64 4 + y * o.par 6 + 32 * x) % 2 ^ 64) 32
    match r.2 with
    | none => (s, none)
    | some (.error e) => (r.1, some (.error e))
    | some (.ok gb) =>
      let q := if o.ruTemporal then r.1.readRecord o ((o.par64 8 + y * o.par 7 + 4 * x) % 2 ^ 64) 4
        else (r.1, some (.ok []))
      match q.2 with
      | none => (s, none)
      | some (.error e) => (q.1, some (.error e))
      | some (.ok mv) =>
        if !s.bad.isEmpty && (q.1.pixelReads o g x y (leNat mv)).any (fun a => q.1.recBad g a.1 a.2.1 a.2.2) then
          (q.1, some (.error (badRead, 7, 0)))
        else
          let here : LPix := { x := x, y := y, g := wordsOf gb 8, cen := q.1.ruseRead o g o.ruCan x y }
          let t := q.1.readPixels o g (pix + 1) ps
          match t.2 with
          | some (.ok (as, bs)) => (t.1, some (.ok (here :: as, q.1.pixelEvals o g pix x y (leNat mv) ++ bs)))
          | other => (t.1, other)

/-! ### The steps of Loess -/

/-- Loess of a virtual die changed. -/
def State.setLoess (s : State) (die : Nat) (l : Option Loess) : State := s.updDie die fun d => { d with loess := l }

/-- A read of Loess faults: every lane of the word parks and the quad is discarded (R395); an uncorrectable error ends the
operation (R467). -/
def State.loessFault (s : State) (die : Nat) (o : Op) (e : EFault) : State :=
  let s1 := s.setLoess die none
  if e.1 = badRead then s1.engineError o e.2.1 e.2.2
  else
    let p := s1.parkWhole o 1 e
    p.1.putOp p.2

/-- The operation at the head of a die's queue, its warp in focus. -/
def State.loessHead (s : State) (die : Nat) : Option (Op × State) :=
  if s.ndie ≤ die then none
  else (s.die die).loessQ.head?.bind fun o => (s.focus o.warp).map fun s0 => (o, s0)

/-- A RUSE keeps in `aux` the descriptor and the ROT of its issue (log entry 30), and whether the descriptor has been replaced
since: it uses them to its end, and what it then writes is lost (R388, R389). -/
def Op.oldDesc (o : Op) : Option (Nat × Nat) :=
  match o.aux with
  | d :: r :: _ => some (d, r)
  | _ => none
def Op.lostCfg (o : Op) : Bool := decide (2 < o.aux.length)

/-- The reservoir store under a descriptor and a ROT. -/
def State.withGeom (s : State) (d : Option (Nat × Nat)) : State :=
  match d with
  | some q => s.updCtx fun k => { k with rsvDesc := BitVec.ofNat 64 q.1, rot := BitVec.ofNat 32 q.2 }
  | none => s

/-- LOESS_OPERATION_START (R391, R392): Loess takes up the operation at the head of its queue, and reads its next quad;
an operation that still awaits an acquire before it (`State.takeSnaps`) does not start. -/
def execLoessOperationStart (die : Nat) (s : State) : Result :=
  orRefuse "LOESS_OPERATION_START" <|
    (s.loessHead die).bind fun p =>
      let (o, s0) := p
      if (s0.die die).loess.isSome || !(decide (o.st = .queued) || decide (o.st = .running)) || (s0.ctx.map (·.preempt)).getD false
          || !(s0.loessTurn die o) || o.stores.isEmpty then none
      else
        let now := s0.geomNow
        let s1 := s0.withGeom o.oldDesc
        match s1.geom with
        | none => some (s0.endEngine o)
        | some g =>
          let r := s1.readPixels o g 0 o.quadPixels
          let t := r.1.withGeom now
          match r.2 with
          | none => none
          | some (.error e) => some (t.loessFault die o e)
          | some (.ok (ps, es)) =>
            let at_ := now.elim [] fun q => [q.1, q.2]
            some ((t.putOp { o with st := .running, aux := if o.aux.isEmpty then at_ else o.aux }).setLoess die
              (some { op := o.id, pixs := ps, evals := es }))

/-- The registers v0 to v18 of an evaluation (R396). -/
def Loess.regs (q : Loess) (e : LEval) : List Word :=
  match q.pixs[e.pix]? with
  | some p => p.g ++ octetOf e.src ++ [BitVec.ofNat 32 (p.y * 2 ^ 16 + p.x), e.q, BitVec.ofNat 32 e.idx]
  | none => []

/-- The first sixteen evaluations that are ready, by their places. -/
def Loess.batch (q : Loess) : List (Nat × LEval) :=
  ((q.evals.mapIdx fun i e => (i, e)).filter fun p => p.2.st == 0).take 16

/-- An evaluation after its batch: lane l of it gave a value, or failed. -/
def Micro.answer (m : Micro) (l : Nat) (e : LEval) : LEval :=
  match m.s.w.ret.find? fun v => v.1 == l with
  | some (_, v, ray) =>
    if ray.isEmpty then { e with st := 2, value := clean v } else { e with st := 1, value := clean v, ray := ray }
  | none => { e with st := 2, value := 0 }

/-- LOESS_EVALUATION_BATCH (R396): the micro-core runs up to sixteen evaluations. -/
def execLoessEvaluationBatch (die : Nat) (s : State) : Result :=
  orRefuse "LOESS_EVALUATION_BATCH" <|
    (s.loessHead die).bind fun p => (p.2.die die).loess.bind fun q =>
      let (o, s0) := p
      let b := q.batch
      if b.isEmpty then none
      else
        let call := join2 (o.reg 0 10 0) (o.reg 0 11 0)
        let m := Micro.run microFuel
          (s0.microStart die call ((List.range 16).map fun i => o.reg 0 i 0) (b.map fun e => q.regs e.2))
        if m.wait then none
        else
          let s1 := m.finish s0
          match m.err with
          | some x => some (s1.loessFault die o (badRead, x.1, x.2))
          | none =>
            let evals := q.evals.mapIdx fun i e =>
              match b.findIdx? fun x => x.1 == i with
              | some l => m.answer l e
              | none => e
            some ((s1.updDie die fun d => { d with loessStat := d.loessStat ||| m.stat }).setLoess die (some { q with evals := evals }))

/-- The first evaluation that awaits its ray. -/
def Loess.rayAt (q : Loess) : Option (Nat × LEval) :=
  (q.evals.mapIdx fun i e => (i, e)).find? fun p => p.2.st == 1

/-- An evaluation ends, with its target value. -/
def Loess.settle (q : Loess) (i : Nat) (v : Word) : Loess :=
  { q with evals := updateAt q.evals i fun e => { e with st := 2, value := v }, trav := none }

/-- RAYM (R390). -/
def rayM : BitVec 4 := 8

/-- LOESS_RAY_COMPLETE (R394): one visibility ray is traced, with the spill area of the launch whose RUSE it serves (R429); a
ray so long that its steps are used up goes on at the next event. -/
def execLoessRayComplete (die : Nat) (s : State) : Result :=
  orRefuse "LOESS_RAY_COMPLETE" <|
    (s.loessHead die).bind fun p => (p.2.die die).loess.bind fun q => q.rayAt.bind fun ie =>
      let (o, s0) := p
      let (i, e) := ie
      let root := join2 (o.reg 0 14 0) (o.reg 0 15 0)
      let t0 : Trav := { st := 1, ray := e.ray, flags := 0x14FF, root := root }
      if badRay e.ray then some (s0.setLoess die (some (q.settle i 0)))
      else if q.trav.isNone
          && (([4, 5, 6].all fun j => decide (units (nth0 e.ray j) = 0)) || !(t0.tmin.le t0.tmax)) then
        some (s0.setLoess die (some (q.settle i e.value)))
      else
        let t := q.trav.getD { t0 with stack := [{ ref := root, te := t0.tmin.q, inInst := false }] }
        let r := s0.travRun o s0.spills travFuel t
        match r.2.1 with
        | .done u => some (r.1.setLoess die (some (q.settle i (if u.hit.isSome then 0 else e.value))))
        | .malformed _ =>
          some ((r.1.updDie die fun d => { d with loessStat := d.loessStat ||| rayM }).setLoess die (some (q.settle i 0)))
        | .fault x => some (r.1.loessFault die o x)
        | _ => if r.2.2 = t then none else some (r.1.setLoess die (some { q with trav := some r.2.2 }))

/-- The record of a pixel, merged and normalised (R392). -/
def Op.mergePixel (o : Op) (p : LPix) (es : List LEval) : Rec :=
  let cap := capOf (o.par 3 / 2 ^ 16)
  let rnd (j : Nat) : Nat := rnd24 o.ruKey (ctrOf p.x p.y) j
  let c := Rec.ofBits p.cen
  let r0 := ((Rec.ofBits 0).merge c (clean c.phat) (rnd 16) cap).1
  (es.foldl (fun r e =>
    let src := Rec.ofBits e.src
    let q := r.merge src e.value (rnd (17 + e.idx)) cap
    if e.idx = 0 ∧ q.2 = true then { q.1 with age := BitVec.ofNat 7 (min (src.age.toNat + 1) 127) } else q.1) r0).normalise

/-- LOESS_QUAD_COMPLETE (R392): the quad's four records are written to the output layer; the operation is complete with its
last quad. -/
def execLoessQuadComplete (die : Nat) (s : State) : Result :=
  orRefuse "LOESS_QUAD_COMPLETE" <|
    (s.loessHead die).bind fun p => (p.2.die die).loess.bind fun q =>
      let (o, s0) := p
      if q.evals.all fun e => e.st == 2 then
        let now := s0.geomNow
        let s1 := match (s0.withGeom o.oldDesc).geom, o.lostCfg with
          | none, _ => s0
          | some _, true => s0
          | some g, false => State.withGeom (d := now) <| (q.pixs.mapIdx fun i x => (i, x)).foldl (fun s (x : Nat × LPix) =>
              if g.w ≤ x.2.x ∨ g.h ≤ x.2.y then s
              else s.putRsv o g o.ruOut x.2.x x.2.y (o.mergePixel x.2 (q.evals.filter fun e => e.pix == x.1)).toBits) (s0.withGeom o.oldDesc)
        let s2 := s1.setLoess die none
        let o1 := { o with chunk := o.chunk + 1 }
        some (if o1.quads ≤ o1.chunk then s2.endEngine o1 else s2.putOp o1)
      else none

end Sys2Proof.Machine
end

