-- ==== Sys2Proof/Machine/Network.lean ====
section
/-! DEFINITION. The radiance network (R400, R401), its gradients (R405, R406) and the update of its parameters (R407). -/

namespace Sys2Proof.Machine

/-! ### Arithmetic -/

/-- round_f of i × 2^e to FP32, saturating. A sum that is exactly zero is −0 where every term is negative, and +0 otherwise
(R70). -/
def rndF32 (minus : Bool) (i : Int) (e : Int) : Word :=
  BitVec.ofNat 32 (roundF f32 .rne true (decide (i < 0) || (decide (i = 0) && minus)) i.natAbs e).bits
/-- The sign of an encoding. -/
def signOf (x : Word) : Bool := x.getLsbD 31
/-- round_f of an FP32 value to BF16, saturating, as a pattern. -/
def toBf16 (x : Word) : Word := BitVec.ofNat 32 (roundV bf16 .rne true (fval f32 x.toNat)).bits
/-- A BF16 pattern as the FP32 encoding of the same value. -/
def ofBf16 (b : Word) : Word := b <<< 16

/-- acc + w × x, rounded once. -/
def macF32 (acc w x : Word) : Word :=
  rndF32 (signOf acc && signOf w != signOf x) (units acc * 2 ^ 149 + units w * units x) (-298)
def addF32 (a b : Word) : Word := rndF32 (signOf a && signOf b) (units a + units b) (-149)
/-- An FP32 value is positive. -/
def isPos (x : Word) : Bool := decide (0 < units x)

/-- A table of words as an array of the network's parameters. -/
def nParams : Nat := 10692
def paramArray (t : Sparse Word) (g : Word → Word) : Array Word :=
  t.foldl (fun a p => a.set! p.1 (g p.2)) (Array.replicate nParams (g 0))
/-- An array as a table in canonical form. -/
def paramTable (a : Array Word) : Sparse Word :=
  ((List.range nParams).map fun k => (k, a.getD k 0)).filter fun p => p.2 != 0

/-! ### The forward pass (R400, R401) -/

/-- Inputs, outputs, first weight and first bias of a layer. -/
structure Layer where
  nin  : Nat
  nout : Nat
  wb   : Nat
  bb   : Nat

def layer (j : Nat) : Layer :=
  if j = 0 then { nin := 32, nout := 64, wb := 0, bb := 2048 }
  else if j = 1 then { nin := 64, nout := 64, wb := 2112, bb := 6208 }
  else if j = 2 then { nin := 64, nout := 64, wb := 6272, bb := 10368 }
  else { nin := 64, nout := 4, wb := 10432, bb := 10688 }

/-- The sums of one layer; parameters and inputs as FP32 encodings of BF16 values. -/
def layerSums (q : Array Word) (y : Layer) (x : Array Word) : Array Word :=
  ((List.range y.nout).map fun o =>
    (List.range y.nin).foldl (fun acc i => macF32 acc (q.getD (y.wb + o * y.nin + i) 0) (x.getD i 0))
      (q.getD (y.bb + o) 0)).toArray

/-- What a hidden layer passes on. -/
def relu (a : Array Word) : Array Word := a.map fun x => if isPos x then ofBf16 (toBf16 x) else 0

/-- The forward pass: the inputs and the sums of the layers from j on. -/
def forward (q : Array Word) (x : Array Word) : Nat → Nat → List (Array Word × Array Word)
  | _, 0 => []
  | j, n + 1 =>
    let a := layerSums q (layer j) x
    (x, a) :: forward q (relu a) (j + 1) n

/-- rc_fwd (R401). -/
def rcFwd (q x : Array Word) : List Word :=
  match (forward q x 0 4).getLast? with
  | some p => p.2.toList
  | none => []

/-! ### Gradients (R405) -/

/-- The gradients of layer j for the errors `g`, added to the sums. -/
def gradLayer (gd : Array Word) (y : Layer) (g x : Array Word) : Array Word :=
  let gd1 := (List.range y.nout).foldl (fun gd o =>
    (List.range y.nin).foldl (fun gd i =>
      let k := y.wb + o * y.nin + i
      gd.set! k (macF32 (gd.getD k 0) (g.getD o 0) (x.getD i 0))) gd) gd
  (List.range y.nout).foldl (fun gd o => gd.set! (y.bb + o) (addF32 (gd.getD (y.bb + o) 0) (g.getD o 0))) gd1

/-- The errors of the layer below. -/
def errBelow (q : Array Word) (y : Layer) (g below : Array Word) : Array Word :=
  ((List.range y.nin).map fun i =>
    let d := (List.range y.nout).foldl (fun d o => macF32 d (q.getD (y.wb + o * y.nin + i) 0) (g.getD o 0)) 0
    if isPos (below.getD i 0) then d else 0).toArray

/-- The layers from `n − 1` down to 0, each with its inputs and its sums, lowest last. -/
def backward (q : Array Word) (gd : Array Word) (g : Array Word) : Nat → List (Array Word × Array Word) → Array Word
  | n + 1, (x, _) :: below =>
    let y := layer n
    let gd1 := gradLayer gd y g x
    match below with
    | (_, a) :: _ => backward q gd1 (errBelow q y g a) n below
    | [] => gd1
  | _, _ => gd

/-- rc_grad (R405) of a sample: its key, inputs and targets. -/
def rcGrad (q : Array Word) (gd : Array Word) (s : List Word) : Array Word :=
  let xs := (((s.drop 1).take 32).map ofBf16).toArray
  let fw := (forward q xs 0 4).reverse
  let out := match fw with
    | (_, a) :: _ => a
    | [] => #[]
  let g := ((List.range 4).map fun k => addF32 (out.getD k 0) ((s.drop 33).getD k 0 ^^^ 0x80000000)).toArray
  backward q gd g 4 fw

/-- The samples of a step: the lowest occupied slots of the closed bank, at most 4,096. -/
def stepSamples (bank : Sparse (List Word)) : Sparse (List Word) := bank.take 4096

/-- The sums of every die, added in virtual die order (R406). -/
def stepSum (nd : Nat) (q : Array Word) (samples : Sparse (List Word)) : Array Word :=
  let zero := Array.replicate nParams (0 : Word)
  let die (d : Nat) : Array Word := (samples.filter fun p => p.1 % nd == d).foldl (fun gd p => rcGrad q gd p.2) zero
  (List.range (nd - 1)).foldl (fun sum d =>
    let g := die (d + 1)
    (sum.toList.zipWith addF32 g.toList).toArray) (die 0)

/-! ### The update (R407) -/

/-- The value of a finite FP32 encoding. -/
def ratOf (b : Word) : Rat := (units b : Rat) / 2 ^ 149

/-- a × √r ≤ b, exactly, for r at least 0. -/
def sqrtLe (a r b : Rat) : Bool :=
  if a ≤ 0 then decide (0 ≤ b) || decide (b * b ≤ a * a * r) else decide (0 ≤ b) && decide (a * a * r ≤ b * b)

/-- An exact real value x, by its comparisons with rationals: c ≤ x, and x ≤ c. -/
structure Cut where
  le : Rat → Bool
  ge : Rat → Bool

/-- The value m − n / (√r + e), for r at least 0 and e above 0. -/
def stepCut (m n r e : Rat) : Cut :=
  { le := fun c => sqrtLe (-(m - c)) r ((m - c) * e - n), ge := fun c => sqrtLe (m - c) r (n - (m - c) * e) }

/-- The finite FP32 value of order i: 0 is zero, its successors the positive values in order. -/
def f32At (i : Int) : Rat := (if i < 0 then -1 else 1) * ratOf (BitVec.ofNat 32 i.natAbs)

/-- The greatest order i from lo up, within 2^n, for which `le` holds of the value; `le` holds at lo. -/
def searchF32 (le : Rat → Bool) : Nat → Int → Int
  | 0, lo => lo
  | n + 1, lo => if lo + 2 ^ n ≤ 0x7F7FFFFF ∧ le (f32At (lo + 2 ^ n)) = true then searchF32 le n (lo + 2 ^ n) else searchF32 le n lo

/-- round_f of an exact value to the nearest FP32 encoding, ties to even, saturating; `minus` is the sign of an exact zero. -/
def Cut.round (x : Cut) (minus : Bool) : Word :=
  if x.le 0 && x.ge 0 then (if minus then 0x80000000 else 0)
  else if !(x.le (f32At (-0x7F7FFFFF))) then 0xFF7FFFFF
  else
    let i := searchF32 x.le 32 (-0x7F7FFFFF)
    if i = 0x7F7FFFFF then 0x7F7FFFFF
    else
      let mid := (f32At i + f32At (i + 1)) / 2
      let up := if x.ge mid then x.le mid && decide (i % 2 ≠ 0) else true
      let j := if up then i + 1 else i
      if j < 0 ∨ (j = 0 ∧ x.le 0 = false) then BitVec.ofNat 32 (2 ^ 31 + j.natAbs) else BitVec.ofNat 32 j.natAbs

/-- 1 − b, for b in [0, 1), in units of 2^−149. -/
def oneLess (b : Word) : Int := 2 ^ 149 - units b

/-- The moments and the parameter after a step, for the mean gradient g (R407). -/
def newM1 (b1 m1 g : Word) : Word :=
  rndF32 ((signOf b1 != signOf m1) && signOf g) (units b1 * units m1 + oneLess b1 * units g) (-298)
def newM2 (b2 m2 g : Word) : Word := rndF32 false (units b2 * units m2 * 2 ^ 149 + oneLess b2 * units g * units g) (-447)
def newMaster (k : Rad) (t : Nat) (w m1 m2 : Word) : Word :=
  (stepCut (ratOf w) (ratOf k.lr * (ratOf m1 / (1 - ratOf k.b1 ^ t))) (ratOf m2 / (1 - ratOf k.b2 ^ t)) (ratOf k.eps)).round
    (signOf w && signOf k.lr == signOf m1)

/-- A sum divided by the number of samples. -/
def meanOf (sum : Word) (n : Nat) : Word :=
  let u := units sum
  BitVec.ofNat 32 (roundV f32 .rne true (divFin (signOf sum) u.natAbs (-149) false n 0)).bits

/-- A step of Yarrow (R405 to R407): with no sample it only counts. -/
def Rad.yarrow (k : Rad) (nd : Nat) : Rad :=
  let sam := stepSamples k.closed
  let k1 : Rad := { k with sdn := k.sdn + 1, step := false }
  if sam.isEmpty then k1
  else
    let sum := stepSum nd (paramArray k.master fun w => ofBf16 (toBf16 w)) sam
    let t := k.t + 1
    let at_ (a : Array Word) (i : Nat) : Word := a.getD i 0
    let old := paramArray k.master id
    let m1 := paramArray k.m1 id
    let m2 := paramArray k.m2 id
    let g := ((List.range nParams).map fun i => meanOf (at_ sum i) sam.length).toArray
    let n1 := ((List.range nParams).map fun i => newM1 k.b1 (at_ m1 i) (at_ g i)).toArray
    let n2 := ((List.range nParams).map fun i => newM2 k.b2 (at_ m2 i) (at_ g i)).toArray
    let w := ((List.range nParams).map fun i => newMaster k t.toNat (at_ old i) (at_ n1 i) (at_ n2 i)).toArray
    { k1 with t := t, m1 := paramTable n1, m2 := paramTable n2, master := paramTable w }

/-- The query weights that a master gives (R404). -/
def Rad.install (k : Rad) : Rad :=
  { k with query := (k.master.map fun p => (p.1, toBf16 p.2)).filter fun p => p.2 != 0 }

/-! ### Samples (R403) -/

/-- The slot of a key. -/
def slotOf (key : Word) : Nat := bitsOf ((key.toNat * 0x9E3779B1) % 2 ^ 32) 31 18

/-- One sample is below another: by its words as unsigned patterns. -/
def sampleLt : List Word → List Word → Bool
  | a :: as, b :: bs => decide (a.toNat < b.toNat) || (decide (a = b) && sampleLt as bs)
  | _, _ => false

/-- A sample stored in a bank, and whether a collision discarded one. -/
def storeSample (bank : Sparse (List Word)) (s : List Word) : Sparse (List Word) × Bool :=
  let h := slotOf (s.headD 0)
  match bank.get [] h with
  | [] => (bank.set [] h s, false)
  | old => if old = s then (bank, false) else (bank.set [] h (if sampleLt s old then s else old), true)

end Sys2Proof.Machine
end

