-- ==== Sys2Proof/Machine/Radiance.lean ====
section
/-! DEFINITION. The radiance-cache class (R402 to R404, R408 to R419): the words, the query units, the optimiser's steps and
the changes of generation. -/

namespace Sys2Proof.Machine

/-! ### State -/

def State.rad (s : State) : Rad :=
  match s.ctx with
  | some k => k.rad
  | none => {}
def State.mapRad (s : State) (g : Rad → Rad) : State := s.updCtx fun k => { k with rad := g k.rad }

/-- Status bits NFIN, DROP, COLL and IMG (R419). -/
def nFin : BitVec 4 := 1
def dropS : BitVec 4 := 2
def collS : BitVec 4 := 4
def imgS : BitVec 4 := 8
def State.radFlag (s : State) (die : Nat) (b : BitVec 4) : State := s.updDie die fun d => { d with radStat := d.radStat ||| b }

/-- The operations of every query unit. -/
def State.radOps (s : State) : List Op := (List.range s.ndie).flatMap fun d => (s.die d).radq

/-- The cluster of an operation's workgroup. -/
def State.clusterOf (s : State) (o : Op) : Nat :=
  match s.wgOf o.wg with
  | some g => cluster g.core
  | none => 0

/-- The status quad of a die (R419). -/
def State.radQuad (s : State) (die : Nat) : List Nat :=
  let k := s.rad
  let held (b : Sparse (List Word)) : Nat := b.countP fun p => p.1 % s.ndie == die
  [k.gen.toNat % 2 ^ 32, k.sdn % 2 ^ 16 + k.ns * 2 ^ 16, held k.opened + held k.closed * 2 ^ 16, (s.die die).radStat.toNat]

/-- RCSTEP.wait samples its quad in the first clock in which SDN = NS (R419). -/
def State.sampleSteps (s : State) : State :=
  if s.rad.sdn = s.rad.ns then
    s.radOps.foldl (fun s o =>
      if o.code = 0x185 ∧ o.x.ext.toNat % 8 = 1 ∧ o.aux = [] then
        match s.wgOf o.wg with
        | some g => s.putOp { o with aux := s.radQuad g.die }
        | none => s
      else s) s
  else s

/-! ### Issue (R408) -/

/-- The global range of RCWLD and RCWST (R415, R418). -/
def imageSize : Nat := 128368
def Op.imageAt (o : Op) : Nat := effAddr 0 (o.val64 0 0).toNat o.x.offset

/-- The checks of R289 at issue, with alignment 16. -/
def State.imageFault (s : State) (o : Op) : Option EFault :=
  match s.windowFault o.imageAt imageSize with
  | some e => some e
  | none => if o.imageAt % 16 ≠ 0 then some (3, 0, o.imageAt) else none

/-- An operation enters the query unit of its cluster; a fault of the checks at issue parks the word. -/
def State.radEnter (s : State) (o : Op) : State :=
  if o.code = 0x183 ∨ o.code = 0x184 then
    match s.imageFault o with
    | some e =>
      let r := s.parkWhole o (if o.code = 0x183 then 1 else 2) e
      { r.1 with w := { r.1.w with parked := r.1.w.parked ++ [r.2] } }
    | none => s.updDie s.g.die fun d => { d with radq := d.radq ++ [o] }
  else s.updDie s.g.die fun d => { d with radq := d.radq ++ [o] }

/-- A word of the class issues; a 33rd operation of the cluster's unit is refused issue. -/
def State.radWord (s : State) (code : Nat) (f : FmtA) (x : Upper) (wid : List Nat) (vdst wdst : List Nat) (aux : List Nat := [])
    (after : State → State := id) : Result :=
  let e := s.execSet f.cond
  let log := decide (code = 0x183) || decide (code = 0x184)
  if e = 0 then s.retireLong
  else if 32 ≤ (s.die s.g.die).radq.countP fun o => s.clusterOf o == cluster s.g.core then .next s
  else
    let k := if log then s.freeLog else none
    if log && k.isNone then s.refuseLog
    else
      let o := { s.mkOp code f x wid e with cls := some .rad, aux := aux, logi := k }
      let s1 := (s.addOut o vdst wdst (decide (code = 0x184))).advance 16
      let s2 := match k with
        | some k => s1.takeLog k o.id
        | none => s1
      .next (after (s2.radEnter o))

/-- RCQ (R413). -/
def execRcq (f : FmtA) (x : Upper) (s : State) : Result := s.radWord 0x180 f x [16, 0, 0] (regs f.dst 4) []
/-- RCQ.train (R413). -/
def execRcqTrain (f : FmtA) (x : Upper) (s : State) : Result := s.radWord 0x181 f x [16, 4, 1] (regs f.dst 4) []
/-- RCGEN (R414). -/
def execRcgen (f : FmtA) (x : Upper) (s : State) : Result := s.radWord 0x182 f x [] [] (regs f.dst 1)
/-- RCWLD (R416, R418). -/
def execRcwld (f : FmtA) (x : Upper) (s : State) : Result := s.radWord 0x183 f x [2, 0, 0] [] []
/-- RCWST (R417, R418). -/
def execRcwst (f : FmtA) (x : Upper) (s : State) : Result := s.radWord 0x184 f x [2, 0, 0] [] []
/-- RCSTEP.stat (R419): its quad is read at issue. -/
def execRcstepStat (f : FmtA) (x : Upper) (s : State) : Result :=
  s.radWord 0x185 f x [] [] (regs f.dst 4) (s.radQuad s.g.die)
/-- RCSTEP.wait (R419): where SDN = NS at issue, its quad is sampled then. -/
def execRcstepWait (f : FmtA) (x : Upper) (s : State) : Result :=
  s.radWord 0x185 f x [] [] (regs f.dst 4) (if s.rad.sdn = s.rad.ns then s.radQuad s.g.die else [])
/-- RCSTEP.clr (R419): the quad is read at issue, and the flags are then cleared. -/
def execRcstepClr (f : FmtA) (x : Upper) (s : State) : Result :=
  s.radWord 0x185 f x [] [] (regs f.dst 4) (s.radQuad s.g.die) fun s => s.updDie s.g.die fun d => { d with radStat := 0 }

/-! ### Queries (R409, R413) -/

/-- The inputs of a lane as BF16 patterns, those that are not finite as +0, and whether there was such a one. -/
def Op.inputs (o : Op) (l : Nat) : List Word × Bool :=
  let raw := (List.range 32).map fun i =>
    let r := o.reg 0 (i / 2) l
    if i % 2 = 0 then r.extractLsb' 0 16 else r.extractLsb' 16 16
  (raw.map fun b => if b.extractLsb' 7 8 = 0xFF then 0 else b.setWidth 32, raw.any fun b => b.extractLsb' 7 8 == 0xFF)

/-- A pre-emption is under way: no query begins, and Yarrow no step (R410). -/
def State.preempting (s : State) : Bool := (s.ctx.map (·.preempt)).getD false

/-- A query of a unit has not been evaluated. -/
def Op.isQuery (o : Op) : Bool := (decide (o.code = 0x180) || decide (o.code = 0x181)) && decide (o.chunk = 0)

/-- A query evaluated for all its lanes. -/
def State.evalQuery (s : State) (o : Op) : State :=
  let q := paramArray s.rad.query ofBf16
  (lanesOf o.e).foldl (fun s l =>
    let x := o.inputs l
    (if x.2 then s.radFlag s.g.die nFin else s).putLane o.f.dst.toNat l (rcFwd q (x.1.map ofBf16).toArray)) s

/-- The targets of a lane; none where one of them is not finite. -/
def Op.targets (o : Op) (l : Nat) : Option (List Word) :=
  let t := (List.range 4).map fun i => o.reg 1 i l
  if t.all isFinite then some t else none

/-- The lanes of RCQ.train whose samples are under way: those with a target that is not finite are dropped at once. -/
def State.sendSamples (s : State) (o : Op) : State :=
  let lost := laneSet fun l => inSet o.e l && (o.targets l).isNone
  let s1 := if lost = 0 then s else s.radFlag s.g.die dropS
  let o1 := { o with chunk := 1, pcm := lost }
  if o1.e &&& ~~~lost = 0 then s1.endEngine o1 else s1.putOp o1

/-- No older operation that goes to the hub stands before this one: one of its warp, or one of its query unit, which serves its
queue in arrival order (R404, R408). One of another warp whose lanes are parked has not reached the hub. -/
def State.hubTurn (s : State) (o : Op) : Bool :=
  !((s.die s.g.die).radq.any fun p => decide (p.id < o.id) && decide (0x182 ≤ p.code) && decide (p.code ≤ 0x184)
    && (decide (p.warp = o.warp) || (decide (s.clusterOf p = s.clusterOf o) && decide (p.st ≠ .parked) && decide (p.st ≠ .resumable))))

/-! ### The image (R415 to R418) -/

/-- The bytes of the image of the state. -/
def Rad.image (k : Rad) : List Byte :=
  let arr (t : Sparse Word) : List Byte := (paramArray t id).toList.flatMap fun w => leBytes 4 w.toNat
  leBytes 8 k.t.toNat ++ leBytes 4 k.lr.toNat ++ leBytes 4 k.b1.toNat ++ leBytes 4 k.b2.toNat ++ leBytes 4 k.eps.toNat
    ++ leBytes 1 k.ns ++ List.replicate 39 0 ++ arr k.master ++ arr k.m1 ++ arr k.m2

/-- A table of parameters from bytes. -/
def tableOf (bs : List Byte) : Sparse Word := paramTable (wordsOf bs nParams).toArray

/-- The header's rules and the finiteness of the arrays. -/
def imageOk (hd : List Byte) (master m1 m2 : Sparse Word) : Bool :=
  let w (i : Nat) : Word := wordAt hd i
  let unit (b : Word) : Bool := decide (b.toNat < 0x3F800000)
  (hd.drop 25).all (fun b => b == 0)
    && decide ((w 2).toNat < 0x7F800000) && unit (w 3) && unit (w 4)
    && decide (0 < (w 5).toNat) && decide ((w 5).toNat < 0x7F800000)
    && (master.all fun p => isFinite p.2) && (m1.all fun p => isFinite p.2)
    && m2.all fun p => decide (p.2.toNat < 0x7F800000)

/-- The whole image, read: it is checked and taken, or refused with IMG (R416). -/
def State.takeImage (s : State) (bs : List Byte) : State :=
  let hd := bs.take 64
  let master := tableOf (bs.drop 64)
  let m1 := tableOf (bs.drop 42832)
  let m2 := tableOf (bs.drop 85600)
  if imageOk hd master m1 m2 then
    s.mapRad fun k => ({ k with
      t := BitVec.ofNat 64 (leNat (hd.take 8)), lr := wordAt hd 2, b1 := wordAt hd 3, b2 := wordAt hd 4, eps := wordAt hd 5,
      ns := byteAt hd 24, master := master, m1 := m1, m2 := m2, sdn := 0 } : Rad).install
  else s.radFlag s.g.die imgS

/-- The chunks of the image's range from the operation's next one on (R289). -/
def Op.imageCuts (o : Op) : List (Nat × Nat) := (cuts o.imageAt 0 imageSize).drop o.chunk

/-- Chunks done one after another until the end, a fault or a wait; `step` does one. -/
def imageChunks (kind : Kind) (o : Op) (go : State → Op → List Xl → Nat × Nat → State × Op) :
    State → Op → List (Nat × Nat) → State × Op × Option (Except EFault Unit)
  | s, o1, [] => (s, o1, some (.ok ()))
  | s, o1, p :: ps =>
    let va := (o.imageAt + p.1) % 2 ^ 64
    if s.heldAt va kind || s.warpFirst o1 va p.2 then (s, o1, none)
    else
      let r := checkPieces s kind [va]
      match r.2 with
      | none => (s, o1, none)
      | some (.error e) => (r.1, o1, some (.error e))
      | some (.ok xs) =>
        match (if kind = .read then r.1.engineBad xs va p.2 else none) with
        | some (l, a) => (r.1, o1, some (.error (badRead, l, a)))
        | none =>
          let q := go r.1 o1 xs p
          imageChunks kind o go q.1 { q.2 with chunk := o1.chunk + 1 } ps

/-- A fault of a chunk parks every lane; an uncorrectable error ends the operation. -/
def State.imageStop (s : State) (o : Op) (acc : Nat) (e : EFault) : State :=
  if e.1 = badRead then s.engineError o e.2.1 e.2.2
  else
    let p := s.parkWhole o acc e
    p.1.putOp p.2

/-- The chunks of RCWLD: their bytes are kept in the operation. -/
def readChunk (s : State) (o : Op) (xs : List Xl) (p : Nat × Nat) : State × Op :=
  let va := (o.imageAt + p.1) % 2 ^ 64
  (s.engineFill xs va p.2 o.evp, { o with aux := o.aux ++ (s.engineRead o.kept xs va p.2).map (·.toNat) })
/-- The chunks of RCWST. -/
def writeChunk (bs : List Byte) (s : State) (o : Op) (xs : List Xl) (p : Nat × Nat) : State × Op :=
  (s.engineWrite o xs ((o.imageAt + p.1) % 2 ^ 64) o.evp ((bs.drop p.1).take p.2), o)

/-- RCWST at a step boundary (R417). -/
def State.storeImage (s : State) (o : Op) : Option State :=
  let r := imageChunks .write o (writeChunk s.rad.image) s o o.imageCuts
  match r.2.2 with
  | none => if r.2.1.chunk = o.chunk then none else some (r.1.putOp r.2.1)
  | some (.error e) => some (r.1.imageStop r.2.1 2 e)
  | some (.ok _) => some (r.1.endEngine r.2.1)

/-- An RCWST has begun and is not done. -/
def State.storing (s : State) : Bool := s.radOps.any fun o => decide (o.code = 0x184) && decide (0 < o.chunk)

/-! ### The events -/

/-- The operation may act: it stands in a query unit and its lanes are not parked. -/
def State.radAt (s : State) (o : Op) : Bool :=
  ((s.die s.g.die).radq.any fun p => p.id == o.id) && decide (o.st ≠ .parked) && decide (o.st ≠ .resumable)

/-- RADIANCE_QUERY_COMPLETE (R408, R413, R417, R419): a query is evaluated in its unit's arrival order; RCWST writes its
image; a sampled RCSTEP writes its quad. -/
def execRadianceQueryComplete (op : Nat) (s : State) : Result :=
  orRefuse "RADIANCE_QUERY_COMPLETE" <|
    (s.focusOp op).bind fun p =>
      let (o, s0) := p
      if !(s0.radAt o) then none
      else if o.isQuery then
        if s0.preempting || (s0.die s0.g.die).radq.any fun q => q.isQuery && decide (q.id < o.id) && decide (s0.clusterOf q = s0.clusterOf o) then none
        else if o.code = 0x180 then some ((s0.evalQuery o).endEngine o)
        else some ((s0.evalQuery o).sendSamples o)
      else if o.code = 0x184 then
        if s0.rad.step || !(s0.hubTurn o) then none else s0.storeImage o
      else if o.code = 0x185 ∧ o.aux ≠ [] then
        some (((List.range 4).foldl (fun s i => s.setU (o.f.dst.toNat + i) (BitVec.ofNat 32 ((o.aux[i]?).getD 0))) s0).endEngine o)
      else none

/-- SAMPLE_ARRIVAL (R403): the sample of the lowest lane of RCQ.train still under way reaches its holding die. -/
def execSampleArrival (op : Nat) (s : State) : Result :=
  orRefuse "SAMPLE_ARRIVAL" <|
    (s.focusOp op).bind fun p =>
      let (o, s0) := p
      if !(s0.radAt o) || decide (o.code ≠ 0x181) || decide (o.chunk = 0) then none
      else
        (lowestLane (o.e &&& ~~~o.pcm)).map fun l =>
          let key := o.val32 2 l
          let r := storeSample s0.rad.opened (key :: ((o.inputs l).1 ++ (o.targets l).getD []))
          let s1 := s0.mapRad fun k => { k with opened := r.1 }
          let s2 := if r.2 then s1.radFlag (slotOf key % s0.ndie) collS else s1
          let o1 := o.laneDone l
          if o1.e &&& ~~~o1.pcm = 0 then s2.endEngine o1 else s2.putOp o1

/-- The oldest operation of an opcode whose turn at the hub has come; of words of different units it is the one issued first
(DESIGN CHOICE, log entry 54). -/
def State.hubHead (s : State) (code : Nat) : Option Op :=
  (s.radOps.filter fun o => decide (o.code = code) && decide (o.st ≠ .parked) && decide (o.st ≠ .resumable)
      && (s.focus o.warp).any fun t => t.hubTurn o).foldl
    (fun (b : Option Op) o => match b with
      | none => some o
      | some p => if o.id < p.id then some o else b) none

/-- Every query that a weight installation follows has been evaluated (R409). -/
def State.unitsClear (s : State) : Bool := !(s.radOps.any fun o => o.isQuery)

/-- GENERATION_CHANGE (R404, R414): the oldest RCGEN takes effect once SDN = NS and the queries before it are done. -/
def execGenerationChange (s : State) : Result :=
  orRefuse "GENERATION_CHANGE" <|
    (s.hubHead 0x182).bind fun o => (s.focus o.warp).bind fun s0 =>
      if s0.rad.sdn ≠ s0.rad.ns ∨ s0.unitsClear = false ∨ s0.rad.step = true then none
      else
        let s1 := s0.mapRad fun k => { k.install with gen := k.gen + 1, sdn := 0, closed := k.opened, opened := [] }
        some (((s1.setU o.f.dst.toNat (s1.rad.gen.setWidth 32)).endEngine o).sampleSteps)

/-- YARROW_STEP_START (R562): Yarrow begins a step while SDN is below NS and nothing holds it. -/
def execYarrowStepStart (s : State) : Result :=
  orRefuse "YARROW_STEP_START" <|
    if s.ctx.isNone ∨ s.rad.step = true ∨ s.rad.ns ≤ s.rad.sdn ∨ s.storing = true ∨ s.preempting = true then none
    else some (s.mapRad fun k => { k with step := true })

/-- YARROW_STEP_COMPLETE (R405 to R407). -/
def execYarrowStepComplete (s : State) : Result :=
  orRefuse "YARROW_STEP_COMPLETE" <|
    if s.rad.step then some (s.mapRad fun k => k.yarrow s.ndie).sampleSteps else none

/-- RCWLD_APPLY (R416, R418): the image is read, chunk by chunk; the word then waits at the hub, and between steps the image is
checked and taken. -/
def execRcwldApply (op : Nat) (s : State) : Result :=
  orRefuse "RCWLD_APPLY" <|
    (s.focusOp op).bind fun p =>
      let (o, s0) := p
      if !(s0.radAt o) || decide (o.code ≠ 0x183) then none
      else if !o.imageCuts.isEmpty then
        let r := imageChunks .read o readChunk s0 o o.imageCuts
        match r.2.2 with
        | none => if r.2.1.chunk = o.chunk then none else some (r.1.putOp r.2.1)
        | some (.error e) => some (r.1.imageStop r.2.1 1 e)
        | some (.ok _) => some ((r.1.dropLog o.logi).putOp { r.2.1 with logi := none })
      else if !(s0.hubTurn o) || s0.rad.step || s0.storing || !s0.unitsClear then none
      else some (((s0.takeImage (o.aux.map (BitVec.ofNat 8))).endEngine o).sampleSteps)

end Sys2Proof.Machine
end

