-- ==== Sys2Proof/Machine/System.lean ====
section
/-! DEFINITION. The system and trap class (R487 to R500): traps, the return from the handler, the handler registers, the
sticky flags, counters, messages, the ends of contexts, contexts that are switched out, and the host mailbox with the host's two
events on it. -/

namespace Sys2Proof.Machine

/-- A word of the class that acts once where its executing set holds a lane, and does nothing where it is empty (R488). -/
def State.onceWord (s : State) (f : FmtA) (act : State → State) : Result :=
  (if s.execSet f.cond = 0 then s else act s).retire f

/-! ### Traps (R489, R490, R493) -/

/-- TRAP (R489): cause 0x01, with the code in ARG; the lanes resume after it. -/
def execTrap (f : FmtA) (s : State) : Result :=
  let e := s.execSet f.cond
  if e = 0 then s.retire f
  else .next (s.trapAfter 1 (infoWord (s.usrc32 f f.sa).toNat 0) e (fmtLen f))

/-- A debugger is attached to the context (R478). -/
def State.debugged (s : State) : Bool :=
  match s.ctx with
  | some k => k.debugger
  | none => false

/-- BKPT (R489, R478): the warp halts where a debugger is attached, standing after the word; otherwise cause 0x02. -/
def execBkpt (f : FmtA) (s : State) : Result :=
  let e := s.execSet f.cond
  if e = 0 then s.retire f
  else if s.debugged then
    let s1 := s.advance (fmtLen f)
    .next { s1 with w := { s1.w with halted := true } }
  else .next (s.trapAfter 2 (infoWord 0 0) e (fmtLen f))

/-- Entries that the handler's own lanes hold parked are discarded at its return, as the live table is, with its holds (R490). -/
def State.discardHandler (s : State) : State :=
  let mine := s.allOps.filter fun o => o.warp == s.w.id && o.inH && decide (o.park ≠ 0)
  let s0 := mine.foldl (fun s o =>
    let s1 := (s.mapOp o.id fun _ => none).dropLog o.logi
    { s1 with w := s1.w.finish o.id }) s
  let w1 : Warp := { s0.w with pend := s0.w.pend.filter fun o => !(decide (o.code = 0x129) && o.inH) }
  { s0 with w := s0.w.sync.ids.foldl Warp.finish w1 }

/-- RETH (R490): the shadow is restored, and a trap that it holds back, a wait that has ended, or an arrival that it kept,
follows. -/
def execReth (f : FmtA) (s : State) : Result :=
  let e := s.execSet f.cond
  if e = 0 then s.retire f
  else if !s.w.inHandler then .next (s.trapHere 0x0E 0x80 e)
  else
    let target := if f.md.getLsbD 0 then some (s.usrc64 f f.sa) else none
    let s1 := (s.discardHandler).leaveHandler target
    let s2 : State := { s1 with w := { s1.w with halted := s1.w.halted || s1.w.single } }
    .next s2.failTrap.waitcCheck.tryArrive.drain

/-- ASRT (R493): cause 0x07 where some executing lane reads zero. -/
def execAsrt (f : FmtA) (s : State) : Result :=
  let e := s.execSet f.cond
  let bad := laneSet fun l => inSet e l && decide (s.src32 f f.sa l = 0)
  if bad = 0 then s.retire f
  else .next (s.trapAfter 7 (infoWord (s.usrc32 f f.sb).toNat 0) bad (fmtLen f))

/-! ### Handler registers and sticky flags (R463, R491, R492) -/

/-- SEL of THRD and THWR. -/
def thSel (f : FmtA) : Nat := f.md.toNat / 2 % 8

/-- A handler register of 32 bits. -/
def Handler.word (h : Handler) (sel : Nat) : Word :=
  if sel = 0 then h.amask else if sel = 1 then h.fmask else if sel = 2 then h.cause.setWidth 32 else h.info

/-- THRD (R491). -/
def execThrd (f : FmtA) (s : State) : Result :=
  (if thSel f = 4 then s.putByU2 f (s.w.th.epc.setWidth 64) else s.putByU f fun _ => s.w.th.word (thSel f)).retire f

/-- A handler register written; reserved bits stay 0 (R463). -/
def Handler.put (h : Handler) (sel : Nat) (x : Word64) : Handler :=
  let w : Word := x.setWidth 32
  if sel = 0 then { h with amask := w } else if sel = 1 then { h with fmask := w }
  else if sel = 2 then { h with cause := x.setWidth 8 } else if sel = 3 then { h with info := w &&& 0xFFFFDFFF }
  else { h with epc := x.setWidth 56 }

/-- THWR (R491). -/
def execThwr (f : FmtA) (s : State) : Result :=
  s.onceWord f fun s => { s with w := { s.w with
    th := s.w.th.put (thSel f) (if thSel f = 4 then s.usrc64 f f.sa else (s.usrc32 f f.sa).setWidth 64) } }

/-- FSTK (R492): every earlier word's flags are ORed in by then. A warp that runs ahead leaves flags untouched (R77). -/
def execFstk (f : FmtA) (s : State) : Result :=
  ((({ s with w := { s.w with late := if s.w.ra.isSome then s.w.late else [] } } : State)).putByU f fun _ =>
    s.w.sticky.setWidth 32).retire f

/-- FSTKCLR (R492): flags of words whose latency has not ended are ORed in after it. -/
def execFstkclr (f : FmtA) (s : State) : Result :=
  s.onceWord f fun s => { s with w := { s.w with
    sticky := (s.w.sticky &&& ~~~((s.usrc32 f f.sa).setWidth 5)) ||| s.lateFlags, late := s.lateNow } }

/-! ### Performance counters (R494) -/

/-- The counter that SA names. -/
def State.pmcIndex (s : State) (f : FmtA) : Nat := (s.usrc32 f f.sa).toNat % 8

/-- PMCRD (R494). -/
def execPmcrd (f : FmtA) (s : State) : Result := (s.putByU2 f (s.g.pmc.get 0 (s.pmcIndex f))).retire f

/-- PMCCFG (R494). -/
def execPmccfg (f : FmtA) (s : State) : Result :=
  s.onceWord f fun s => { s with g := { s.g with
    pmcEv := s.g.pmcEv.set 0 (s.pmcIndex f) ((s.usrc32 f f.sb).setWidth 8) } }

/-- PMCCLR (R494). -/
def execPmcclr (f : FmtA) (s : State) : Result :=
  s.onceWord f fun s => { s with g := { s.g with pmc := s.g.pmc.set 0 (s.pmcIndex f) 0 } }

/-! ### Messages, ends and records (R495, R496, R498) -/

/-- A message to the debug port: dropped and counted where the FIFO is full. -/
def Hub.message (k : Hub) (m : DbgMsg) : Hub :=
  if k.dbg.length < 256 then { k with dbg := k.dbg ++ [m] } else { k with dbgDropped := k.dbgDropped + 1 }

/-- DBGMSG (R495). -/
def execDbgmsg (f : FmtA) (s : State) : Result :=
  (if s.debugged then
    { s with hub := (lanesOf (s.execSet f.cond)).foldl (fun k l =>
        k.message { lane := l, value := s.src32 f f.sa l, tag := (s.usrc32 f f.sb).toNat % 2 ^ 16 }) s.hub }
  else s).retire f

/-- CTXEND (R496). -/
def execCtxend (f : FmtA) (s : State) : Result :=
  if s.execSet f.cond = 0 then s.retire f
  else .next (s.endContext (s.recordHere { kind := 0x12, detail := (s.usrc32 f f.sa).toNat, epc := s.pc.toNat }))

/-- ERRQ (R498). -/
def execErrq (f : FmtA) (s : State) : Result :=
  s.onceWord f fun s => s.record (s.recordHere
    { kind := 0x20, va := (s.usrc64 f f.sa).toNat, detail := (s.usrc32 f f.sb).toNat, epc := s.pc.toNat })

/-! ### Contexts that are switched out -/

def State.savedOf (s : State) (num : Nat) : Option Saved := s.saved.find? fun v => v.ctx.num == num

/-- A die with the context's part of another. -/
def Die.withPart (d p : Die) : Die :=
  { d with rsv := p.rsv, halo := p.halo, loessQ := p.loessQ, loess := p.loess, loessStat := p.loessStat, radq := p.radq,
           radStat := p.radStat }

/-- Something done to a switched-out context (fault service goes on there): the machine afterwards. -/
def State.inSaved (s : State) (num : Nat) (f : State → State) : State :=
  match s.savedOf num with
  | none => s
  | some v =>
    let t := f (s.withPart v)
    let cores := (t.c :: t.cs).filter fun c => v.cores.any fun d => d.die == c.die && d.num == c.num
    let ws := t.warps.filter (·.id != 0)
    let gs := (t.g :: t.gs).filter (·.id != 0)
    { s with
      dies := t.dies.mapIdx fun p d => d.withPart (s.dieAt p)
      hub := t.hub, nextId := t.nextId
      saved := s.saved.map fun x =>
        if x.ctx.num = num then t.takeDies { x with ctx := t.ctx.getD v.ctx, wgs := gs, warps := ws, cores := cores } else x }

/-- Something done to a context by its number, wherever it stands; none where `f` finds nothing to do. -/
def State.onCtx (s : State) (num : Nat) (f : State → Ctx → Option State) : Option State :=
  let t := s.swapTo num
  match t.ctx.filter fun k => k.num == num with
  | some k => f t k
  | none =>
    (s.savedOf num).bind fun v =>
      (f (s.withPart v) v.ctx).map fun _ => s.inSaved num fun t => (t.ctx.bind (f t)).getD t

/-! ### The host mailbox (R497) -/

/-- The mailbox holds 32 calls. -/
def State.mailboxFull (s : State) : Bool :=
  match s.ctx with
  | some k => decide (32 ≤ k.mailbox.length)
  | none => false

/-- A call enters the mailbox. -/
def State.postCall (s : State) (c : Call) : State := s.updCtx fun k => { k with mailbox := k.mailbox ++ [c] }

/-- HCALL (R497): a full mailbox holds the warp. -/
def execHcall (f : FmtA) (s : State) : Result :=
  if s.execSet f.cond = 0 then s.retire f
  else if s.mailboxFull then .next s
  else
    let c : Call := { id := s.nextId, data := s.usrc64 f f.sa, code := (s.usrc32 f f.sb).toNat % 2 ^ 16, wait := none }
    ({ s.postCall c with nextId := s.nextId + 1 } : State).retire f

/-- HCALLW (R497): the scoreboard holds its destination until the reply. -/
def execHcallw (f : FmtA) (s : State) : Result :=
  let e := s.execSet f.cond
  if e = 0 then s.retire f
  else if s.mailboxFull then .next s
  else
    let o : Op := { s.mkOp 0x1AE f Upper.blank [2, 1, 0] e with flag := none }
    let c : Call := { id := o.id, data := s.usrc64 f f.sa, code := (s.usrc32 f f.sb).toNat % 2 ^ 16, wait := some o.id }
    let s1 := (s.postCall c).addOut o [] (regs f.dst 2)
    ({ s1 with w := { s1.w with waits := s1.w.waits ++ [o] } } : State).retire f

/-- HOST_MAILBOX_TAKE: the host takes the oldest call that it has not taken. A call of HCALL is freed at once. -/
def execHostMailboxTake (context : Nat) (s : State) : Result :=
  orRefuse "HOST_MAILBOX_TAKE" <|
    s.onCtx context fun t k =>
      (k.mailbox.find? fun c => !c.taken).map fun c =>
        t.updCtx fun k =>
          let freed := k.mailbox.filter fun d => d.id != c.id
          let kept := k.mailbox.map fun d => if d.id = c.id then { d with taken := true } else d
          { k with mailbox := if c.wait.isNone then freed else kept }

/-- A lane or uniform pair of a waiting warp written from outside, and its word complete. -/
def State.answerU2 (s : State) (o : Op) (x : Word64) : State :=
  s.updWarp o.warp fun w =>
    let d := o.f.dst.toNat
    let u := Sparse.set 0 (Sparse.set 0 w.u d (x.setWidth 32)) (d + 1) (x.extractLsb' 32 32)
    ({ w with u := u, waits := w.waits.filter fun p => p.id != o.id } : Warp).finish o.id

/-- HOST_MAILBOX_REPLY: the reply to an HCALLW that the host has taken is delivered, and its entry freed. -/
def execHostMailboxReply (context call : Nat) (reply : Word64) (s : State) : Result :=
  orRefuse "HOST_MAILBOX_REPLY" <|
    s.onCtx context fun t k =>
      (k.mailbox.find? fun c => c.taken && c.id == call && c.wait.isSome).map fun c =>
        let s1 := t.updCtx fun k => { k with mailbox := k.mailbox.filter fun d => d.id != c.id }
        match c.wait.bind s1.findOp with
        | some o => s1.answerU2 o reply
        | none => s1

/-! ### What the hub keeps of the context (R499, R500) -/

/-- PRCHK (R499). -/
def execPrchk (f : FmtA) (s : State) : Result :=
  s.onceWord f fun s =>
    let pre := match s.ctx with
      | some k => k.preempt
      | none => false
    s.setU f.dst.toNat (BitVec.ofNat 32 ((if pre then 1 else 0) + (if s.debugged then 2 else 0)
      + (if (s.die s.g.die).held.isEmpty then 0 else 4)))

/-- MCRD (R500). -/
def execMcrd (f : FmtA) (s : State) : Result :=
  s.onceWord f fun s =>
    let m := s.w.mc
    s.setU4 f.dst.toNat (join4 m.location m.lanes (m.addr.setWidth 32) (m.addr.extractLsb' 32 32))

end Sys2Proof.Machine
end

