-- ==== Sys2Proof/Machine/Launch.lean ====
section
/-! DEFINITION. Launches: the checks of a record (R420 to R424), placement and the start of workgroups (R20 to R22, R426 to
R428, R434), their ends (R121, R430), and the words of the class but for those of graphs (R444, R447 to R449, R451 to R453). -/

namespace Sys2Proof.Machine

/-! ### Fields of a record (R420, R421) -/

def lrChcode (r : BitVec 2048) (k : Nat) : Nat := lrField r (192 + 4 * k) 4
/-- The size of a declared channel (R280, R420). -/
def chSize (code : Nat) : Nat := if code = 0 then 0 else 256 * 2 ^ (code - 1)
/-- CHEND: the total size of the channels (R281, R437). -/
def lrChend (r : BitVec 2048) : Nat := ((List.range 16).map fun k => chSize (lrChcode r k)).sum
def lrGtab (r : BitVec 2048) : Nat := lrField r 1536 64
def lrEva (r : BitVec 2048) : Nat := lrField r 1600 64
def lrRspill (r : BitVec 2048) : Nat := lrField r 1664 64
def lrSlot (r : BitVec 2048) (k : Nat) : Word64 := r.extractLsb' (256 + 64 * k) 64
def lrSlots (r : BitVec 2048) : List Word64 := (List.range 8).map (lrSlot r)
def lrUinit (r : BitVec 2048) (k : Nat) : Word := r.extractLsb' (1024 + 32 * k) 32

/-- A field replaced. -/
def lrPut (r : BitVec 2048) (lo n v : Nat) : BitVec 2048 :=
  (r &&& ~~~(BitVec.ofNat 2048 ((2 ^ n - 1) * 2 ^ lo))) ||| BitVec.ofNat 2048 (v % 2 ^ n * 2 ^ lo)

/-- A format slot keeps R87. -/
def slotOk (s : Word64) : Bool :=
  decide (s.toNat % 16 = 0) && decide (bitsOf s.toNat 39 32 = 0)
    && (List.range 3).all fun x =>
      let fm := slotFmtOf s x
      let ss := slotSS s x
      let plain := decide (slotQT s x = 0) && !(slotQF s x)
      let ten := decide (slotTen s x = 0) || decide (2 ≤ ss)
      if fm = 0 then decide (ss = 0) && plain && decide (slotTen s x = 0)
      else if fm ≤ 3 then decide (ss % 2 = 0) && plain && ten
      else decide (fm = 4) && decide (ss ≠ 0) && (slotQF s x || (decide (ss ≠ 2) && decide (slotQT s x = 0))) && ten

/-- Workgroups of a shape that an empty core holds (R20). -/
def coreCapacity (r : BitVec 2048) : Nat :=
  let m := min (512 / (lrNwarp r * lrWin r)) (64 / lrNwarp r)
  let m1 := if lrScr r = 0 then m else min m ((16 - lrCarv r) * 32768 / (lrScr r * 256))
  if lrSolo r || lrMtx r then min m1 1 else m1

/-- The virtual dies of an affinity mask that are present. -/
def State.affDies (s : State) (aff : Nat) : List Nat := (List.range 4).filter fun v => aff.testBit v && decide (v < s.ndie)

/-- A reserved bit is set, or a field lies outside its range (R424 reason 0x02). -/
def lrRange (r : BitVec 2048) : Bool :=
  decide (lrField r 1728 320 ≠ 0) || decide (lrField r 100 4 ≠ 0) || decide (lrField r 64 8 ≠ 0) || r.getLsbD 135
    || decide (lrNwarp r < 1) || decide (32 < lrNwarp r) || decide (lrWin r < 1) || decide (32 < lrWin r)
    || decide (64 < lrUregs r) || decide (lrCarv r < 2) || decide (16 < lrCarv r) || decide (1792 < lrScr r)
    || decide (lrCeil r < lrPrio r) || decide (lrCscope r < 4) || decide (6 < lrCscope r)
    || (List.range 16).any (fun k => decide (9 < lrChcode r k)) || decide (lrDimx r = 0) || decide (lrDimy r = 0)
    || (List.range 2).any fun i =>
      let d := lrDep r i
      decide (lrField r (768 + 128 * i + 34) 14 ≠ 0)
        || (decide (d.kind = 0) && (decide (d.a ≠ 0) || decide (d.b ≠ 0) || decide (d.c ≠ 0)))
        || (lrGang r && decide (2 ≤ d.kind))

/-- Every page of a range is mapped with W. -/
def State.mappedW (s : State) (a n : Nat) : Nat → Bool
  | 0 => decide (n = 0)
  | k + 1 =>
    if n = 0 then true
    else
      let w := s.walk a
      if w.status = 0 ∧ Kind.write.permitted w.leaf then
        let m := w.page + w.size - a
        s.mappedW (a + m) (n - m) k
      else false

/-- The size of the ray spill area (R429). -/
def State.spillSize (s : State) : Nat := s.ndie * 160 * 2048 * 1024

/-- The reasons of R424 that a record shows, but for its tables (0x01, 0x07) and for its place among the others (0x09,
0x0B). -/
def State.shapeReasons (s : State) (r : BitVec 2048) : List Nat :=
  when (decide ((lrEntry r).toNat % 32 ≠ 0)) 0x01 ++ when (lrRange r) 0x02
    ++ when (decide ((16 - lrCarv r) * 32768 < lrScr r * 256) || decide (lrScr r * 256 < lrChend r)) 0x03
    ++ when ((lrSlots r).any fun k => !(slotOk k)) 0x04
    ++ when (decide (512 < lrNwarp r * lrWin r)) 0x05
    ++ when (s.affDies (lrAff r)).isEmpty 0x06
    ++ when (lrGang r && decide ((s.affDies (lrAff r)).length * 160 * coreCapacity r < lrNwg r)) 0x08
    ++ when (decide (lrRspill r ≠ 0) && (decide (lrRspill r % 4096 ≠ 0) || !(s.mappedW (lrRspill r) s.spillSize 327681))) 0x0A

/-! ### Reads of the hub (R256, R420) -/

/-- Bytes that the hub reads for the host, at their homes; none where a page of them has no readable mapping, or where they meet
an uncorrectable error (R467). -/
def State.homeRead (s : State) (a n : Nat) : Option (List Byte) :=
  if ((pagesOf a n).all fun va => let w := s.walk va; decide (w.status = 0) && Kind.read.permitted w.leaf)
      && !((List.range n).any fun i => ((s.locOf ((a + i) % 2 ^ 64)).bind s.homeBad).isSome) then
    some ((List.range n).map fun i => match s.locOf ((a + i) % 2 ^ 64) with
      | some c => s.homeByte c
      | none => byte0)
  else none

/-- What a word's hub reads: as an engine, the bytes kept for it among them (R256, R444); `asLoad`, as a load of the warp through L1
reads, which is how NODE.ENQN reads and GRAPH.START its first records (R445, R450). -/
def State.recordRead (s : State) (o : Op) (asLoad : Bool) (xs : List Xl) (a n : Nat) : List Byte :=
  if asLoad then
    (List.range n).map fun i =>
      let c := locIn xs ((a + i) % 2 ^ 64)
      match o.kept.find? fun k => k.1 == c.own + 16 && k.2.1 == c.pa with
      | some k => k.2.2
      | none => s.loadByte .l1 s.g.die s.g.core c
  else s.engineRead o.kept xs a n

/-- The uncorrectable error that such a read meets. -/
def State.recordBad (s : State) (o : Op) (asLoad : Bool) (xs : List Xl) (a n : Nat) : Option (Nat × Nat) :=
  if asLoad then
    (List.range n).findSome? fun i =>
      (s.badAt { o with xl := xs } ((a + i) % 2 ^ 64)).map fun k => (k, (a + i) % 2 ^ 64)
  else s.engineBad xs a n

/-- Bytes that the hub reads, for a word or for the host: nothing where it must wait, and no bytes where they cannot be read. An
uncorrectable error is not delivered: the warp takes its trap, and the bytes count as unreadable (R467; log entry 48). -/
def State.hubRead (s : State) (who : Option Op) (a n : Nat) (asLoad : Bool := false) : State × Option (Option (List Byte)) :=
  if n = 0 then (s, some (some []))
  else match who with
  | none => (s, some (s.homeRead a n))
  | some o =>
    match s.windowFault a n with
    | some _ => (s, some none)
    | none =>
      if s.warpFirst o a n then (s, none) else
      let r := checkPieces s .read (pagesOf a n)
      match r.2 with
      | none => (s, none)
      | some (.error _) => (r.1, some none)
      | some (.ok xs) =>
        match r.1.recordBad o asLoad xs a n with
        | some (k, va) => (r.1.machineCheck k o.e va o.pc, some none)
        | none => (r.1, some (some (r.1.recordRead o asLoad xs a n)))

/-- The member lists of the entries of a group table, with whether all could be read; none where the hub must wait. -/
def State.groupLists (s : State) (who : Option Op) (table : List Byte) : List Nat → State × Option (List (List Nat) × Bool)
  | [] => (s, some ([], true))
  | g :: gs =>
    let e := leNat ((table.drop (16 * g)).take 16)
    let n := bitsOf e 87 64
    let a := bitsOf e 63 0
    let r := if n ≠ 0 ∧ a % 4 ≠ 0 then (s, some none) else s.hubRead who a (4 * n)
    match r.2 with
    | none => (s, none)
    | some bs =>
      let q := r.1.groupLists who table gs
      let list := (List.range n).map fun i => leNat (((bs.getD []).drop (4 * i)).take 4)
      (q.1, q.2.map fun p => ((if bs.isSome then list else []) :: p.1, p.2 && bs.isSome))

/-- What the group table of a record gives (R422): the lists by table index, and the reasons 0x01, 0x02 and 0x07. -/
def State.readGroups (s : State) (who : Option Op) (r : BitVec 2048) : State × Option (List (List Nat) × List Nat) :=
  if lrGtab r = 0 then (s, some ([], []))
  else if lrGtab r % 16 ≠ 0 then (s, some ([], [0x01]))
  else
    let t := s.hubRead who (lrGtab r) 4096
    match t.2 with
    | none => (s, none)
    | some none => (t.1, some ([], [0x01]))
    | some (some table) =>
      let q := t.1.groupLists who table (List.range 256)
      (q.1, q.2.map fun p =>
        let reserved := (List.range 256).any fun g => decide (leNat ((table.drop (16 * g + 11)).take 5) ≠ 0)
        let all := p.1.flatten
        (p.1, when (!p.2) 0x01 ++ when reserved 0x02
          ++ when (all.any (fun m => decide (lrNwg r ≤ m) || decide (4 < p.1.countP fun l => l.contains m))
              || p.1.any fun l => decide (l.eraseDups.length ≠ l.length)) 0x07))

/-! ### Places (R20 to R22, R216, R301, R427) -/

def Wg.key (g : Wg) : Nat := g.launch * 256 + g.node.getD 0

/-- Workgroups on a core, their warps, and those of them that hold a slot there (R121). -/
def State.wgsOn (s : State) (die core : Nat) : List Wg :=
  (s.g :: s.gs).filter fun g => g.id != 0 && g.die == die && g.core == core
def State.warpsAt (s : State) (die core : Nat) : List Warp :=
  let ids := (s.wgsOn die core).map (·.id)
  s.warps.filter fun w => w.id != 0 && ids.contains w.wg
def State.warpsOn (s : State) (die core : Nat) : List Warp := (s.warpsAt die core).filter fun w => !w.released

/-- The lowest base for a scratch range among those taken (R198). -/
def freeBase (taken : List (Nat × Nat)) (limit n : Nat) : Option Nat :=
  (0 :: taken.map fun t => t.1 + t.2).foldl (fun b c =>
    if c + n ≤ limit ∧ c % 256 = 0 ∧ taken.all (fun t => decide (c + n ≤ t.1) || decide (t.1 + t.2 ≤ c)) then
      (match b with
       | none => some c
       | some d => some (min c d))
    else b) none

def State.baseOn (s : State) (r : BitVec 2048) (die core : Nat) : Option Nat :=
  freeBase ((s.wgsOn die core).map fun g => (g.base, g.size)) ((16 - lrCarv r) * 32768) (lrScr r * 256)

/-- Another context that runs has workgroups in a core's cluster: the cluster then takes none (log entry 2). -/
def State.elsewhere (s : State) (die core : Nat) : Bool :=
  s.others.any fun v => v.wgs.any fun g => decide (v.ctx.vdEntry g.die % 4 = s.phys die) && decide (cluster g.core = cluster core)

/-- A core may take one more workgroup of a shape. -/
def State.coreOk (s : State) (r : BitVec 2048) (key die core : Nat) : Bool :=
  let c := s.core die core
  let gs := s.wgsOn die core
  let ws := s.warpsOn die core
  let mates := (List.range 8).map (cluster core * 8 + ·)
  !((s.die die).gated.contains core) && !(s.elsewhere die core) && decide (ws.length + lrNwarp r ≤ 64)
    && decide ((ws.map (·.win)).sum + lrNwarp r * lrWin r ≤ 512)
    && (s.baseOn r die core).isSome
    && (gs.isEmpty || (decide (c.ways = lrCarv r) && !(lrSolo r) && !(gs.any fun g => lrSolo g.lrec)))
    && !(lrMtx r && gs.any fun g => lrMtx g.lrec)
    && (if lrFuse r then
          (c.fused == some key || (!(s.fusedAt die core) && mates.all fun n => (s.wgsOn die n).isEmpty))
        else !(s.fusedAt die core))

def State.coresOk (s : State) (r : BitVec 2048) (key die : Nat) : List Nat := (List.range 160).filter (s.coreOk r key die)

/-! ### The start of a workgroup (R427) -/

/-- The split of an idle core's array changed; lines that lose their way are written back. -/
def State.applyCarve (s : State) (die core ways : Nat) : State :=
  let c := s.core die core
  if c.ways = ways then s
  else
    let kept := keptLines ways c.l1
    let out := c.l1.filter fun x => !(kept.contains x) && decide (x.dirty ≠ 0)
    (out.foldl (fun t x => t.l1Writeback die core x) s).updCore die core fun c => { c with l1 := kept, ways := ways }

/-- The L1s of a cluster emptied, their dirty sectors written back, as fusion begins or ends (R22). -/
def State.refuse8 (s : State) (die core : Nat) (fused : Option Nat) (g : Core → Core) : State :=
  (List.range 8).foldl (fun s i =>
    let n := cluster core * 8 + i
    (s.flushL1 die n).updCore die n fun c => g { c with l1 := [], fused := fused }) s

/-- The channels of a workgroup at its start (R281). -/
def startChans (r : BitVec 2048) : Sparse Chan :=
  ((List.range 16).foldl (fun (p : Sparse Chan × Nat) k =>
    let code := lrChcode r k
    if code = 0 then p
    else (Sparse.set {} p.1 k { dfn := true, lsz := code - 1, base := p.2 }, p.2 + chSize code)) ([], 0)).1

/-- A warp at its start (R427, R90). -/
def startWarp (r : BitVec 2048) (id wg idx slot time : Nat) (active : Bool) : Warp :=
  { id := id, wg := wg, idx := idx, slot := slot, win := lrWin r,
    u := (List.range (min (lrUregs r) 16)).foldl (fun u k => Sparse.set 0 u k (lrUinit r k)) [],
    lanes := lanesAt .ready (lrEntry r),
    sched := { prio := lrPrio r, ceil := lrCeil r, age := time, active := active } }

/-- One warp more on a core: the lowest free slot, and an active place while one of the eight is free. -/
def State.addWarp (s : State) (r : BitVec 2048) (wg idx die core : Nat) : State :=
  let ws := s.warpsOn die core
  let slot := ((List.range 64).find? fun k => !(ws.any fun w => w.slot == k)).getD 0
  let w := startWarp r s.nextId wg idx slot s.time (decide (ws.countP (·.sched.active) < 8))
  { s with ws := s.ws ++ [w], nextId := s.nextId + 1 }

/-- Episodes of a core end where its resident warps need the windows that they copy into (R20, R110). -/
def State.trimRunahead (s : State) (die core : Nat) : State :=
  let ws := s.warpsOn die core
  let extra := (ws.filter fun w => w.ra.isSome).map (·.win)
  if (ws.map (·.win)).sum + extra.sum ≤ 512 then s
  else ws.foldl (fun s w => s.updWarp w.id fun w => { w with ra := none }) s

/-- A workgroup placed on a core (R427): `node` and its records are those of a node workgroup. -/
def State.placeWg (s : State) (r : BitVec 2048) (num index die core : Nat) (groups : List Nat) (node : Option Nat := none)
    (nrec rsz : Nat := 0) (scratch : Sparse Byte := []) : State :=
  let key := num * 256 + node.getD 0
  let s1 := if lrFuse r && !(s.fusedAt die core) then
      s.refuse8 die core (some key) fun c => { c with ways := lrCarv r }
    else s.applyCarve die core (lrCarv r)
  let s2 := if lrMtx r then s1.updCore die core fun c => { c with mtx := {} } else s1
  let g : Wg := { id := s2.nextId, launch := num, node := node, nrec := nrec, rsz := rsz, index := index, die := die,
                  core := core, lrec := r, base := (s2.baseOn r die core).getD 0, size := lrScr r * 256,
                  ch := startChans r, scratch := scratch, groups := groups, live := lrNwarp r }
  ((List.range (lrNwarp r)).foldl (fun (s : State) i => s.addWarp r g.id i die core)
    { s2 with gs := s2.gs ++ [g], nextId := s2.nextId + 1 }).trimRunahead die core

/-! ### Dispatch (R426, R428, R434) -/

/-- The workgroups of a launch that are ready and not handed out, in ascending index. -/
def Ctx.readyWgs (k : Ctx) (l : Launch) : List Nat :=
  if l.reason ≠ 0 ∨ l.cancelled ∨ l.complete then []
  else (List.range (lrNwg l.lrec)).filter fun j => !(l.started.contains j) && k.ready l j

/-- A launch to be placed at once whose dependences are met waits for its places. -/
def Ctx.gangWaits (k : Ctx) (l : Launch) : Bool :=
  lrGang l.lrec && l.started.isEmpty && decide (0 < lrNwg l.lrec) && decide ((k.readyWgs l).length = lrNwg l.lrec)

/-- A launch that waits to be placed at once, and that comes before a number, keeps a die (R428). -/
def Ctx.gangKeeps (k : Ctx) (num die : Nat) : Bool :=
  k.launches.any fun l => decide (k.ageOf num < k.ageOf l.num) && (lrAff l.lrec).testBit die && k.gangWaits l

/-- An earlier launch can use a place on a die (R426). -/
def State.earlierUses (s : State) (k : Ctx) (num die : Nat) : Bool :=
  k.launches.any fun l => decide (k.ageOf num < k.ageOf l.num) && (lrAff l.lrec).testBit die && !(lrGang l.lrec)
    && !(k.readyWgs l).isEmpty && !(s.coresOk l.lrec (l.num * 256) die).isEmpty

/-- The groups that a workgroup belongs to, by table index (R422). -/
def Launch.groupsOf (l : Launch) (i : Nat) : List Nat :=
  (List.range l.groups.length).filter fun g => ((l.groups[g]?).getD []).contains i

/-- One workgroup of a launch placed on one of the dies given; a dependant acquires on its core (R434). -/
def State.dispatchOne (s : State) (l : Launch) (dies : List Nat) (j : Nat) : Option State :=
  let key := l.num * 256
  let spots := dies.flatMap fun v => (s.coresOk l.lrec key v).map fun n => (v, n)
  (spots[Config.placeCore s.nextId % spots.length]?).map fun p =>
    let s1 := s.placeWg l.lrec l.num j p.1 p.2 (l.groupsOf j)
    let s2 := if (lrDeps l.lrec).any fun d => decide (d.kind ≠ 0) then s1.acquireSteps p.1 p.2 (lrCscope l.lrec) else s1
    s2.updLaunch l.num fun l => { l with started := l.started ++ [j] }

/-- Workgroups placed one after another while there is room; with `whole` all of them or none. -/
def State.dispatchList (s : State) (l : Launch) (dies : List Nat) (whole : Bool) : List Nat → Option State
  | [] => some s
  | j :: js =>
    match s.dispatchOne l dies j with
    | some t => t.dispatchList l dies whole js
    | none => if whole then none else some s

/-- WORKGROUP_BATCH_DISPATCH (R426 to R428): a batch of a launch's ready workgroups goes to a die; a launch to be placed at
once goes to all its dies together. -/
def execWorkgroupBatchDispatch (launch die : Nat) (s : State) : Result :=
  orRefuse "WORKGROUP_BATCH_DISPATCH" <|
    s.ctx.bind fun k => (k.launchOf launch).bind fun l =>
      let js := k.readyWgs l
      if k.preempt || k.ended || js.isEmpty || !((s.affDies (lrAff l.lrec)).contains die) then none
      else if lrGang l.lrec then
        if k.gangWaits l && !((s.affDies (lrAff l.lrec)).any fun v => k.gangKeeps launch v || s.earlierUses k launch v) then
          s.dispatchList l (s.affDies (lrAff l.lrec)) true js
        else none
      else if k.gangKeeps launch die || s.earlierUses k launch die || (s.coresOk l.lrec (launch * 256) die).isEmpty then none
      else s.dispatchList l [die] false (js.take (Config.batchSize s.n % 64 + 1))

/-! ### Ends (R22, R121, R430) -/

/-- A word of a warp that has ended whose wait holds nothing of the core's: nobody will read its answer. -/
def idleWait (code : Nat) : Bool := [0x145, 0x18D, 0x190, 0x1AE].contains code

/-- An ended warp's counters are zero and its flags clear (R121). -/
def Warp.clear (w : Warp) : Bool := w.ended && w.outs.all fun o => o.flag.isNone && o.cls.isNone

/-- Beside that, every access and engine operation of the warp has been performed (R430). -/
def State.quiet (s : State) (w : Warp) : Bool :=
  w.clear && !(s.allOps.any fun o => o.warp == w.id && !(idleWait o.code))

/-- A workgroup whose event has occurred, with no resident warp, leaves its core; fusion ends with the last of its launch
on the cluster (R22). -/
def State.tryRetire (s : State) (id : Nat) : State :=
  match s.wgOf id with
  | none => s
  | some g =>
    if id = 0 ∨ !g.event ∨ g.live ≠ 0 ∨ s.warps.any (fun w => w.id != 0 && w.wg == id) then s
    else
      let s1 : State := if s.g.id = id then { s with g := { id := 0 } } else { s with gs := s.gs.filter (·.id != id) }
      let s2 := match g.node with
        | some n => s1.updGraph g.launch fun q =>
            { q with nodes := updateAt q.nodes n fun d => { d with running := d.running - 1 } }
        | none => s1
      if s2.fusedAt g.die g.core && (List.range 8).all (fun i => (s2.wgsOn g.die (cluster g.core * 8 + i)).isEmpty) then
        s2.refuse8 g.die g.core none fun c => c
      else s2

/-- WARP_RESOURCE_RELEASE (R121): the slot and the windows of an ended warp return to its core. Its record stays while it has
accesses to perform. -/
def execWarpResourceRelease (warp : Nat) (s : State) : Result :=
  orRefuse "WARP_RESOURCE_RELEASE" <|
    (s.focus warp).bind fun s0 =>
      if warp = 0 then none
      else if s0.quiet s0.w then
        let wg := s0.w.wg
        some (({ s0 with w := Warp.idle } : State).tryRetire wg)
      else if s0.w.clear && !s0.w.released then
        some { s0 with w := { s0.w with released := true, ra := none, sched := { s0.w.sched with active := false } } }
      else none

/-- WORKGROUP_COMPLETION_EVENT (R430): every warp has ended and everything has been performed; the core carries out the
release steps at CSCOPE, and the event occurs. -/
def execWorkgroupCompletionEvent (wg : Nat) (s : State) : Result :=
  orRefuse "WORKGROUP_COMPLETION_EVENT" <|
    (s.wgOf wg).bind fun g =>
      let scope := lrCscope g.lrec
      if wg ≠ 0 ∧ !g.event ∧ g.live = 0 ∧ (s.warps.all fun w => w.wg != wg || s.quiet w)
          ∧ !(decide (5 ≤ scope) && s.releaseWaits g.die g.core) then
        let s1 := (s.releaseSteps g.die g.core scope).wgEvent wg
        some ((g.groups.foldl (fun t group => t.groupCheck g.launch group) s1).tryRetire wg)
      else none

/-! ### Acceptance (R424, R425) -/

/-- The number that the next launch or graph gets. -/
def Ctx.next (k : Ctx) : Nat := numOf k.nextNum

/-- A number may stand as a predecessor of the next (R425). -/
def Ctx.earlier (k : Ctx) (x : Nat) : Bool := k.wasIssued x && decide (k.ageOf x < 65536)

/-- What the hub finds in a record that it has read (R424): its group lists, and the reasons that refuse it but for 0x0B; none
where it must wait. -/
def State.recordReasons (s : State) (k : Ctx) (who : Option Op) (r : BitVec 2048) : State × Option (List (List Nat) × List Nat) :=
  let q := s.readGroups who r
  (q.1, q.2.map fun gr => (gr.1, gr.2 ++ q.1.shapeReasons r
    ++ when ((lrDeps r).any fun d => decide (d.kind ≠ 0) && !(k.earlier d.pln)) 0x09))

/-- A record accepted or refused (R424), of a word or of the host: `none` while the hub must wait. The number is given to the
word that asked. -/
def State.acceptRecord (s : State) (k : Ctx) (who : Option Op) (addr : Nat) (pred : Option Nat) : Option (State × Nat) :=
  let t := if addr % 64 ≠ 0 then (s, some none) else s.hubRead who addr 256
  t.2.bind fun bs =>
    let raw := BitVec.ofNat 2048 (leNat (bs.getD []))
    let r := match pred with
      | none => raw
      | some p => lrPut (lrPut raw 768 32 p) 800 2 (if (lrDep raw 0).kind = 0 then 1 else (lrDep raw 0).kind)
    let q := if bs.isSome then t.1.recordReasons k who r else (t.1, some ([], [0x01]))
    q.2.map fun gr =>
      let reasons := gr.2 ++ when (decide (4096 ≤ k.incomplete)) 0x0B
      let reason := (lowest reasons).getD 0
      let l : Launch := { num := k.next, lrec := r, reason := reason, groups := gr.1 }
      let s1 := q.1.updCtx fun k => Ctx.forget { k with nextNum := k.nextNum + 1, launches := k.launches ++ [l] }
      (if reason = 0 then s1 else s1.record { kind := 0x10, detail := reason, lnum := l.num }, l.num)

/-- The oldest submission of a word. -/
def State.acceptLaunch (s : State) (k : Ctx) (sub : Submit) : Option State :=
  (s.focusOp sub.op).bind fun p =>
    (p.2.acceptRecord k (some p.1) sub.addr sub.pred).map fun q =>
      let s1 := q.1.updCtx fun k => { k with submits := k.submits.drop 1 }
      ((s1.answerU p.1 (BitVec.ofNat 32 q.2)).launchCheck).wakeWaits

/-! ### The words -/

/-- A word of the class that acts once and at once (R443). -/
def State.hubWord (s : State) (f : FmtA) (act : State → State) : Result :=
  (if s.execSet f.cond = 0 then s else act s).retireLong

/-- A submission goes to the hub; its number comes back at acceptance (R444, R450). -/
def State.submit (s : State) (code : Nat) (f : FmtA) (x : Upper) (pred : Option Nat) (graph : Bool) : Result :=
  if s.execSet f.cond = 0 then s.retireLong
  else
    let o := s.mkOp code f x [2, if graph then 2 else 1, 1] (s.execSet f.cond)
    let sub : Submit := { op := o.id, addr := effAddr 0 (o.base 0) x.offset, pred := pred, graph := graph,
                          input := if graph then (o.val64 1 0).toNat else 0,
                          count := if graph then (o.val32 2 0).toNat else 0 }
    let s1 := (s.addOut o [] (regs f.dst 1)).advance 16
    .next (({ s1 with w := { s1.w with waits := s1.w.waits ++ [o] } } : State).updCtx fun k =>
      { k with submits := k.submits ++ [sub] })

/-- LAUNCH (R444). -/
def execLaunch (f : FmtA) (x : Upper) (s : State) : Result := s.submit 0x188 f x none false
/-- LAUNCH.dep (R444). -/
def execLaunchDep (f : FmtA) (x : Upper) (s : State) : Result := s.submit 0x189 f x (some (s.usrc32 f f.sb).toNat) false

/-- A word that waits for a launch or a graph (R449, R450). -/
def State.hubWait (s : State) (code : Nat) (f : FmtA) (x : Upper) : Result :=
  if s.execSet f.cond = 0 then s.retireLong
  else
    let o := s.mkOp code f x [1, 1, 0] (s.execSet f.cond)
    let s1 := (s.addOut o [] (regs f.dst 1)).advance 16
    .next (({ s1 with w := { s1.w with waits := s1.w.waits ++ [o] } } : State).wakeOne o)

/-- EVWAIT (R449). -/
def execEvwait (f : FmtA) (x : Upper) (s : State) : Result := s.hubWait 0x18D f x

/-- EVSIG (R448): behind the warp's earlier accesses, as a release at CSCOPE. -/
def execEvsig (f : FmtA) (x : Upper) (s : State) : Result :=
  if s.execSet f.cond = 0 then s.retireLong
  else s.orderWord 0x18E f { x with ord := 2, scope := BitVec.ofNat 3 (lrCscope s.g.lrec) }

/-- NODE.REC (R447). -/
def execNodeRec (f : FmtA) (_x : Upper) (s : State) : Result :=
  s.hubWord f fun s =>
    match s.g.node with
    | some n => s.setU4 f.dst.toNat (join4 (BitVec.ofNat 32 (lrChend s.g.lrec)) (BitVec.ofNat 32 s.g.nrec)
        (BitVec.ofNat 32 s.g.rsz) (BitVec.ofNat 32 n))
    | none => s.setU4 f.dst.toNat 0

/-- LRQ (R453). -/
def execLrq (f : FmtA) (_x : Upper) (s : State) : Result :=
  s.hubWord f fun s => s.setU f.dst.toNat (s.g.lrec.extractLsb' (32 * ((s.usrc32 f f.sa).toNat % 64)) 32)

/-- WGID (R453). -/
def execWgid (f : FmtA) (_x : Upper) (s : State) : Result :=
  s.hubWord f fun s =>
    let i := s.g.index
    let dx := lrDimx s.g.lrec
    let dy := lrDimy s.g.lrec
    if s.g.node.isSome then s.setU4 f.dst.toNat (join4 (BitVec.ofNat 32 i) 0 0 0)
    else s.setU4 f.dst.toNat (join4 (BitVec.ofNat 32 (i % dx)) (BitVec.ofNat 32 (i / dx % dy))
      (BitVec.ofNat 32 (i / (dx * dy))) (BitVec.ofNat 32 (lrNwg s.g.lrec)))

/-- A launch cancelled, unless it has completed (R451). What waits for its workgroups may follow. -/
def State.cancel (s : State) (num : Nat) : State :=
  match s.launchOf num with
  | some l =>
    if l.complete then s
    else
      let s1 := (s.updLaunch num fun l => { l with cancelled := true }).launchCheck.wakeWaits
      match s1.ctx with
      | some k => (k.gbars.filter fun b => b.launch == num).foldl (fun s b => s.groupCheck b.launch b.group) s1
      | none => s1
  | none => s

/-- LCANCEL (R451). -/
def execLcancel (f : FmtA) (_x : Upper) (s : State) : Result :=
  s.hubWord f fun s => s.cancel (s.usrc32 f f.sa).toNat

/-- Workgroup events of a launch that have occurred or count as occurred (R432). -/
def Launch.eventCount (l : Launch) : Nat :=
  if l.reason ≠ 0 then lrNwg l.lrec
  else if l.cancelled then l.events.length + (lrNwg l.lrec - l.started.length) else l.events.length

/-- The quad of LQUERY (R452). -/
def Ctx.query (k : Ctx) (num : Nat) : Word128 :=
  match k.launchOf num, k.graphOf num with
  | some l, _ => join4 (BitVec.ofNat 32 (l.state * 2 ^ 28 + l.reason)) (BitVec.ofNat 32 l.started.length)
      (BitVec.ofNat 32 l.eventCount) (BitVec.ofNat 32 (lrNwg l.lrec))
  | none, some g => join4 (BitVec.ofNat 32 (g.state * 2 ^ 28 + g.reason))
      (BitVec.ofNat 32 (g.nodes.map (·.started)).sum) (BitVec.ofNat 32 (g.nodes.map (·.ended)).sum) 0
  | none, none => join4 (BitVec.ofNat 32 ((if k.wasIssued num then 6 else 0) * 2 ^ 28)) 0 0 0

/-- LQUERY (R452). -/
def execLquery (f : FmtA) (_x : Upper) (s : State) : Result :=
  s.hubWord f fun s =>
    match s.ctx with
    | some k => s.setU4 f.dst.toNat (k.query (s.usrc32 f f.sa).toNat)
    | none => s

end Sys2Proof.Machine
end

