-- ==== Sys2Proof/Machine/Graph.lean ====
section
/-! DEFINITION. Work graphs (R436 to R440): their checks and start (R437, R450), records and their queues (R438, R445, R446),
node workgroups (R439), and the words of graphs; with the event that accepts submissions (R425). -/

namespace Sys2Proof.Machine

/-! ### Descriptors (R436, R437) -/

def gdNodes (d : BitVec 256) : Nat := (d.extractLsb' 192 8).toNat + 1
def gdSpsz (d : BitVec 256) : Nat := (d.extractLsb' 128 64).toNat
def gdSpill (d : BitVec 256) : Nat := (d.extractLsb' 64 64).toNat
def gdNodet (d : BitVec 256) : Nat := (d.extractLsb' 0 64).toNat
def neRsz (e : BitVec 256) : Nat := (e.extractLsb' 80 16).toNat
def neBat (e : BitVec 256) : Nat := (e.extractLsb' 64 16).toNat
def neTmpl (e : BitVec 256) : Nat := (e.extractLsb' 0 64).toNat

/-- A node entry breaks its ranges (R437 reason 0x10). -/
def neBad (e : BitVec 256) : Bool :=
  decide (e.extractLsb' 96 160 ≠ 0) || decide (neRsz e < 16) || decide (256 < neRsz e) || decide (neRsz e % 16 ≠ 0)
    || decide (neBat e < 1) || decide (1024 < neBat e)

/-- A template holds what a template may not (R437 reason 0x11). -/
def tmplBad (r : BitVec 2048) : Bool :=
  decide (lrNwg r ≠ 0) || decide (lrField r 768 256 ≠ 0) || decide (lrGtab r ≠ 0) || decide (lrEva r ≠ 0) || lrGang r

/-- The nodes of a graph read and checked, their templates under R424 too: reasons with their nodes; none where the hub must
wait. -/
def State.readNodes (s : State) (k : Ctx) (o : Op) (table : Nat) : List Nat → State × Option (List Node × List (Nat × Nat))
  | [] => (s, some ([], []))
  | n :: ns =>
    let t := s.hubRead (some o) ((table + 32 * n) % 2 ^ 64) 32
    match t.2 with
    | none => (s, none)
    | some none => (t.1, some ([], [(0x01, n)]))
    | some (some bs) =>
      let e := BitVec.ofNat 256 (leNat bs)
      let u := if neTmpl e % 64 ≠ 0 then (t.1, some none) else t.1.hubRead (some o) (neTmpl e) 256
      match u.2 with
      | none => (s, none)
      | some rec_ =>
        let r := BitVec.ofNat 2048 (leNat (rec_.getD []))
        let v := if rec_.isSome then u.1.recordReasons k (some o) r else (u.1, some ([], [0x01]))
        match v.2 with
        | none => (s, none)
        | some found =>
          let reasons := when (neBad e) 0x10 ++ found.2
            ++ (if rec_.isSome then when (tmplBad r) 0x11 ++ when (decide (lrScr r * 256 < lrChend r + neRsz e * neBat e)) 0x12
                else [])
          let q := v.1.readNodes k o table ns
          (q.1, q.2.map fun p => ({ ent := e, tmpl := r } :: p.1, reasons.map (fun x => (x, n)) ++ p.2))

/-- The lowest reason, at its first node. -/
def lowestAt (rs : List (Nat × Nat)) : Option (Nat × Nat) :=
  rs.foldl (fun b r => match b with
    | none => some r
    | some m => if r.1 < m.1 then some r else some m) none

/-- A graph as its descriptor gives it, refused or not; none where the hub must wait. -/
def State.readGraph (s : State) (o : Op) (k : Ctx) (addr : Nat) : State × Option Graph :=
  let full := when (decide (16 ≤ k.graphs.countP (!·.complete)) || decide (4096 ≤ k.incomplete)) 0x0B
  let t := if addr % 32 ≠ 0 then (s, some none) else s.hubRead (some o) addr 32
  match t.2 with
  | none => (s, none)
  | some none =>
    (t.1, some { num := k.next, desc := 0, nodes := [], reason := 1, complete := true })
  | some (some bs) =>
    let d := BitVec.ofNat 256 (leNat bs)
    let own := when (decide (d.extractLsb' 200 56 ≠ 0) || decide (gdSpsz d % 4096 ≠ 0) || decide (gdSpill d % 4096 ≠ 0)) 0x10
    let q := if gdNodet d % 32 ≠ 0 then (t.1, some ([], [(0x01, 0)])) else t.1.readNodes k o (gdNodet d) (List.range (gdNodes d))
    (q.1, q.2.map fun p =>
      match lowestAt ((own ++ full).map (fun x => (x, 0)) ++ p.2) with
      | some r => { num := k.next, desc := d, nodes := [], reason := r.1, node := r.2, complete := true }
      | none => { num := k.next, desc := d, nodes := p.1 })

/-! ### Queues (R438) -/

/-- Records that a node's queue on the hub holds. -/
def nodeCap (rsz : Nat) : Nat := 8192 / rsz

/-- One node changed. -/
def Graph.updNode (g : Graph) (n : Nat) (f : Node → Node) : Graph := { g with nodes := updateAt g.nodes n f }

/-- Records of a node that wait. -/
def Node.waiting (n : Node) : Nat := n.queue.length + n.spill.length

/-- The 16-byte units of the spill area that hold records. -/
def Graph.spilled (g : Graph) : List Nat := g.nodes.flatMap fun n => n.spill.flatten

/-- Units of the spill area for one more record of `need` units, from a unit that the hub takes first; none where the area is
full. Where a record lies in it is not stated (log entry 34). -/
def Graph.spillUnits (g : Graph) (need first : Nat) : Option (List Nat) :=
  let used := g.spilled
  let all := gdSpsz g.desc / 16
  if all < used.length + need then none
  else
    let wish := (List.range need).map fun i => (first + i) % all
    if wish.any used.contains then
      some (((List.range (used.length + need)).filter fun k => !(used.contains k)).take need)
    else some wish

/-- The address of a unit of the spill area. -/
def Graph.spillAt (g : Graph) (k : Nat) : Nat := (gdSpill g.desc + 16 * k) % 2 ^ 64

/-- A record arrives at a node (R438): into the queue, or, with that full or older records in the spill area, into that area in
memory; with the area full, or not writable (log entry 34), it is discarded. After an abort it is discarded too (R446). -/
def State.enqueueIn (s : State) (g : Graph) (n : Nat) (bytes : List Byte) : State × Graph :=
  if g.abt || g.complete then (s, g)
  else
    match g.nodes[n]? with
    | none => (s, g)
    | some d =>
      if d.queue.length < nodeCap (neRsz d.ent) ∧ d.spill = [] then (s, g.updNode n fun d => { d with queue := d.queue ++ [bytes] })
      else
        match g.spillUnits (neRsz d.ent / 16) (Config.spillPlace s.n) with
        | none => (s, { g with ovf := true })
        | some ks =>
          if ks.all fun k => s.hubMay (g.spillAt k) then
            (ks.zipIdx.foldl (fun s p => s.hubWrite (g.spillAt p.1) ((bytes.drop (16 * p.2)).take 16)) s,
             g.updNode n fun d => { d with spill := d.spill ++ [ks] })
          else (s, { g with ovf := true })

/-- The oldest record of a node in the spill area returns to its queue as memory holds it; one that cannot be read is discarded,
as R450 has it of first records (log entry 34). -/
def State.returnOne (s : State) (g : Graph) (n : Nat) : Graph :=
  match (g.nodes[n]?).bind fun d => d.spill.head? with
  | none => g
  | some ks =>
    let parts := ks.map fun k => s.homeRead (g.spillAt k) 16
    let g1 := g.updNode n fun d => { d with spill := d.spill.tail }
    if parts.all (·.isSome) then g1.updNode n fun d => { d with queue := d.queue ++ [(parts.filterMap id).flatten] }
    else { g1.updNode n fun d => { d with due := d.due - 1 } with ovf := true }

/-- Records of a node return until its queue holds `want` records, or the area none of its. -/
def State.returnTo (s : State) (n want : Nat) : Nat → Graph → Graph
  | 0, g => g
  | k + 1, g =>
    match g.nodes[n]? with
    | some d => if d.queue.length < want ∧ d.spill ≠ [] then s.returnTo n want k (s.returnOne g n) else g
    | none => g

/-- A graph changed together with memory. -/
def State.withGraph (s : State) (num : Nat) (f : State → Graph → State × Graph) : State :=
  match s.graphOf num with
  | some g =>
    let q := f s g
    q.1.updGraph num fun _ => q.2
  | none => s

/-- A record arrives at a node of a graph by its number. -/
def State.nodeRecord (s : State) (num n : Nat) (bytes : List Byte) : State :=
  s.withGraph num fun s g => s.enqueueIn g n bytes

/-! ### Acceptance (R425, R450) -/

/-- The first records of a graph, read one after another as NODE.ENQN reads; those that cannot be read set OVF. -/
def State.firstRecords (s : State) (o : Op) (g : Graph) (a rsz : Nat) : Nat → State × Option Graph
  | 0 => (s, some g)
  | n + 1 =>
    let t := s.hubRead (some o) a rsz true
    match t.2 with
    | none => (s, none)
    | some none => t.1.firstRecords o { g with ovf := true } ((a + rsz) % 2 ^ 64) rsz n
    | some (some bs) =>
      let q := t.1.enqueueIn g 0 bs
      q.1.firstRecords o q.2 ((a + rsz) % 2 ^ 64) rsz n

/-- The head of the submissions accepted or refused as a graph. -/
def State.acceptGraph (s : State) (k : Ctx) (sub : Submit) : Option State :=
  (s.focusOp sub.op).bind fun p =>
    let t := p.2.readGraph p.1 k sub.addr
    t.2.bind fun g =>
      let q := match g.nodes[0]? with
        | some n => t.1.firstRecords p.1 g sub.input (neRsz n.ent) sub.count
        | none => (t.1, some g)
      q.2.map fun g =>
        let s1 := q.1.updCtx fun k =>
          Ctx.forget { k with nextNum := k.nextNum + 1, submits := k.submits.drop 1, graphs := k.graphs ++ [g] }
        let s2 := if g.reason = 0 then s1 else s1.record { kind := 0x11, detail := g.node * 256 + g.reason, lnum := g.num }
        (s2.answerU p.1 (BitVec.ofNat 32 g.num)).wakeWaits

/-- LAUNCH_ACCEPTANCE (R420, R424, R425, R437): the oldest submission of a word, or the record that the host submits for a
context, gets its number and is accepted or refused. -/
def execLaunchAcceptance (host : Option (Nat × Word64)) (s0 : State) : Result :=
  orRefuse "LAUNCH_ACCEPTANCE" <|
    let s := match host with
      | some p => s0.swapTo p.1
      | none => s0
    s.ctx.bind fun k =>
      if k.ended then none
      else
        match host, k.submits with
        | some (num, a), _ =>
          if k.num ≠ num then none
          else (s.acceptRecord k none a.toNat none).map fun q => q.1.launchCheck.wakeWaits
        | none, sub :: _ => if sub.graph then s.acceptGraph k sub else s.acceptLaunch k sub
        | none, [] => none

/-! ### Node workgroups (R439, R440) -/

/-- How many records the next workgroup of a node takes; none where none is due. -/
def Node.takes (n : Node) : Option Nat :=
  if n.waiting = 0 then none
  else if 0 < n.due then some (min n.due n.waiting)
  else if neBat n.ent ≤ n.waiting then some (neBat n.ent) else none

/-- The records that the next workgroup of a node takes brought to its queue. -/
def State.gather (s : State) (g : Graph) (node : Nat) : Graph :=
  match g.nodes[node]? with
  | some n => s.returnTo node (n.takes.getD 0) n.spill.length g
  | none => g

/-- A workgroup of a node has taken `count` records: the queue fills up from the spill area. -/
def State.afterStart (s : State) (g : Graph) (node count : Nat) : Graph :=
  let g1 := g.updNode node fun d =>
    { d with queue := d.queue.drop count, due := 0, started := d.started + 1, running := d.running + 1 }
  match g1.nodes[node]? with
  | some n => s.returnTo node (nodeCap (neRsz n.ent)) n.spill.length g1
  | none => g1

/-- Records laid out one after another from CHEND on. -/
def recordScratch (base rsz : Nat) (recs : List (List Byte)) : Sparse Byte :=
  (recs.foldl (fun (p : Sparse Byte × Nat) bs => (writeBytes p.1 p.2 bs, p.2 + rsz)) ([], base)).1

/-- NODE_WORKGROUP_START (R439): a workgroup of a node starts with the oldest records. -/
def execNodeWorkgroupStart (graph node : Nat) (s : State) : Result :=
  orRefuse "NODE_WORKGROUP_START" <|
    s.ctx.bind fun k => (k.graphOf graph).bind fun g0 => ((s.gather g0 node).nodes[node]?).bind fun n =>
      let g := s.gather g0 node
      if k.preempt || k.ended || g.complete then none
      else
        match n.takes with
        | none => if g = g0 then none else some (s.updGraph graph fun _ => g)
        | some count =>
          let key := graph * 256 + node
          let dies := (s.affDies (lrAff n.tmpl)).filter fun v => !(k.gangKeeps graph v)
          let spots := dies.flatMap fun v => (s.coresOk n.tmpl key v).map fun c => (v, c)
          (spots[Config.placeCore s.nextId % spots.length]?).map fun p =>
            let recs := n.queue.take count
            let s1 := s.placeWg n.tmpl graph n.started p.1 p.2 [] (some node) count (neRsz n.ent)
              (recordScratch (lrChend n.tmpl) (neRsz n.ent) recs)
            (s1.acquireSteps p.1 p.2 5).updGraph graph fun _ => s.afterStart g node count

/-- GRAPH_DRAIN (R439, R440): with nothing waiting, running or in flight, every node with records has one workgroup to start;
with no record left the graph completes, after the release steps on its dies, which wait for held writes and messages (R485,
R509). -/
def execGraphDrain (graph : Nat) (s : State) : Result :=
  orRefuse "GRAPH_DRAIN" <|
    (s.graphOf graph).bind fun g =>
      if g.complete || g.nodes.any (fun n => decide (0 < n.running) || n.takes.isSome) then none
      else if g.nodes.any fun n => decide (0 < n.waiting) then
        some (s.updGraph graph fun g => { g with nodes := g.nodes.map fun n => { n with due := n.waiting } })
      else if s.diesWait g.aff g.cscope then none
      else
        some (((s.dieRelease g.aff g.cscope).updGraph graph fun g => { g with complete := true }).launchCheck.wakeWaits)

/-! ### Enqueuing (R445, R446) -/

/-- The graph of the workgroup in focus. -/
def State.graphHere (s : State) : Option Graph := s.g.node.bind fun _ => s.graphOf s.g.launch

/-- The reason of the graph-parameter trap (R446). -/
def State.enqReason (s : State) (node : Nat) : Option Nat :=
  match s.graphHere with
  | none => some 0x70
  | some g => if g.nodes.length ≤ node then some 0x71 else none

/-- The record size of a node of the graph. -/
def State.nodeRsz (s : State) (node : Nat) : Nat :=
  match s.graphHere.bind fun g => g.nodes[node]? with
  | some n => neRsz n.ent
  | none => 0

/-- A word that enqueues issues into the operand log, behind the warp's accesses (R445, R456). -/
def State.enqWord (s : State) (code : Nat) (f : FmtA) (x : Upper) (wid : List Nat) : Result :=
  let e := s.execSet f.cond
  let node := (s.usrc32 f f.sb).toNat
  if e = 0 then s.retireLong
  else
    match s.enqReason node with
    | some r => .next (s.trapHere 0x0B r e)
    | none =>
      if code = 0x18B ∧ s.usrc32 f f.sc = 0 then s.retireLong
      else
        match s.freeLog with
        | none => s.refuseLog
        | some k =>
          let o := { s.mkOp code f x wid e with logi := some k, aux := [0, s.nodeRsz node, 0] }
          let s1 := ((s.addOut o [] []).takeLog k o.id).advance 16
          .next (s1.enterAccess o)

/-- NODE.ENQ (R445). -/
def execNodeEnq (f : FmtA) (x : Upper) (s : State) : Result := s.enqWord 0x18A f x [baseRegs x, 1, 0]
/-- NODE.ENQN (R445). -/
def execNodeEnqn (f : FmtA) (x : Upper) (s : State) : Result := s.enqWord 0x18B f x [baseRegs x, 1, 1]

/-- The node that an enqueuing word names, and the size of its records. -/
def Op.node (o : Op) : Nat := (o.val32 1 0).toNat
def Op.rsz (o : Op) : Nat := (o.aux[1]?).getD 0
/-- The lanes whose records have been sent; for NODE.ENQN, whether the release has been made. -/
def Op.sent (o : Op) : LaneMask := BitVec.ofNat 32 ((o.aux[2]?).getD 0)

/-- The record of lane l of NODE.ENQ sent, read as a load of the lane would. -/
def State.sendLane (s : State) (o : Op) (l : Nat) : State :=
  let bs := (o.parts l).flatMap fun p => s.readRange o p.1 p.2
  let errs := s.badLanes { o with e := (1 : LaneMask) <<< l }
  let s1 := (o.parts l).foldl (fun s p => s.fillRange o p.1 p.2) s
  if errs.isEmpty then s1.nodeRecord s.g.launch o.node bs else s1.checkLanes o errs

/-- The next record of NODE.ENQ. -/
def State.arriveLane (s : State) (o : Op) : Option State :=
  (lowestLane (o.e &&& ~~~o.sent)).map fun l =>
    let s1 := if o.sent = 0 then s.releaseIf o.x.ord.toNat o.x.scope.toNat else s
    let sent := o.sent ||| (1 : LaneMask) <<< l
    let s2 := s1.sendLane o l
    if o.e &&& ~~~sent = 0 then s2.afterAccess o
    else s2.putOp { o with aux := [0, o.rsz, sent.toNat] }

/-- The check of the next record of NODE.ENQN: the word with its translations, or a fault; none where it must wait. -/
def State.checkRecord (s : State) (o : Op) (a : Nat) : State × Option (Except EFault (List Xl)) :=
  if o.x.space = 0 then
    match s.windowFault a o.rsz with
    | some e => (s, some (.error e))
    | none => checkPieces s .read (pagesOf a o.rsz)
  else if s.outsideScratch a o.rsz then (s, some (.error (2, 0, a)))
  else (s, some (.ok []))

/-- The next record of NODE.ENQN: a fault parks every lane of the word, and its replay goes on from that record; an uncorrectable
error ends the word, the record not sent (R467). -/
def State.arriveNext (s : State) (o : Op) : Option State :=
  let a := effAddr o.x.space (o.base 0) o.x.offset ((o.chunk : Int) * o.rsz)
  let t := s.checkRecord o a
  t.2.map fun r =>
    match r with
    | .error e =>
      let q := ({ t.1 with w := { t.1.w with pend := t.1.w.pend.filter fun p => p.id != o.id } } : State).parkWhole o 1 e
      ({ q.1 with w := { q.1.w with parked := q.1.w.parked ++ [q.2] } } : State).drain
    | .ok xs =>
      let s1 := if o.sent = 0 then t.1.releaseIf o.x.ord.toNat o.x.scope.toNat else t.1
      let o1 := { o with xl := xs, chunk := o.chunk + 1, aux := [0, o.rsz, 1] }
      let bs := s1.readRange o1 a o.rsz
      match (List.range o.rsz).findSome? fun i => (s1.badAt o1 (a + i)).map fun c => (a + i, c) with
      | some (b, c) => ((s1.machineCheck c o.e b o.pc).dropLog o.logi).afterAccess o
      | none =>
      let s2 := (s1.fillRange o1 a o.rsz).nodeRecord s.g.launch o.node bs
      if (o.val32 2 0).toNat ≤ o.chunk + 1 then (s2.dropLog o.logi).afterAccess o else s2.putOp o1

/-- NODE_RECORD_ARRIVAL (R438, R445): one record of a word whose turn has come reaches its node. -/
def execNodeRecordArrival (op : Nat) (s : State) : Result :=
  orRefuse "NODE_RECORD_ARRIVAL" <|
    (s.focusOp op).bind fun p =>
      let o := p.1
      if (p.2.w.pend.any fun q => q.id == op) && p.2.opReady o then
        if o.code = 0x18A then p.2.arriveLane o
        else if o.code = 0x18B then p.2.arriveNext o
        else none
      else none

/-! ### The words -/

/-- GRAPH.START (R450). -/
def execGraphStart (f : FmtA) (x : Upper) (s : State) : Result := s.submit 0x18F f x none true
/-- GRAPH.WAIT (R450). -/
def execGraphWait (f : FmtA) (x : Upper) (s : State) : Result := s.hubWait 0x190 f x

/-- GRAPH.ABORT (R450): every queued and spilled record is discarded. -/
def execGraphAbort (f : FmtA) (_x : Upper) (s : State) : Result :=
  s.hubWord f fun s => s.updGraph (s.usrc32 f f.sa).toNat fun g =>
    if g.complete then g else { g with abt := true, nodes := g.nodes.map fun n => { n with queue := [], spill := [], due := 0 } }

end Sys2Proof.Machine
end

