-- ==== Sys2Proof/Machine/Die.lean ====
section
/-! DEFINITION. The die class (R501 to R520): hop distances, counters, the power manager's record, time, links and pixels. -/

namespace Sys2Proof.Machine

/-- The hop distance of two physical positions (R9, R503). -/
def physHops (p q : Nat) : Nat := if p = q then 0 else if p + q = 3 then 2 else 1

/-- The hop distance of two die numbers, 0xF naming the hub (R515). -/
def State.hops (s : State) (a b : Nat) : Nat :=
  if a < s.ndie ∧ b < s.ndie then physHops (s.phys a) (s.phys b)
  else if (a < s.ndie ∧ b = 15) ∨ (a = 15 ∧ b < s.ndie) then 1
  else if a = 15 ∧ b = 15 then 0
  else 0xFFFFFFFF

/-- DHOP (R515). -/
def execDhop (f : FmtA) (_x : Upper) (s : State) : Result :=
  (s.setV f.dst.toNat (s.execSet f.cond) fun l =>
    BitVec.ofNat 32 (s.hops (s.src32 f f.sa l).toNat (s.src32 f f.sb l).toNat)).retireLong

/-- A word that writes a uniform destination once (R514). -/
def State.dieOnce (s : State) (f : FmtA) (act : State → State) : Result :=
  (if s.execSet f.cond = 0 then s else act s).retireLong

/-- DCNT (R516). -/
def execDcnt (f : FmtA) (_x : Upper) (s : State) : Result :=
  s.dieOnce f fun s => s.setU2 f.dst.toNat ((s.die s.g.die).dcnt.get 0 ((s.usrc32 f f.sa).toNat % 8))

/-- Four registers of ones. -/
def ones128 : Word128 := 0xFFFFFFFFFFFFFFFFFFFFFFFFFFFFFFFF

/-- The power manager's record of a die (R517). -/
def Die.record (d : Die) : Word128 :=
  join4 (BitVec.ofNat 32 ((if d.relock.isSome then 64 else 0) + d.prev % 8 * 8 + d.step % 8))
    (BitVec.ofNat 32 d.steps) (BitVec.ofNat 32 d.stepAt) (BitVec.ofNat 32 (d.stepAt / 2 ^ 32))

/-- A request of the die in focus to the hub, and its answer of 16 bytes (R504, R517). -/
def State.askHub (s : State) : State := s.ask 0xC vcRequest 0 16

/-- DFREQ (R517): the hub serves it. -/
def execDfreq (f : FmtA) (_x : Upper) (s : State) : Result :=
  s.dieOnce f fun s =>
    let d := (s.usrc32 f f.sa).toNat
    (s.setU4 f.dst.toNat (if d < s.ndie then (s.die d).record else ones128)).askHub

/-- s.time and s.ncyc of a die, sampled at one instant (R510, R511). -/
def State.sample (s : State) (d : Nat) : Word128 :=
  let n := (s.die d).ncyc / 2520
  join4 (BitVec.ofNat 32 s.time) (BitVec.ofNat 32 (s.time / 2 ^ 32)) (BitVec.ofNat 32 n) (BitVec.ofNat 32 (n / 2 ^ 32))

/-- A uniform quad of a waiting warp written from outside, and its word complete. -/
def State.answerU4 (s : State) (o : Op) (x : Word128) : State :=
  s.updWarp o.warp fun w =>
    let u := (List.range 4).foldl (fun u k => Sparse.set 0 u (o.f.dst.toNat + k) (x.extractLsb' (32 * k) 32)) w.u
    ({ w with u := u, waits := w.waits.filter fun p => p.id != o.id } : Warp).finish o.id

/-- DTIME (R518): a request to a die that relocks, or whose way passes one, waits until that relock has ended. -/
def execDtime (f : FmtA) (x : Upper) (s : State) : Result :=
  let e := s.execSet f.cond
  let d := (s.usrc32 f f.sa).toNat
  if e = 0 then s.retireLong
  else if d = 15 then
    (s.setU4 f.dst.toNat (join4 (BitVec.ofNat 32 s.time) (BitVec.ofNat 32 (s.time / 2 ^ 32)) 0 0)).askHub.retireLong
  else if s.ndie ≤ d then (s.setU4 f.dst.toNat ones128).retireLong
  else if (s.die d).relock.isNone && !(s.routeHeld s.g.die d) then
    ((s.setU4 f.dst.toNat (s.sample d)).ask d vcRequest 0 16).retireLong
  else
    let o := s.mkOp 0x1C3 f x [1, 0, 0] e
    let s1 := ((s.addOut o [] (regs f.dst 4)).post (s.phys s.g.die) (s.phys d) vcRequest 0).advance 16
    .next { s1 with w := { s1.w with waits := s1.w.waits ++ [o] } }

/-- The requests that are served once a relock has ended (R509, R518): one die relocks at a time, so that nothing holds any. -/
def State.serveTimes (s : State) : State :=
  (s.warps.flatMap fun w => w.waits.filter fun o => decide (o.code = 0x1C3)).foldl
    (fun s o =>
      let d := (o.val32 0 0).toNat
      let t := s.answerU4 o (s.sample d)
      ((s.wgOf o.wg).map fun g => t.post (s.phys d) (s.phys g.die) vcResponse 16).getD t) s

/-- The link of a die to a far end (R519): the quad of DLINK. -/
def State.linkWord (s : State) (v f : Nat) : Word128 :=
  let far := if f = 15 then 4 else if f < s.ndie then s.phys f else 5
  match (s.die v).links.find? fun l => l.far == far with
  | none => 0
  | some l =>
    let hold := (s.die v).relock.isSome || (decide (far < 4) && (s.dieAt far).relock.isSome)
    let st := if l.down then 4 else if l.training then 2 else if hold then 3 else 1
    join4 (BitVec.ofNat 32 (st * 2 ^ 28 + l.modules * 2 ^ 24 + (if far = 4 then 1 else 2) * 2 ^ 16))
      (BitVec.ofNat 32 l.retrains) (BitVec.ofNat 32 l.sent) (BitVec.ofNat 32 l.received)

/-- DLINK (R519). -/
def execDlink (f : FmtA) (_x : Upper) (s : State) : Result :=
  s.dieOnce f fun s => s.setU4 f.dst.toNat (s.linkWord s.g.die (s.usrc32 f f.sa).toNat)

/-- What DQUAD writes for a pixel (R520). -/
def State.quadWord (s : State) (x y : Nat) : Word :=
  match s.geom with
  | none => 0x80000000
  | some g =>
    if g.w ≤ x ∨ g.h ≤ y then 0x80000000
    else BitVec.ofNat 32 (g.quadrant x y * 256 + (if g.inHalo s.g.die x y then 16 else 0) + g.owner x y)

/-- DQUAD (R520). -/
def execDquad (f : FmtA) (_x : Upper) (s : State) : Result :=
  (s.setV f.dst.toNat (s.execSet f.cond) fun l =>
    let p := (s.src32 f f.sa l).toNat
    s.quadWord (p % 65536) (p / 65536)).retireLong

end Sys2Proof.Machine
end

