-- ==== Sys2Proof/Machine/Settle.lean ====
section
/-! DEFINITION. Fault service by the hub (R461, R541 to R544), accesses of the host to device memory (R522), contexts that are
switched out, and uncorrectable errors on write-back (R468). -/

namespace Sys2Proof.Machine

/-! ### Accesses by physical line (R522) -/

/-- A frame that a host access reaches: on a position that is present, below the logical capacity, outside minimal mode
(R522, R527). -/
def State.hdmOk (s : State) (die frame : Nat) : Bool :=
  decide (s.hub.state ≠ 5) && decide (die < 4) && (s.dieAt die).present && decide (frame < (s.dieAt die).capacity)

/-- A byte as the host reads it: memory's, with a dirty byte of a home line merged in; of two home lines that hold dirty values
for it, either one's. -/
def Die.hostByte (d : Die) (a : Nat) : Byte :=
  let ls := d.l2.filter fun l => l.tag == a / 128 && l.isDirty (a % 128)
  match ls[Config.dirtyPick a % ls.length]? with
  | some l => l.byte (a % 128)
  | none => d.memByte a

/-- An uncorrectable error met by a host read of a byte: of memory, or of a home line whose dirty byte is merged in (R522). -/
def State.hostBad (s : State) (die a : Nat) : Bool :=
  s.bad.contains (5, die, a / 32)
    || (s.bad.contains (1, die, a / 128) && (s.dieAt die).l2.any fun l => l.tag == a / 128 && l.isDirty (a % 128))

/-- A byte written by its physical address: in memory, and in place in every home line that holds it, whose dirty state is
unchanged. -/
def Die.hostPut (d : Die) (a : Nat) (b : Byte) : Die :=
  { d with
    mem := d.mem.set byte0 a b
    held := d.held.map fun h => { h with bytes := h.bytes.filter fun p => p.1 != a }
    l2 := d.l2.map fun l =>
      if l.tag = a / 128 ∧ l.hasByte (a % 128) then { l.setByte (a % 128) b false with dirty := l.dirty } else l }

def Die.hostWrite (d : Die) (a : Nat) : List Byte → Die
  | [] => d
  | b :: bs => (d.hostPut a b).hostWrite (a + 1) bs

/-- Bytes written by their physical address, and the chunks of the compressed pages that they change (R484). -/
def State.hostPages (s : State) (die a : Nat) (bs : List Byte) : State :=
  let frames := ((List.range bs.length).map fun i => (a + i) / 4096 * 4096).eraseDups
  frames.foldl (fun t f => t.rechunk die f) (s.updDieAt die fun d => d.hostWrite a bs)

/-- An access of the host to a die that relocks waits for its end (R509). -/
def State.hostWaits (s : State) (die : Nat) : Bool := (s.dieAt die).relock.isSome

/-- What the host reads of a frame range (R522): outside the memory of the die all ones, with the poison indication and an error
event. -/
def State.hostRead (s : State) (die offset n : Nat) : State :=
  let ok := (List.range n).all fun i => s.hdmOk die (offset + i)
  let bad := (List.range n).any fun i => s.hostBad die (offset + i)
  if ok && !bad then
    { s with hub := { s.hub with readData := (List.range n).map (fun i => (s.dieAt die).hostByte (offset + i)), poison := false } }
  else
    { s with hub := { s.hub with
      readData := List.replicate n 0xFF, poison := true, errors := s.hub.errors + 1 } }

/-- HOST_MEM_READ (R522): the lookup travels on the forward class. -/
def execHostMemRead (die offset n : Nat) (s : State) : Result :=
  if s.hostWaits die then .refused (.notEnabled "HOST_MEM_READ")
  else .next (if s.hdmOk die offset then (s.hostRead die offset n).tellDie die vcForward 0 n else s.hostRead die offset n)

/-- HOST_MEM_WRITE (R522): outside the frame range the write is discarded, with an error event. -/
def execHostMemWrite (die offset : Nat) (data : List Byte) (s : State) : Result :=
  if s.hostWaits die then .refused (.notEnabled "HOST_MEM_WRITE")
  else if (List.range data.length).all fun i => s.hdmOk die (offset + i) then
    .next ((s.hostPages die offset data).tellDie die vcForward data.length 0)
  else .next { s with hub := { s.hub with errors := s.hub.errors + 1 } }

/-! ### The head word (R461) -/

/-- FAULT_QUEUE_HEAD_REREAD (R461): the hub rereads the head word, and writes the records that wait as far as there is
room. -/
def execFaultQueueHeadReread (s : State) : Result :=
  orRefuse "FAULT_QUEUE_HEAD_REREAD" <|
    s.ctx.bind fun k =>
      if k.fqHeld.isEmpty || s.queueFull k then none else some (s.drainRecords k.fqHeld.length)

/-! ### Settlement (R461, R543) -/

/-- The record has been written to its queue. -/
def Ctx.written (k : Ctx) (u : Unsettled) : Bool := decide (u.seq < k.fqSeq - k.fqHeld.length)

/-- Firmware's recheck of the mapping (R461). -/
def State.recheck (s : State) (u : Unsettled) : Bool :=
  let w := s.walk u.va
  decide (w.status = 0) && (!u.read || Kind.read.permitted w.leaf) && (!u.write || Kind.write.permitted w.leaf)
    && (!u.exec || Kind.fetch.permitted w.leaf)

/-- How firmware settles a record under policy 0; none while an out-of-space hold lasts. -/
def State.verdict (s : State) (u : Unsettled) : Option Bool :=
  if u.kind ≤ 3 then some false
  else if u.kind = 6 then
    match s.locOf u.va with
    | some a => if a.own < 4 then (if 0 < (s.die a.own).pool ∧ (s.die a.own).held.isEmpty then some true else none) else some true
    | none => some false
  else some (s.recheck u)

/-- FIRMWARE_FAULT_SETTLEMENT (R461): under policy 0 hub firmware settles the earliest written record that it can settle. -/
def execFirmwareFaultSettlement (s : State) : Result :=
  orRefuse "FIRMWARE_FAULT_SETTLEMENT" <|
    s.ctx.bind fun k =>
      if k.policy ≠ 0 then none
      else
        (k.unsettled.findSome? fun u => if k.written u then (s.verdict u).map fun v => (u, v) else none).map fun p =>
          (s.settleRec p.1.seq p.2).wake

/-- The answer of a management command over the DOE mailbox (R528). -/
def State.answer (s : State) (bs : List Byte) : State := { s with hub := { s.hub with doe := bs :: s.hub.doe } }

/-- A management error. -/
def mgmtError : List Byte := [0xFF]

/-- The record may be settled: an unsettled lane-fault record with that SEQ. -/
def Ctx.settleable (k : Ctx) (seq : Nat) : Option Unsettled :=
  k.unsettled.find? fun u => decide (u.seq % 65536 = seq) && k.written u

/-- A page-table entry that a Resume carries, written to GDDR-7 and to any home line that holds it (R543), on the die whose tables
translate the record's address (log entry 36). -/
def State.writePte (s : State) (k : Ctx) (va a : Nat) (pte : Option Word64) : State :=
  match pte with
  | some e =>
    let own := (ownerOf k.ndie va).getD 0xC
    s.hostPages (if own < 4 then k.vdEntry own % 4 else bitsOf a 38 37) (a % 2 ^ 37) (leBytes 8 e.toNat)
  | none => s

/-- The context of a number, in focus or switched out. -/
def State.ctxOf (s : State) (num : Nat) : Option Ctx :=
  if s.ctxNum = num then s.ctx else (s.savedOf num).map (·.ctx)

/-- SETTLE_FAULT_RECORD (R528, R543): a command that names no unsettled lane-fault record of the context is refused, and writes
nothing. -/
def execSettleFaultRecord (context index : Nat) (resume : Bool) (pteAddr : Nat) (pte : Option Word64) (s : State) : Result :=
  if s.hub.state ≠ 4 then .refused (.notEnabled "SETTLE_FAULT_RECORD")
  else
    let t := s.swapTo context
    match (t.ctxOf context).bind fun k => (k.settleable index).map fun u => (k, u) with
    | none => .next (t.answer mgmtError)
    | some (k, u) =>
      let t1 := if resume then t.writePte k u.va pteAddr pte else t
      .next ((if t.ctxNum = context then (t1.settleRec u.seq resume).wake
        else t1.inSaved context fun x => x.settleRec u.seq resume).answer [])

/-! ### The ends of contexts -/

/-- A context ends by its number, running or switched out, with a record and an event to the host. -/
def State.endByNum (s : State) (num : Nat) (r : RecordInfo) : State :=
  let s1 : State := { s with hub := { s.hub with events := s.hub.events ++ [r.kind] } }
  if s.ctx.isSome ∧ s.ctxNum = num then s1.endContext r
  else if s.others.any fun v => v.ctx.num == num then s1.inCtx num fun t => t.endContext r
  else s1.inSaved num fun t => (t.record r).stopContext

/-- WRITEBACK_UNCORRECTABLE_ERROR (R468): of a dirty line that has not been written back for an error in it, the contexts that
own it end. `location` is 1 for a home line, 2 for a guest line, and 0 for a line of an L1, to which R467 gives no code. -/
def execWritebackUncorrectableError (die line location : Nat) (s : State) : Result :=
  orRefuse "WRITEBACK_UNCORRECTABLE_ERROR" <|
    (s.hub.lost.find? fun x => x.die == die && x.line == line && x.location == location).map fun x =>
      (x.ctxs.filter fun n => s.ctxs.any fun k => k.num == n && !k.ended).foldl
        (fun t n => t.endByNum n { kind := 0x13, detail := location })
        { s with hub := { s.hub with lost := s.hub.lost.erase x } }

end Sys2Proof.Machine
end

