-- ==== Sys2Proof/Machine/Issue.lean ====
section
/-! DEFINITION. Issue: the head run (R91 to R93), what holds a word (R34, R45, R97), the ranking and exchange of warps (R98 to
R103), the starts of clauses (R40 to R45), illegal words (R57, R58), sleep (R126), runahead's entry and exit (R105, R106,
R110), and the debugger's stops (R478, R479). -/

namespace Sys2Proof.Machine

/-! ### Registers of a word (R45, R56) -/

/-- Registers that a word touches: lane registers, uniform registers and lane masks. -/
structure RegSet where
  v : List Nat := []
  u : List Nat := []
  m : List Nat := []

def RegSet.add (a b : RegSet) : RegSet := { v := a.v ++ b.v, u := a.u ++ b.u, m := a.m ++ b.m }

/-- The registers that an operand field names. -/
def opdRegs (o : Opd) (k : BitVec 2) (x : BitVec 8) : RegSet :=
  if o.used then
    (if k = 0 then { v := (List.range o.lane).map (x.toNat + ·) }
     else if k = 1 then { u := (List.range o.uni).map (x.toNat + ·) }
     else if k = 3 ∧ x.toNat < 8 then { m := [x.toNat] }
     else {})
  else {}

/-- The registers that a destination field names. -/
def dstRegs (d : DstK) (x : BitVec 8) : RegSet :=
  match d with
  | .lane n => { v := (List.range n).map (x.toNat + ·) }
  | .uni n => { u := (List.range n).map (x.toNat + ·) }
  | .mask => { m := [x.toNat] }
  | .none | .num _ => {}

/-- The sources of one half of PAIR. -/
def Compact.regs (c : Compact) : RegSet :=
  let b : RegSet := if c.sources = 1 then {} else if c.kb then { u := [c.sb.toNat] } else { v := [c.sb.toNat] }
  RegSet.add { v := [c.sa.toNat] } (RegSet.add b (if c.sources = 3 then { v := [c.sc.toNat] } else {}))

/-- What a word reads, and what it writes. -/
def wordRegs (cx : DecodeCtx) (b : BitVec 128) : RegSet × RegSet :=
  let w := Raw.ofBits b
  if w.op = 0x07F then
    let x := Compact.ofBits (b.extractLsb' 11 42)
    let y := Compact.ofBits (b.extractLsb' 53 42)
    (RegSet.add (Compact.regs x) (Compact.regs y), { v := [x.dst.toNat, y.dst.toNat] })
  else
    match rowOf cx w.op w with
    | some r => (RegSet.add (opdRegs r.sa w.ka w.sa) (RegSet.add (opdRegs r.sb w.kb w.sb) (opdRegs r.sc w.kc w.sc)),
        dstRegs r.dst w.dst)
    | none => ({}, {})

/-- The registers are destinations of an operation. -/
def Out.holds (o : Out) (r : RegSet) : Bool := (r.v.any fun k => o.vdst.contains k) || r.u.any fun k => o.wdst.contains k

/-! ### The head run (R91, R125) -/

/-- What decode knows at the word that the warp in focus reaches (R55, R56, R88). -/
def State.decodeCtx (s : State) (last : Bool) : DecodeCtx :=
  { regs := 8 * s.w.win, uregs := lrUregs s.g.lrec, nwarp := lrNwarp s.g.lrec,
    opened := BitVec.ofNat 8 (laneSetN (fun k => (s.g.oc.get {} k).opened) 8),
    slots := BitVec.ofNat 4 (laneSetN (fun k => decide (k < s.g.groups.length)) 4),
    fuse := lrFuse s.g.lrec, fs := lrSlots s.g.lrec, last := last }

/-- A head run as it may be chosen: its lanes, their address, and the lowest lane's entry. -/
structure Head where
  pc  : Word64
  set : LaneMask
  ent : LaneEnt

/-- The ready lanes at the lowest address, of those that are not held; lanes that have yielded are passed over where another
lane is ready (R91, R125, R264). DESIGN CHOICE (log entry 50): the choice is made anew at each turn until the run has begun its
clause, so that lanes which become ready at a lower or an equal address meanwhile go first or join (R91 beside R94); and of
lanes that stand together, some by a transfer and some by falling through, the lowest one's way of arrival decides between
reasons 0x08 and 0x09 and what th.epc names (R57). Lanes that are held when a runahead episode begins stay out of it while they
are held: R106 names parked and waiting lanes alone, and HOLD is no part of the shadow, so that lanes whose hold ends in
mid-episode run ahead with the others. -/
def Warp.pick (w : Warp) : Option Head :=
  let ready := w.lanesIn .ready &&& ~~~w.sync.hold
  let rest := ready &&& ~~~w.sched.passed
  let of_ := if rest = 0 then ready else rest
  let ent (l : Nat) : LaneEnt := (w.lanes[l]?).getD { st := .exited }
  match List.min? ((lanesOf of_).map fun l => (ent l).pc.toNat) with
  | none => none
  | some p =>
    let set := laneSet fun l => inSet of_ l && decide ((ent l).pc.toNat = p)
    (lowestLane set).map fun l => { pc := BitVec.ofNat 64 p, set := set, ent := ent l }

/-- The clause header at an address. -/
def State.header (s : State) (hdr : Word64) : Header := .ofBits ((s.wordBits hdr.toNat).extractLsb' 0 64)

/-- The run of lanes that stand inside a clause (R92); the choice of it is the one that lanes which yielded miss (R125). -/
def State.resumeRun (s : State) (h : Head) (m : Mid) : State :=
  let c := s.header m.hdr
  let r : Run := { hdr := m.hdr, pc := h.pc, left := m.left, flag0 := c.flag0, flag1 := c.flag1, mask := h.set }
  { s with w := { s.w with run := some r, sched := { s.w.sched with passed := 0 } } }

/-! ### What holds a word (R34, R45, R97, R278, R288, R310, R346, R376, R408) -/

/-- The class in which a word will count, and the queue that it enters. -/
def clsOf (code : Nat) : Option (Cls × Option Queue) :=
  if 0x146 ≤ code ∧ code ≤ 0x14B then some (.copy, some .copy)
  else if 0x150 ≤ code ∧ code ≤ 0x15B then some (.mtx, some .mtx)
  else if 0x160 ≤ code ∧ code ≤ 0x16B then some (.ray, some .ray)
  else if 0x170 ≤ code ∧ code ≤ 0x179 then some (.rsv, some .rsv)
  else if code = 0x17A then some (.rsv, none)
  else if 0x180 ≤ code ∧ code ≤ 0x185 then some (.rad, none)
  else none

/-- A word with executing lanes waits until a counter falls or the mailbox has room, which only a completion brings about (R34,
R497). -/
def State.counterFull (s : State) (w : Raw) : Bool :=
  let e := s.execSet w.fmtA.cond
  let store := storeCode w.op || atomCode w.op || redCode w.op
  decide (e ≠ 0) &&
    ((match clsOf w.op with
      | some (c, _) => decide (63 ≤ s.w.ocnt c)
      | none => false)
    || (store && decide (63 ≤ s.w.ocnt .rem) && s.goesRemote (s.mkOp w.op w.fmtA w.up [2, 1, 0] e))
    || (decide (w.op = 0x1AD ∨ w.op = 0x1AE) && s.mailboxFull))

/-- A queue has no room for a word with executing lanes: it is refused issue, a structural limit (R97, R288, R310, R346, R376,
R391, R408). -/
def State.queueRefuses (s : State) (w : Raw) : Bool :=
  decide (s.execSet w.fmtA.cond ≠ 0) && match clsOf w.op with
    | some (_, some q) => s.queueFullAt q
    | some (_, none) =>
      if w.op = 0x17A then decide (8 ≤ s.loessCount s.g.die)
      else decide (32 ≤ (s.die s.g.die).radq.countP fun o => s.clusterOf o == cluster s.g.core)
    | none => false

/-- The words that reserve an entry of the operand log (R456). -/
def logWord (w : Raw) : Bool :=
  (decide (0xE0 ≤ w.op) && decide (w.op < 0x128) && decide (w.op ≠ 0xF9)) || decide (w.op = 0x133)
    || (decide (0x146 ≤ w.op) && decide (w.op ≤ 0x14B)) || [0x150, 0x154, 0x158, 0x183, 0x184].contains w.op
    || (decide (0x160 ≤ w.op) && decide (w.op ≤ 0x168)) || (decide (0x170 ≤ w.op) && decide (w.op ≤ 0x179) && decide (w.up.space = 3))
    || [0x17A, 0x18A, 0x18B].contains w.op

/-- A full operand log refuses the word issue, a structural limit (R97, R456). -/
def State.logRefuses (s : State) (w : Raw) : Bool :=
  logWord w && decide (s.execSet w.fmtA.cond ≠ 0) && s.freeLog.isNone

/-- An access of the warp whose checks wait, or whose chunks are told only as it is performed (R485): the warp issues nothing until
they are decided, so that its faults are precise (R455). -/
def Warp.undecided (w : Warp) : Bool := w.pend.any fun o =>
  (decide (o.st = .queued) && !(orderOnly o.code))
    || (o.mayLack && decide (o.st = .running) && o.xl.any fun x => decide (x.own < 4) && cmpOf x.leaf)

/-- A word that may replay stands at an address of the run (R457). -/
def State.resumableAt (s : State) (pc : Word64) (set : LaneMask) : Option Op :=
  s.allOps.find? fun o => decide (o.warp = s.w.id) && decide (o.st = .resumable) && decide (o.pc = pc)
    && decide (o.park &&& set ≠ 0) && decide (o.inH = s.w.inHandler)

/-- What holds the next word of a run (R97): nothing; a long-latency dependence (R34, R45); a full queue; a full operand log,
which refuses the word at its issue (R456). -/
inductive WordHold where
  | free | waits | queue | log
  deriving DecidableEq, Repr

/-- What holds the next word of the run in progress. An illegal word, or one that cannot be fetched, is not held; but a store
that names a channel waits for a change of that channel before it is judged (R278), and any word for a fetch that a shoot-down
holds (R480). -/
def State.heldBy (s : State) : WordHold :=
  match s.w.run with
  | none => .free
  | some r =>
    let pc := r.pc.toNat
    let b := s.wordBits pc
    let cx := s.decodeCtx (decide (r.left ≤ 1))
    let w := Raw.ofBits b
    if s.w.carving || s.fetchHeld pc then .waits
    else if (s.transferTargets w.op w.fmtA).any s.fetchHeld then .waits
    else if (s.fetchCheck pc).2.isNone && decide (w.up.rch ≠ 0) && storeCode w.op && s.ocChanging (w.up.rch.toNat - 1) then
      .waits
    else if (s.fetchCheck pc).2.isSome || (s.resumableAt r.pc r.mask).isSome || !(clauseReasons cx b pc).isEmpty then
      (if s.w.undecided then .waits
       else if (s.resumableAt r.pc r.mask).any fun o => s.w.parked.any (fun p => p.id == o.id) && s.queueRefuses w then .queue
       else .free)
    else
      let rw := wordRegs cx b
      if s.w.undecided || (s.w.outs.any fun o => o.holds rw.1 || o.holds rw.2) || s.counterFull w then .waits
      else if s.queueRefuses w then .queue
      else if s.logRefuses w then .log
      else .free

/-- The next word of the run in progress cannot issue now. -/
def State.stalled (s : State) : Bool := decide (s.heldBy = .waits) || decide (s.heldBy = .queue)

/-- The warp in focus at the word that it issues next, where it stands inside a clause. -/
def State.atWord (s : State) : State :=
  match s.w.run, s.w.pick with
  | none, some h => match h.ent.mid with
    | some m => s.resumeRun h m
    | none => s
  | _, _ => s

/-! ### Readiness (R97) -/

def State.preempted (s : State) : Bool :=
  match s.ctx with
  | some k => k.preempt || k.ended
  | none => true

/-- Every flag of a WAIT is clear (R45). -/
def Warp.waitClear (w : Warp) (h : Header) : Bool := (List.range 12).all fun k => !(h.wait.getLsbD k && w.flagSet k)

/-- The header that a head run stands at, where it is one whose fields are legal. -/
def State.headerHere (s : State) (h : Head) : Option Header :=
  let b := (s.wordBits h.pc.toNat).extractLsb' 0 64
  if (s.fetchCheck h.pc.toNat).2.isNone && s.headerAt h.pc.toNat && (headerReasons b).isEmpty then some (.ofBits b) else none

/-- The warp in focus would be ready in an active place. -/
def State.couldGo (s : State) : Bool :=
  !s.w.ended && !s.w.halted && s.w.sleep.isNone && decide (s.w.id ≠ 0) && !(s.stopped s.g.die) &&
  (match s.atWord.w.run, s.w.pick with
   | some _, _ => decide (s.atWord.heldBy = .free) && !(s.w.run.isNone && s.preempted)
   | none, some h =>
     !s.preempted && !s.w.carving && !(s.fetchHeld h.pc.toNat) && (match s.headerHere h with
       | some d => s.w.waitClear d
       | none => true)
   | none, none => false)

/-- The active warp in focus is blocked (R97): a warp that is only refused by a structural limit is not. One whose context is
pre-empted, at a clause boundary, has nothing to issue. -/
def State.blocked (s : State) : Bool :=
  s.w.ended || s.w.halted || s.w.sleep.isSome || (s.w.run.isNone && s.preempted) ||
  (match s.atWord.w.run, s.w.pick with
   | some _, _ => decide (s.atWord.heldBy = .waits)
   | none, some h =>
     s.w.carving || s.fetchHeld h.pc.toNat || (match s.headerHere h with
       | some d => !(s.w.waitClear d)
       | none => false)
   | none, none => true)

/-- A warp, by identity, would be ready in an active place. -/
def State.readyIn (s : State) (id : Nat) : Bool :=
  match s.focus id with
  | some t => t.couldGo
  | none => false

/-! ### Ranking and exchange (R99 to R103) -/

/-- A warp ranks before another (R99). -/
def Warp.before (a b : Warp) : Bool :=
  let x := a.sched
  let y := b.sched
  if x.prio ≠ y.prio then decide (y.prio < x.prio)
  else if x.prom ≠ y.prom then x.prom
  else if x.prom && decide (x.promAt ≠ y.promAt) then decide (x.promAt < y.promAt)
  else if x.age ≠ y.age then decide (x.age < y.age)
  else decide (a.slot < b.slot)

/-- The best of a list of warps. -/
def bestWarp (ws : List Warp) : Option Warp :=
  ws.foldl (fun b w => match b with
    | none => some w
    | some v => if w.before v then some w else some v) none

/-- The core's pending warps that are ready. -/
def State.pendingReady (s : State) (die core : Nat) : List Warp :=
  (s.warpsOn die core).filter fun w => !w.sched.active && !w.ended && s.readyIn w.id

/-- A pending warp that the starvation guard has promoted takes the place of the youngest active warp that does not outrank
it (R101); of two of one age that of the higher slot (DESIGN CHOICE, log entry 50). -/
def State.promTakes (s : State) (die core out : Nat) : Option Warp :=
  (bestWarp ((s.warpsOn die core).filter fun w => !w.sched.active && !w.ended && w.sched.prom)).bind fun p =>
    let under := (s.warpsOn die core).filter fun w => w.sched.active && decide (w.sched.prio ≤ p.sched.prio)
    match under.foldl (fun b w => match b with
      | none => some w
      | some v => if v.sched.age < w.sched.age ∨ (v.sched.age = w.sched.age ∧ v.slot < w.slot) then some w else some v)
        (none : Option Warp) with
    | some y => if y.id = out then some p else none
    | none => none

/-- The warp that the warp in focus, about to start a clause, is to be exchanged with first (R101, R103). -/
def State.swapFirst (s : State) (h : Header) : Option Warp :=
  match s.promTakes s.g.die s.g.core s.w.id with
  | some p => some p
  | none =>
    let rs := s.pendingReady s.g.die s.g.core
    let yields := (h.yield || s.w.sched.hint) && !s.w.sched.swapped
    (bestWarp rs).bind fun b =>
      if (yields && decide (s.w.sched.prio ≤ b.sched.prio)) || (s.w.sched.exch && decide (s.w.sched.prio < b.sched.prio)) then
        some b
      else none

/-- The exchange of the warp in focus with a pending one is that of a YIELD (R103). -/
def State.yieldsTo (s : State) (b : Warp) : Bool :=
  (s.promTakes s.g.die s.g.core s.w.id).isNone && (s.w.pick.bind s.headerHere).any fun h =>
    (h.yield || s.w.sched.hint) && !s.w.sched.swapped && decide (s.w.sched.prio ≤ b.sched.prio)

/-- The warp in focus stands at a clause header, and the warp that takes its place there. -/
def State.swapHere (s : State) : Option Warp :=
  if s.w.run.isSome then none
  else s.w.pick.bind fun h => if h.ent.mid.isSome then none else (s.headerHere h).bind s.swapFirst

/-- The exchange of the two sets (R100): the pending warp that may take the place of a blocked active warp, or of one at a
clause boundary. A runahead episode ends for none of lower priority (R110). With no warp to leave, an empty place is
filled. -/
def State.exchangeFor (s : State) (out : Nat) (die core : Nat) : Option Warp :=
  if out = 0 then
    (if (s.warpsOn die core).countP (·.sched.active) < 8 then bestWarp (s.pendingReady die core) else none)
  else
    (s.focus out).bind fun t =>
      if !t.w.sched.active then none
      else if t.blocked then
        (bestWarp (s.pendingReady die core)).filter fun b => t.w.ra.isNone || decide (t.w.sched.prio ≤ b.sched.prio)
      else if t.couldGo then t.swapHere
      else none

/-- WARP_EXCHANGE (R100, R101, R103). -/
def execWarpExchange (out into : Nat) (s : State) : Result :=
  orRefuse "WARP_EXCHANGE" <|
    (s.focus into).bind fun t =>
      match t.exchangeFor out t.g.die t.g.core with
      | some b =>
        if b.id = into && decide (into ≠ 0) && decide (out ≠ into) then
          let yields := match t.focus out with
            | some q => !q.blocked && q.yieldsTo b && decide (out ≠ 0)
            | none => false
          let s1 := t.updWarp out fun w =>
            if out = 0 then w
            else { w with ra := none, sched := { w.sched with active := false, exch := false, swapped := yields } }
          some ((s1.updWarp into fun w => { w with sched := { w.sched with active := true } }).count 0x03)
        else none
      | none => none

/-- PRIO.SET (R127): where it leaves a ready pending warp of higher priority, an exchange falls due at the next clause boundary
(R101). -/
def execPrioSet (f : FmtA) (s : State) : Result :=
  if s.execSet f.cond = 0 then s.retire f
  else
    let p := min ((s.usrc32 f f.sa).toNat % 16) s.w.sched.ceil
    let exch := (s.pendingReady s.g.die s.g.core).any fun w => decide (p < w.sched.prio)
    ({ s with w := { s.w with sched := { s.w.sched with prio := p, exch := exch } } } : State).retire f

/-- STARVATION_PROMOTION (R102). -/
def execStarvationPromotion (warp : Nat) (s : State) : Result :=
  orRefuse "STARVATION_PROMOTION" <|
    (s.focus warp).bind fun t =>
      if 4096 ≤ t.w.sched.pass ∧ t.w.sched.prom = false then
        some (({ t with w := { t.w with sched := { t.w.sched with prom := true, promAt := t.n } } } : State).count 0x04)
      else none

/-! ### Clauses and words (R40 to R45, R57, R58) -/

/-- ILLEGAL_INSTRUCTION (R57): the trap is taken before any effect. At a clause header its lanes stand at the header, and a
target that is none puts the transferring word's address in th.epc (R41). A warp that runs ahead stops doing so (R58). -/
def execIllegalInstruction (reason : Nat) (s : State) : Result :=
  if s.w.ra.isSome then .next { s with w := { s.w with ra := none } }
  else
    match s.w.run with
    | some _ => .next (s.trapHere 3 reason s.m0)
    | none =>
      match s.w.pick with
      | some h => .next (s.warpTrap 3 (infoWord 0 reason) h.set h.set (if reason = 0x09 then h.ent.via.getD h.pc else h.pc) none)
      | none => .refused (.notEnabled "ILLEGAL_INSTRUCTION")

/-- CLAUSE_START (R45): the head run of the warp in focus starts the clause whose header it stands at, once its WAIT is
clear and no exchange falls due first. -/
def execClauseStart (h : Header) (s : State) : Result :=
  orRefuse "CLAUSE_START" <|
    if s.w.run.isSome || s.w.ended || s.w.halted || s.w.sleep.isSome || s.preempted || s.w.carving || !s.w.sched.active
        || s.w.ra.isSome then none
    else
      s.w.pick.bind fun d =>
        if d.ent.mid.isSome || s.headerHere d != some h || !(s.w.waitClear h) || (s.swapFirst h).isSome then none
        else
          let s1 := (s.fetchCheck d.pc.toNat).1
          some { s1 with w := { s1.w with
            run := some { hdr := d.pc, pc := nextWord d.pc 8, left := h.count, flag0 := h.flag0, flag1 := h.flag1, mask := d.set }
            sched := { s1.w.sched with passed := 0, hint := false, swapped := false, exch := false } } }

/-- SLEEP_WAKE (R126). -/
def execSleepWake (warp : Nat) (s : State) : Result :=
  orRefuse "SLEEP_WAKE" <|
    (s.focus warp).bind fun t => t.w.sleep.bind fun d =>
      if d ≤ t.time then some { t with w := { t.w with sleep := none } } else none

/-! ### Runahead: its beginning and its end (R105, R106, R110) -/

/-- The loads, gathers and value-returning atomics. -/
def blockCode (code : Nat) : Bool := loadCode code || atomCode code

/-- An access is predicted to take long (R105): another owner, a walk, or, where it goes past L1, a missing home line. -/
def State.longAccess (s : State) (o : Op) : Bool :=
  decide (o.x.space = 0) && (decide (o.st = .queued) || s.goesRemote o || o.askers.any fun l => (o.parts l).any fun p =>
    let a := o.loc p.1
    let hit := match s.l1Line s.g.die s.g.core p.1 with
      | some q => decide (s.pointFor o a.own = .l1) && (List.range p.2).all fun i => q.hasByte ((p.1 + i) % 128)
      | none => false
    !hit && (findLine (s.die s.g.die).l2 0 (sliceOf a.va) (a.pa / 128)).isNone)

/-- The access that the next word of the warp in focus waits for. -/
def State.blocker (s : State) : Option Op :=
  s.atWord.w.run.bind fun r =>
    let rw := wordRegs (s.decodeCtx (decide (r.left ≤ 1))) (s.wordBits r.pc.toNat)
    s.w.pend.find? fun o => blockCode o.code && !(s.w.raDone.contains o.id) && s.longAccess o
      && s.w.outs.any fun q => q.id == o.id && q.holds rw.1

/-- Windows that no resident warp and no shadow uses. -/
def State.spareWindows (s : State) : Nat :=
  let ws := s.warpsOn s.g.die s.g.core
  512 - (ws.map fun w => if w.ra.isSome then 2 * w.win else w.win).sum

/-- RUNAHEAD_ENTRY (R105, R106). DESIGN CHOICE (log entry 50): the destination of an instruction that is outstanding is unknown in
all 32 lanes, also in those that did not execute it, which R106 leaves open. -/
def execRunaheadEntry (warp : Nat) (s : State) : Result :=
  orRefuse "RUNAHEAD_ENTRY" <|
    (s.focus warp).bind fun t =>
      if t.w.ra.isSome || !t.w.sched.active || t.w.halted || t.w.sleep.isSome || t.w.ended || t.preempted
          || decide (t.spareWindows < t.w.win) || !(t.pendingReady t.g.die t.g.core).isEmpty then none
      else
        t.blocker.map fun o =>
          let unk := t.w.outs.flatMap (·.vdst)
          let ra : Runahead :=
            { v := t.w.v, u := t.w.u, m := t.w.m, ccC := t.w.ccC, ccZ := t.w.ccZ, ccN := t.w.ccN, ccV := t.w.ccV,
              lanes := t.w.lanes, rcb := t.w.rcb, run := t.w.run, sched := t.w.sched, blocker := o.id, left := 0,
              unkV := unk.flatMap fun r => (List.range 32).map (vKey r), unkU := t.w.outs.flatMap (·.wdst), unkM := [],
              unkC := 0 }
          ({ t with w := { t.w with ra := some ra, raDone := t.w.raDone ++ [o.id] } } : State).count 0x05

/-- Lanes of a shadow may still issue: those that are held do not run ahead (R106). -/
def Runahead.live (r : Runahead) (hold : LaneMask) : Bool :=
  r.run.isSome || (List.range 32).any fun l => !(inSet hold l) && match r.lanes[l]? with
    | some e => decide (e.st = .ready)
    | none => false

/-- RUNAHEAD_EXIT (R110): the checkpoint stands in the warp's own registers. -/
def execRunaheadExit (warp : Nat) (s : State) : Result :=
  orRefuse "RUNAHEAD_EXIT" <|
    (s.focus warp).bind fun t => t.w.ra.bind fun r =>
      if !(t.w.pend.any fun o => o.id == r.blocker) || !(r.live t.w.sync.hold) || t.preempted || t.w.halted
          || (t.pendingReady t.g.die t.g.core).any fun w => decide (t.w.sched.prio ≤ w.sched.prio) then
        some { t with w := { t.w with ra := none } }
      else none

/-! ### Debug (R478, R479) -/

/-- The warp in focus halts, every lane where it stands; runahead ends. -/
def Warp.halt (w : Warp) : Warp := { w with halted := true, ra := none }

/-- DEBUG_HALT_REQUEST (R478): one that meets a relocking die is served after the relock ends (R512). -/
def execDebugHaltRequest (warp : Nat) (s : State) : Result :=
  orRefuse "DEBUG_HALT_REQUEST" <|
    s.views.findSome? fun s => s.ctx.bind fun k =>
      (s.warpOf warp).bind fun w =>
        if k.debugger && decide (warp ≠ 0) && !(s.stopped (((s.wgOf w.wg).map (·.die)).getD 0)) then
          some (s.updWarp warp Warp.halt)
        else none

/-- DEBUG_RESUME (R478): the word that the warp stands at issues past a breakpoint on it. -/
def execDebugResume (warp : Nat) (single : Bool) (s : State) : Result :=
  orRefuse "DEBUG_RESUME" <|
    s.views.findSome? fun s => s.ctx.bind fun k => (s.warpOf warp).bind fun w =>
      if k.debugger && w.halted then
        some (s.updWarp warp fun w => { w with halted := false, single := single, passBp := true })
      else none

/-- DEBUGGER_ATTACH (R478): a context has at most eight breakpoints; without a debugger it has none. -/
def execDebuggerAttach (context : Nat) (attach : Bool) (breakpoints : List Nat) (s : State) : Result :=
  let set (k : Ctx) : Ctx :=
    { k with debugger := attach, bps := if attach then breakpoints.map fun a => BitVec.ofNat 64 a else [] }
  orRefuse "DEBUGGER_ATTACH" <|
    if 8 < breakpoints.length ∨ context ∉ s.ctxNums then none
    else if (s.swapTo context).ctxNum = context then some ((s.swapTo context).updCtx set)
    else some { s with saved := s.saved.map fun v => if v.ctx.num = context then { v with ctx := set v.ctx } else v }

/-- A breakpoint stops the warp in focus before it issues the word at an address (R478). -/
def State.breaksAt (s : State) (pc : Word64) : Bool :=
  match s.ctx with
  | some k => k.debugger && k.bps.contains pc && !s.w.passBp && s.w.ra.isNone
  | none => false

/-- The arrivals of a workgroup at the slot of a group. -/
def Wg.groupArr (g : Wg) (group : Nat) : LaneMask :=
  match g.groups.findIdx? (· == group) with
  | some j => (g.bars.get {} (16 + j)).arr
  | none => 0

/-- The bit that the hub gives for a group of a launch (R479): the phase has begun, and a member that has not arrived holds a halted
warp whose arrival it lacks. -/
def State.groupBlocked (s : State) (launch group : Nat) : Bool :=
  let at_ : List Nat := ((s.ctx.bind fun k => k.gbars.find? fun b => b.launch == launch && b.group == group).map (·.arrived)).getD []
  let members := (s.g :: s.gs).filter fun g => g.launch == launch && g.node.isNone && g.groups.contains group
  (!at_.isEmpty || members.any fun g => decide (g.groupArr group ≠ 0)) && members.any fun g =>
    !(at_.contains g.index) && (s.liveWarps g.id).any fun w => w.halted && decide (w.bit &&& g.groupArr group = 0)

/-- The 20 bits that the debug port gives for a workgroup (R266, R479): wb0 to wb15, then g0 to g3. A barrier whose phase lacks the
arrival of a halted warp is debug-blocked; the slot of a group says what the hub says of the group. -/
def State.debugBlocked (s : State) (g : Wg) : Nat :=
  laneSetN (fun k =>
    if k < 16 then
      let r := g.bars.get {} k
      (decide (r.arr ≠ 0) || r.set)
        && (s.liveWarps g.id).any fun w => w.halted && decide (w.bit &&& r.arr = 0)
    else (g.groups[k - 16]?).any fun group => s.groupBlocked g.launch group) 20

/-! ### Power gating (R253) -/

/-- The virtual number of a physical position. -/
def State.virt (s : State) (p : Nat) : Option Nat := (List.range s.ndie).find? fun v => s.phys v == p

/-- CORE_POWER_GATING (R253): a core that holds no workgroup writes its L1 back and empties it and its TLB. The number is 160
times the die's position plus that of the core. -/
def execCorePowerGating (core : Nat) (gate : Bool) (s : State) : Result :=
  let p := core / 160
  let n := core % 160
  orRefuse "CORE_POWER_GATING" <|
    if 4 ≤ p ∨ (s.dieAt p).gated.contains n = gate then none
    else if gate then
      let on (s : State) : State := s.updDieAt p fun d => { d with gated := n :: d.gated }
      let clear (s : State) : State := match s.virt p with
        | some v => (s.flushL1 v n).updCore v n fun c => { c with l1 := [], tlb := [] }
        | none => s
      if s.views.all fun t => match t.virt p with
        | some v => (t.wgsOn v n).isEmpty
        | none => true
      then some (on (s.others.foldl (fun t v => t.inCtx v.ctx.num clear) (clear s))) else none
    else some (s.updDieAt p fun d => { d with gated := d.gated.filter (· ≠ n) })

end Sys2Proof.Machine
end

