-- ==== Sys2Proof/Machine/Turn.lean ====
section
/-! DEFINITION. What the warp in focus does when its turn comes: words that run ahead (R106 to R109), replay (R457), machine
checks (R467), breakpoints (R478), and the issue of its next word or clause; `ex` is the effect of an instruction. -/

namespace Sys2Proof.Machine

/-! ### Runahead words (R106 to R109) -/

/-- The warp with its own registers and the shadow's exchanged. -/
def Warp.swapRa (w : Warp) : Warp :=
  match w.ra with
  | none => w
  | some r =>
    let ck : Runahead := { r with
      v := w.v, u := w.u, m := w.m, ccC := w.ccC, ccZ := w.ccZ, ccN := w.ccN, ccV := w.ccV, lanes := w.lanes,
      rcb := w.rcb, run := w.run, sched := w.sched }
    { w with v := r.v, u := r.u, m := r.m, ccC := r.ccC, ccZ := r.ccZ, ccN := r.ccN, ccV := r.ccV, lanes := r.lanes,
             rcb := r.rcb, run := r.run, sched := { r.sched with active := w.sched.active }, ra := some ck }

def State.swapRa (s : State) : State := { s with w := s.w.swapRa }

/-- A word reads condition codes. -/
def Raw.readsCC (w : Raw) : Bool := decide (w.cond ≠ 0) || [0x024, 0x025, 0x039, 0x03A].contains w.op

/-- A lane of the shadow reads an unknown value. -/
def Runahead.unknown (r : Runahead) (reads : RegSet) (cc : Bool) (l : Nat) : Bool :=
  (reads.v.any fun k => r.unkV.contains (vKey k l)) || (reads.u.any fun k => r.unkU.contains k)
    || (reads.m.any fun k => r.unkM.contains k) || (cc && inSet r.unkC l)

/-- The marks of a word's destinations: unknown in the lanes of `unk`, known in those of `known`. -/
def Runahead.mark (r : Runahead) (d : RegSet) (wcc : Bool) (unk known : LaneMask) : Runahead :=
  let keys (set : LaneMask) : List Nat := d.v.flatMap fun k => (lanesOf set).map (vKey k)
  let drop (xs ys : List Nat) : List Nat := xs.filter fun k => !(ys.contains k)
  let one (xs ys : List Nat) : List Nat := if unk ≠ 0 then drop xs ys ++ ys else if known ≠ 0 then drop xs ys else xs
  { r with
    unkV := drop (drop r.unkV (keys known)) (keys unk) ++ keys unk
    unkU := one r.unkU d.u
    unkM := one r.unkM d.m
    unkC := if wcc then (r.unkC ||| unk) &&& ~~~(known &&& ~~~unk) else r.unkC }

def State.markRa (s : State) (d : RegSet) (wcc : Bool) (unk known : LaneMask) : State :=
  { s with w := { s.w with ra := s.w.ra.map fun r => r.mark d wcc unk known } }

/-- What a word does in runahead (R108). DESIGN CHOICE (log entry 50): TLBQ and CHCLOSE, which no row of the table names, are
skipped. -/
inductive AheadKind where
  | transfer | run | load | prefetch | fill | skip
  deriving DecidableEq, Repr

def aheadKind (op : Nat) (space : BitVec 3) : AheadKind :=
  if 0x002 ≤ op ∧ op ≤ 0x009 then .transfer
  else if [0x001, 0x00A, 0x00B, 0x00C, 0x00D, 0x010, 0x011, 0x012, 0x014, 0x1A3, 0x1A5, 0x1A8, 0x1B0].contains op then .run
  else if 0x020 ≤ op ∧ op < 0x0E0 then .run
  else if loadCode op then .load
  else if fillCode op then .prefetch
  else if storeCode op && decide (space = 0) then .fill
  else .skip

/-- A line of which some sector stands in no cache that a fetch of it would fill: L1, or the L2 line alone. -/
def State.lineMissing (s : State) (va : Nat) (l1 : Bool) : Bool :=
  let a := va / 128 * 128
  let line := if l1 then s.l1Line s.g.die s.g.core a
    else match s.locOf a with
      | some c => if c.own = s.g.die then s.homeLine c else s.guestLine s.g.die a
      | none => none
  (List.range 128).any fun i => !(holdsByte line i)

/-- The bytes that a lane's load finds in L1 or in scratch, as `s0` holds them; none where the destination becomes unknown. A miss
issues a fill, and a translation miss a walk. The lines that it misses. -/
def State.aheadRead (s0 s : State) (o : Op) (l : Nat) : State × Option (List Byte) × List Nat :=
  let ps := o.parts l
  if o.x.space ≠ 0 then
    (s, if ps.all fun p => decide (p.1 + p.2 ≤ s.g.size) && decide (p.1 % o.align = 0) then some (s.laneBytes o l) else none, [])
  else
    let c := ps.foldl (fun (c : State × List Xl × Bool) p =>
      if c.2.2 then c
      else
        let r := c.1.lookup p.1 .quiet true
        match r.2 with
        | some x =>
          if x.status = 0 ∧ Kind.read.permitted x.leaf ∧ p.1 % o.align = 0 then (r.1, c.2.1 ++ [x], false)
          else (r.1, c.2.1, true)
        | none => (r.1, c.2.1, true)) (s, [], false)
    if c.2.2 then (c.1, none, [])
    else
      let o1 := { o with xl := c.2.1 }
      let t := c.1
      let misses := ps.filter fun p => (List.range p.2).any fun i =>
        !(holdsByte (s0.l1Line s0.g.die s0.g.core (p.1 + i)) ((p.1 + i) % 128))
      if misses.isEmpty then (t, some (s0.laneBytes o1 l), [])
      else
        ((misses.flatMap fun p => (List.range ((p.1 % 32 + p.2 + 31) / 32)).map fun k => max p.1 (p.1 / 32 * 32 + 32 * k)).foldl
            (fun s a => s.l1Fill s.g.die s.g.core (o1.loc a) o.evp) t,
          none, misses.map fun p => p.1 / 128)

/-- The loads of a word in runahead, lane by lane: the values found, and the lines missed. -/
def State.aheadLoads (s0 s : State) (o : Op) : List Nat → State × List (Nat × List Word) × List Nat
  | [] => (s, [], [])
  | l :: ls =>
    let r := s0.aheadRead s o l
    let q := s0.aheadLoads r.1 o ls
    (q.1, (match r.2.1 with
      | some bs => (l, o.loadWords bs) :: q.2.1
      | none => q.2.1), r.2.2 ++ q.2.2)

/-- A load or gather in runahead: of the lanes `may` that may execute it, `unk` are those whose address or condition is unknown. -/
def State.aheadLoad (s : State) (w : Raw) (row : Row) (may unk : LaneMask) : State :=
  let e := s.execSet w.fmtA.cond &&& ~~~unk
  let o := { s.mkOp w.op w.fmtA w.up [if w.up.space = 0 then 2 else 1, 1, 0] e with aux := [0] }
  let q := s.aheadLoads s o o.askers
  let r := (q.1.count 0x07 q.2.2.eraseDups.length, q.2.1)
  let word (l : Nat) : List Word := ((r.2.find? fun p => p.1 == l).map (·.2)).getD []
  match row.dst with
  | .lane n =>
    let got := if onceCode w.op then (if r.2.isEmpty then 0 else e) else laneSet fun l => r.2.any fun p => p.1 == l
    let val (l : Nat) : List Word := if onceCode w.op then ((r.2.head?).map (·.2)).getD [] else word l
    ((r.1.setRegs w.dst.toNat got val n)).markRa (dstRegs row.dst w.dst) false (may &&& (unk ||| (e &&& ~~~got))) got
  | _ =>
    match r.2 with
    | p :: _ =>
      let t := ((p.2.mapIdx fun i x => (i, x)).foldl (fun (s : State) q => s.setU (w.dst.toNat + q.1) q.2) r.1)
      t.markRa (dstRegs row.dst w.dst) false (may &&& unk) e
    | [] => r.1.markRa (dstRegs row.dst w.dst) false (may &&& (unk ||| e)) 0

/-- The lines of a word's known addresses fetched: into L2 alone for the prefetches of that kind. Each fill is counted (R494). -/
def State.aheadLines (s : State) (w : Raw) (unk : LaneMask) : State :=
  let o := s.mkOp w.op w.fmtA w.up [2, 1, 0] (s.execSet w.fmtA.cond &&& ~~~unk)
  let l1 := decide (w.op ≠ 0xF5) && decide (w.op ≠ 0xFD)
  let len := min (o.val32 1 0).toNat 4194304
  let as := if w.op = 0xFD then
      (if o.e = 0 ∨ len = 0 then [] else
        (List.range ((o.addr 0 + len - 1) / 128 + 1 - o.addr 0 / 128)).map fun k => 128 * (o.addr 0 / 128 + k) % 2 ^ 64)
    else ((lanesOf o.e).map fun l => o.addr l / 128 * 128).eraseDups
  as.foldl (fun s a =>
    let t := s.prefetchLine a l1 o.evp false
    if s.lineMissing a l1 && !(t.lineMissing a l1) then t.count 0x07 else t) s

/-! ### What becomes unknown (R107) -/

/-- The lanes of the run whose condition is unknown. -/
def Raw.condUnknown (w : Raw) (ra : Runahead) (m0 : LaneMask) : LaneMask :=
  if w.op = 0x07F ∨ w.cond = 0 then 0 else m0 &&& ra.unkC

/-- The source lane of a shuffle, by opcode. -/
def shflSrc (op : Nat) : Nat → Nat → Nat → Option Nat :=
  if op = 0x0C0 then srcIdx else if op = 0x0C1 then srcXor else if op = 0x0C2 then srcUp else srcDown

/-- The lanes that receive an unknown result of a cross-lane word: a lane that contributes reads an unknown value, or it is unknown
whether the lane contributes. `cond` are the lanes whose condition is unknown, `sa` and `sb` those that read an unknown operand. -/
def State.crossUnknown (s : State) (w : Raw) (cond sa sb : LaneMask) : LaneMask :=
  let e := s.execSet w.fmtA.cond ||| cond
  let doubt := e &&& (cond ||| sa)
  if w.op ≤ 0x0C3 then
    laneSet fun l => inSet cond l || inSet sb l ||
      match shflSrc w.op (segWidth w.fmtA) l (s.b32 w.fmtA l % 32) with
      | some k => if inSet e k then inSet doubt k || (inSet cond k && inSet sa l) else inSet sa l
      | none => inSet sa l
  else if w.op ≤ 0x0CE then (if doubt = 0 then 0 else s.m0)
  else
    let ex := w.md.getLsbD 5
    laneSet fun l => inSet cond l || (List.range 32).any fun k => inSet doubt k && (if ex then decide (k < l) else decide (k ≤ l))

/-- One word of a shadow, its registers in focus. -/
noncomputable def State.aheadWord (ex : Instr → State → Result) (s : State) (b : BitVec 128) (cx : DecodeCtx) : Option State :=
  let w := Raw.ofBits b
  let rw := wordRegs cx b
  match s.w.ra with
  | none => none
  | some ra =>
    let row := rowOf cx w.op w
    let cond := w.condUnknown ra s.m0
    let reads (r : RegSet) : LaneMask := laneSet fun l => inSet s.m0 l && ra.unknown r false l
    let sa := reads (match row with
      | some r => opdRegs r.sa w.ka w.sa
      | none => {})
    let sb := reads (match row with
      | some r => opdRegs r.sb w.kb w.sb
      | none => {})
    let base := laneSet fun l => inSet s.m0 l && ra.unknown rw.1 (decide (w.op ≠ 0x07F) && w.readsCC) l
    -- the lanes that execute the word, or may
    let may := s.execSet w.fmtA.cond ||| cond
    let unk :=
      if 0x0C0 ≤ w.op ∧ w.op < 0x0D1 then s.crossUnknown w cond sa sb
      else if w.op = 0x03D then
        -- MOVW reads its lowest executing lane alone
        base &&& laneSet fun l => lowestLane may == some l
      else base
    match aheadKind w.op w.up.space with
    | .transfer =>
      let s1 := s.leaveEpisode (base &&& may)
      if s1.m0 = 0 then some (s1.endRun fun _ => s.pc)
      else
        match ex (instrOf b) s1 with
        | .next t => some t
        | _ => none
    | .run =>
      -- EXIT and RCB.WAIT: lanes whose condition is unknown leave
      let s1 := if w.op = 0x00A ∨ w.op = 0x00C then s.leaveEpisode cond else s
      if s1.m0 = 0 then some (s1.endRun fun _ => s.pc)
      else
        match ex (instrOf b) s1 with
        | .next t =>
          if w.op = 0x07F then
            let half (t : State) (c : Compact) : State :=
              let u := reads (Compact.regs c)
              t.markRa { v := [c.dst.toNat] } false u (s.m0 &&& ~~~u)
            some (half (half t (Compact.ofBits (b.extractLsb' 11 42))) (Compact.ofBits (b.extractLsb' 53 42)))
          else
            some (t.markRa rw.2 w.wcc (may &&& unk) (may &&& ~~~unk))
        | _ => none
    | .load =>
      match row with
      | some row => some ((s.aheadLoad w row may unk).advance 16)
      | none => none
    | .prefetch | .fill =>
      -- the address alone must be known
      let index := [0xEE, 0xEF, 0xF3, 0xFD].contains w.op
      some ((s.aheadLines w (cond ||| sa ||| if index then sb else 0)).advance 16)
    | .skip =>
      some ((s.markRa rw.2 false may 0).advance (wordBytes b))

/-- The next word, or the next clause, of the shadow of the warp in focus; none where the episode has nothing to issue. -/
noncomputable def State.aheadStep (ex : Instr → State → Result) (s : State) : Option State :=
  let s1 := s.swapRa
  let ended : State := { s with w := { s.w with ra := none } }
  let back (t : State) : State :=
    let u := t.swapRa
    { u with w := { u.w with halted := s.w.halted } }
  match s1.w.run with
  | some r =>
    let f := s1.fetchCheck r.pc.toNat
    let b := f.1.wordBits r.pc.toNat
    let cx := f.1.decodeCtx (decide (r.left ≤ 1))
    if s1.fetchHeld r.pc.toNat then none
    else if f.2.isSome || (f.1.wordBad r.pc.toNat).isSome then some (back ((f.1.leaveEpisode r.mask).endRun fun _ => r.pc))
    else if !(clauseReasons cx b r.pc.toNat).isEmpty then some { ended with dies := f.1.dies, c := f.1.c, cs := f.1.cs }
    else (f.1.aheadWord ex b cx).map fun t => (back t).count 0x06
  | none =>
    s1.w.pick.bind fun h =>
      match h.ent.mid with
      | some m => some (back (s1.resumeRun h m))
      | none =>
        let f := s1.fetchCheck h.pc.toNat
        if s1.fetchHeld h.pc.toNat then none
        else if f.2.isSome || (f.1.wordBad h.pc.toNat).isSome then some (back (f.1.leaveEpisode h.set))
        else
          match f.1.headerHere h with
          | none => some ended
          | some d =>
            let r : Run := { hdr := h.pc, pc := nextWord h.pc 8, left := d.count, flag0 := d.flag0, flag1 := d.flag1, mask := h.set }
            some (back { f.1 with w := { f.1.w with run := some r, sched := { f.1.w.sched with passed := 0 } } })

/-! ### Replay (R457) -/

/-- The destinations that a replayed word holds again. -/
def Op.dests (o : Op) (cx : DecodeCtx) : RegSet :=
  let w := rawOf o.code o.f (some o.x)
  match rowOf cx o.code w with
  | some r => Sys2Proof.Machine.dstRegs r.dst w.dst
  | none => {}

/-- A parked operation of an engine that had not entered its queue is checked and entered again. -/
def State.reenter (s : State) (o : Op) : State :=
  let park (s : State) (acc : Nat) (e : EFault) : State :=
    let r := s.parkWhole o acc e
    { r.1 with w := { r.1.w with parked := r.1.w.parked ++ [r.2] } }
  if 0x146 ≤ o.code ∧ o.code ≤ 0x14B then
    match s.copyFault o (s.copyPtr o) with
    | some e => park s o.copyAcc e
    | none => s.copyEnter o
  else s.radEnter o

/-- The word of a resumable entry at the head run's address issues again for the entry's lanes alone. -/
def State.replayAt (s : State) (o : Op) : State :=
  let lanes := o.park &&& s.m0
  let s1 : State := { s with w := { s.w with run := s.w.run.map fun r => { r with mask := lanes } } }
  if (0x0E0 ≤ o.code ∧ o.code < 0x134) ∨ o.code = 0x18A ∨ o.code = 0x18B then
    let d := o.dests (s.decodeCtx true)
    s1.replay o lanes d.v d.u
  else if s.w.parked.any fun p => p.id == o.id then
    let o1 := { o with park := 0, recs := [], st := .queued }
    (({ s1 with w := { s1.w with parked := s1.w.parked.filter fun p => p.id != o.id } } : State).advance 16).reenter o1
  else if s.c.rsvq.any fun p => p.id == o.id then (s1.advance 16).rsvReplay o
  else if s.c.mtxq.any fun p => p.id == o.id then (s1.advance 16).mtxReplay { o with park := 0, recs := [], st := .queued }
  else
    (s1.advance 16).putOp { o with park := 0, recs := [], st := if s.c.copyq.any fun p => p.id == o.id then .queued else .running }

/-! ### The turn of a warp -/

/-- A run that parking has emptied ends (R92). -/
def State.closeRun (s : State) : State :=
  match s.w.run with
  | some r => if r.mask = 0 then s.endRun fun _ => r.pc else s
  | none => s

/-- The machine check that the warp has met becomes its trap before its next word (R467). -/
def State.takeCheck (s : State) (m : MCheck) : State :=
  let set := match s.w.run, s.w.pick with
    | some r, _ => r.mask
    | none, some h => h.set
    | none, none => 0
  ({ s with w := { s.w with mcPend := s.w.mcPend.drop 1, mc := m } } : State).warpTrap 5 (infoWord m.location.toNat 0) m.lanes set m.pc
    (s.w.run.map fun r => (r.pc, s.midHere))

/-- The lanes of a set park at an instruction address that cannot be fetched. -/
def State.parkHere (s : State) (st : Nat) (pc : Word64) (set : LaneMask) (via : Option Word64) (mid : Option Mid) : State :=
  s.parkFetch ((lanesOf set).map fun l => { lane := l, kind := 7, st := st, va := pc.toNat }) via mid

/-- Passing a breakpoint is for one word. -/
def State.clearPass (s : State) : State := { s with w := { s.w with passBp := false } }

/-- The other warps of the core that were ready when a word issued are passed over once more; the warp that issued starts
again from 0 (R102). -/
def State.passOver (before after : State) : State :=
  let ids := (before.warpsOn before.g.die before.g.core).filterMap fun w =>
    if w.id ≠ before.w.id && Config.unitFree before.n w.id && before.readyIn w.id then some w.id else none
  let s1 := ids.foldl (fun s id => s.updWarp id fun w => { w with sched := { w.sched with pass := min 4096 (w.sched.pass + 1) } })
    after
  s1.updWarp before.w.id fun w => { w with sched := { w.sched with pass := 0, prom := false } }

/-- A word has issued where the run has moved on: it is counted, and the other warps are passed over (R102, R494). -/
def countWord (s : State) (r : Result) : Result :=
  match r with
  | .next t => .next (if t.w.id = s.w.id ∧ t.w.run ≠ s.w.run then (s.passOver (t.count 0x01)).closeRun else t.closeRun)
  | r => r

/-- The lanes of the run for which a register that a word reads holds an uncorrectable parity error (R467, log entry 16). -/
def State.parityLanes (s : State) (reads : RegSet) : LaneMask :=
  if s.bad.isEmpty then 0
  else
    let whole := reads.u.any fun r => s.bad.contains (6, s.w.id, 2 ^ 13 + r)
    laneSet fun l => inSet s.m0 l && (whole || reads.v.any fun r => s.bad.contains (6, s.w.id, vKey r l))

/-- A word issues: lanes whose registers fail their parity take no part in it, stand at the next word, and have a machine check to
come (R467). -/
noncomputable def State.exParity (ex : Instr → State → Result) (s : State) (b : BitVec 128) (cx : DecodeCtx) : Result :=
  let set := s.parityLanes (wordRegs cx b).1
  if set = 0 then ex (instrOf b) s
  else
    let next := nextWord s.pc (wordBytes b)
    let s1 := (s.mapLanes fun l e => if inSet set l then { e with pc := next, mid := s.midNext, via := none } else e).machineCheck
      6 set 0 s.pc
    let rest := s.m0 &&& ~~~set
    if rest = 0 then .next (s1.advance (wordBytes b))
    else
      let rejoin (w : Warp) : Warp :=
        { w with run := w.run.map fun r => if r.hdr = s.hdr ∧ r.pc = next then { r with mask := r.mask ||| set } else r }
      match ex (instrOf b) { s1 with w := { s1.w with run := s1.w.run.map fun r => { r with mask := rest } } } with
      | .next t => .next (t.updWarp s.w.id rejoin)
      | r => r

/-- A word that reads a register or condition code of an earlier one waits until its latency has passed (R162): by then the flags of
every word whose latency ends as early have been ORed in. -/
def State.awaitLate (s : State) (b : BitVec 128) (cx : DecodeCtx) : State :=
  let r := (wordRegs cx b).1
  let w := Raw.ofBits b
  let codes := decide (w.op ≠ 0x07F) && (decide (w.fmtA.cond ≠ .always) || w.fmtA.fsel)
  let hit := s.w.late.filter fun p =>
    p.dst.any (fun k => r.v.contains k || (decide (256 ≤ k) && r.u.contains (k - 256))) || (p.cc && codes)
  let until_ := (hit.map (·.due)).foldl max 0
  { s with w := { s.w with late := s.w.late.filter fun p => decide (until_ < p.due) } }

/-- What the word writes noted with the flags that it has left to come. -/
def noteLate (b : BitVec 128) (cx : DecodeCtx) (r : Result) : Result :=
  let d := (wordRegs cx b).2
  let cc := decide ((Raw.ofBits b).op ≠ 0x07F) && (Raw.ofBits b).fmtA.wcc
  match r with
  | .next t => .next { t with w := { t.w with late := t.w.late.map fun p =>
      if p.fresh then { p with fresh := false, dst := d.v ++ d.u.map (256 + ·), cc := cc } else p } }
  | r => r

/-- The next word of the run in progress. -/
noncomputable def State.issueWord (ex : Instr → State → Result) (s : State) (r : Run) : Result :=
  let f := s.fetchCheck r.pc.toNat
  let b := f.1.wordBits r.pc.toNat
  let cx := f.1.decodeCtx (decide (r.left ≤ 1))
  match f.2 with
  | some st => .next (f.1.parkHere st r.pc r.mask none s.midHere).closeRun
  | none =>
    if let some l := f.1.wordBad r.pc.toNat then .next (f.1.machineCheck l r.mask r.pc.toNat r.pc)
    else if f.1.breaksAt r.pc then .next { f.1 with w := f.1.w.halt }
    else
      match f.1.resumableAt r.pc r.mask with
      | some o => countWord f.1 (.next (f.1.clearPass.replayAt o))
      | none =>
        match lowest (clauseReasons cx b r.pc.toNat) with
        | some reason => ex (.illegalInstruction reason) f.1.clearPass
        | none => countWord f.1 (noteLate b cx ((f.1.clearPass.awaitLate b cx).exParity ex b cx))

/-- The next thing that the warp in focus does; none where it is blocked. -/
noncomputable def State.warpTurn (ex : Instr → State → Result) (s : State) : Option Result :=
  if s.w.ended || s.w.halted || s.w.sleep.isSome || !s.w.sched.active || decide (s.w.id = 0) || s.stopped s.g.die then none
  else
    match s.w.mcPend with
    | m :: _ => some (.next (s.takeCheck m))
    | [] =>
      if s.w.ra.isSome then (s.aheadStep ex).map .next
      else
        match s.w.run with
        | some r =>
          if r.mask = 0 then some (.next s.closeRun)
          else if s.stalled then none
          else some (s.issueWord ex r)
        | none =>
          if s.preempted || s.w.carving then none
          else
            s.w.pick.bind fun h =>
              match h.ent.mid with
              | some m =>
                let t := s.resumeRun h m
                if t.stalled then none else t.w.run.map fun r => t.issueWord ex r
              | none =>
                if s.fetchHeld h.pc.toNat then none else
                let f := s.fetchCheck h.pc.toNat
                match f.2 with
                | some st => some (.next (f.1.parkHere st h.pc h.set h.ent.via none))
                | none =>
                  if let some l := f.1.wordBad h.pc.toNat then some (.next (f.1.machineCheck l h.set h.pc.toNat h.pc))
                  else if !(f.1.headerAt h.pc.toNat) then
                    some (ex (.illegalInstruction (if h.ent.via.isSome then 0x09 else 0x08)) f.1)
                  else
                    match lowest (headerReasons ((f.1.wordBits h.pc.toNat).extractLsb' 0 64)) with
                    | some reason => some (ex (.illegalInstruction reason) f.1)
                    | none =>
                      match ex (.clauseStart (f.1.header h.pc)) s with
                      | .next t => some (.next t)
                      | _ => none

end Sys2Proof.Machine
end

