-- ==== Sys2Proof/Machine/Save.lean ====
section
/-! DEFINITION. The bytes of the context save area (R471 to R477): what each part of a context looks like in device memory
once pre-emption is complete (R469). A piece is an offset within the area with its bytes. -/

namespace Sys2Proof.Machine

/-! ### Words of the state as the save area shows them -/

/-- STATE of a lane PC entry (R90). -/
def LaneState.code : LaneState → Nat
  | .ready => 0 | .waiting => 1 | .parked => 2 | .exited => 3

/-- A lane PC entry (R90). -/
def LaneEnt.bits (e : LaneEnt) : Nat := e.st.code * 2 ^ 61 + e.bidx % 8 * 2 ^ 58 + e.pc.toNat % 2 ^ 56

/-- A reconvergence barrier (R95). -/
def Rcb.bits (r : Rcb) : Nat := r.arr.toNat * 2 ^ 32 + r.exp.toNat

/-- The scheduling state (R98). -/
def Sched.bits (k : Sched) : Nat := k.pass % 2 ^ 13 * 2 ^ 12 + (if k.prom then 2 ^ 11 else 0) + k.ceil % 16 * 16 + k.prio % 16

/-- KIND of a hold (R263). -/
def HoldKind.code : HoldKind → Nat
  | .none => 0 | .barWg => 1 | .barWait => 2 | .gbar => 3 | .gbarWait => 4 | .gcoll => 5 | .waitc => 6

/-- The synchronisation state of a warp (R263). -/
def Sync.bits (y : Sync) : Nat := y.hold.toNat * 2 ^ 32 + y.kind.code * 2 ^ 29 + y.bnum % 16 * 2 ^ 25 + y.thr % 64 * 2 ^ 19

/-- A barrier record of a workgroup (R263). -/
def BarRec.bits (b : BarRec) : Nat :=
  b.arr.toNat * 2 ^ 32 + (if b.ph then 2 ^ 15 else 0) + (if b.set then 2 ^ 6 else 0) + b.exp % 64

/-- An ordered remote channel (R254). -/
def Ordered.bits (o : Ordered) : Nat := (if o.opened then 2 ^ 31 else 0) + (if o.loc then 4 else 0) + o.die % 4

/-- A channel (R280). -/
def Chan.bits (c : Chan) : Nat :=
  c.pp.toNat * 2 ^ 96 + c.wp.toNat * 2 ^ 64 + c.cp.toNat * 2 ^ 32 + (if c.dfn then 2 ^ 31 else 0) + c.lsz % 16 * 2 ^ 19
    + c.base / 256 % 2 ^ 11 * 2 ^ 8

/-- The condition codes of a lane (R132). -/
def Warp.ccBits (w : Warp) (l : Nat) : Nat :=
  (if w.ccN.getLsbD l then 8 else 0) + (if w.ccZ.getLsbD l then 4 else 0) + (if w.ccC.getLsbD l then 2 else 0)
    + (if w.ccV.getLsbD l then 1 else 0)

/-- The completion flags (R43). -/
def Warp.flagBits (w : Warp) : Nat := (List.range 12).foldl (fun n k => n + if w.flagSet k then 2 ^ k else 0) 0

/-- A flag field: 0xF for none. -/
def flagByte : Option Nat → Nat
  | none => 15
  | some k => k % 16

/-- The matrix status word (R328). -/
def Mtx.statBits (m : Mtx) : Nat :=
  m.bidx.toNat * 2 ^ 32 + m.tagOf 1 % 4 * 2 ^ 22 + m.tagOf 0 % 4 * 2 ^ 20 + m.plane % 2 * 2 ^ 16 + m.mstat.toNat % 128

/-! ### Blocks -/

/-- The index of a workgroup's block. -/
def Saved.blockOf (v : Saved) (wg : Nat) : Nat := v.wgs.findIdx fun g => g.id == wg

/-- The index of a warp in its workgroup. -/
def Saved.idxOf (v : Saved) (warp : Nat) : Nat :=
  match v.warps.find? fun w => w.id == warp with
  | some w => w.idx
  | none => 0

/-- Bytes whose content the manual does not state. -/
def freeBytes (n off len : Nat) : List Byte := (List.range len).map fun i => Config.saveByte n (off + i)

/-- A stack entry (R475). -/
def StackEnt.bits (e : StackEnt) : Nat :=
  (if e.inInst then 2 ^ 123 else 0) + e.child % 8 * 2 ^ 120 + e.parent % 2 ^ 56 * 2 ^ 64 + e.ref.toNat

/-- A traversal image (R475); zero for an idle record. -/
def Trav.imageBytes (t : Trav) : List Byte :=
  let hit (h : Option TriHit) : List Byte := match h with
    | some h => leBytes 8 h.tri ++ leBytes 8 (h.inst.getD 0)
    | none => leBytes 16 0
  if t.st = 0 then List.replicate 384 0
  else
    ((List.range 8).flatMap fun i => leBytes 4 (nth0 t.ray i).toNat) ++ leBytes 4 t.flags.toNat ++ leBytes 4 t.visits
      ++ leBytes 8 t.root.toNat ++ hit t.hit
      ++ leBytes 8 (match t.leaf with
          | some q => q.1.toNat
          | none => 0)
      ++ leBytes 4 t.tri ++ leBytes 4 t.stack.length ++ leBytes 8 (if t.inside then t.inst else 0) ++ hit t.cand ++ List.replicate 24 0
      ++ (List.range 16).flatMap fun i => leBytes 16 (match t.stack.reverse[i]? with
          | some e => e.bits
          | none => 0)

/-- A traversal record (R331). -/
def Trav.recBits (t : Trav) : Nat := t.st % 4 * 2 ^ 32 + t.seq % 2 ^ 32

/-- The bytes of a lane PC table and of eight barriers. -/
def laneBytes (es : List LaneEnt) : List Byte := es.flatMap fun e => leBytes 8 e.bits
def rcbBytes (t : Sparse Rcb) : List Byte := (List.range 8).flatMap fun b => leBytes 8 (t.get {} b).bits

/-- The size of a warp block, and the block (R473). -/
def Warp.blockSize (w : Warp) : Nat := 16384 + w.win * 1024
def Warp.block (w : Warp) : List Byte :=
  let sh : List Byte := match w.shadow with
    | some h => laneBytes h.lanes ++ rcbBytes h.rcb ++ leBytes 8 h.sync.bits
    | none => List.replicate 328 0
  let bit (p : Bool) (n : Nat) : Nat := if p then 2 ^ n else 0
  laneBytes w.lanes ++ rcbBytes w.rcb ++ leBytes 4 w.sched.bits ++ leBytes 4 w.sticky.toNat ++ leBytes 8 w.sched.age
    ++ leBytes 8 w.sync.bits ++ leBytes 4 w.flagBits
    ++ ([Cls.copy, .mtx, .ray, .rsv, .rad, .rem].flatMap fun c => leBytes 1 (w.ocnt c)) ++ leBytes 2 0
    ++ leBytes 4 (w.sleep.getD 0) ++ leBytes 8 w.th.epc.toNat ++ leBytes 4 w.th.amask.toNat ++ leBytes 4 w.th.fmask.toNat
    ++ leBytes 4 w.th.cause.toNat ++ leBytes 4 w.th.info.toNat
    ++ ((List.range 7).flatMap fun i => leBytes 4 (w.m.get 0 (i + 1)).toNat)
    ++ leBytes 4 (bit w.halted 0 + bit w.inHandler 1 + bit w.single 2)
    ++ ((List.range 32).flatMap fun l => leBytes 4 (w.ccBits l)) ++ sh ++ List.replicate 152 0
    ++ ((List.range 64).flatMap fun i => leBytes 4 (w.u.get 0 i).toNat)
    ++ ((List.range 32).flatMap fun l => leBytes 8 (w.trav.get {} l).recBits) ++ List.replicate 2560 0
    ++ ((List.range (w.win * 256)).flatMap fun i => leBytes 4 (w.v.get 0 i).toNat)
    ++ (List.range 32).flatMap fun l => (w.trav.get {} l).imageBytes

/-- A cell of a plane: its code, or a nibble of its 16-bit weight (R302). -/
def Mtx.cellAt (m : Mtx) (p k n : Nat) : Nat :=
  if m.tagOf p = tagQ4 then (m.cells.get 0 (cellKey p k n)).toNat
  else if 128 ≤ n / 4 then 0
  else (m.nibble p k (n / 4) (n % 4)).toNat

/-- A plane of the weight field with its block store (R472). -/
def Mtx.planeBytes (m : Mtx) (p : Nat) : List Byte :=
  ((List.range 512).flatMap fun n => (List.range 128).map fun j =>
      BitVec.ofNat 8 (m.cellAt p (2 * j) n + 16 * m.cellAt p (2 * j + 1) n))
    ++ (List.range 4096).flatMap fun i => leBytes 2 (let e := (m.blocks.get 0 (4096 * p + i)).toNat; e / 2 ^ 13 * 2 ^ 13 + e % 2 ^ 9)

/-- The size of a workgroup block, and the block at an offset of the area, its warp blocks in the order of warp index (R472). -/
def Saved.wgSize (g : Wg) : Nat :=
  4096 + lrScr g.lrec * 256 + (if lrMtx g.lrec then 167936 else 0) + lrNwarp g.lrec * (16384 + lrWin g.lrec * 1024)

/-- The warp of a workgroup with an index; one that has ended is as a warp whose lanes have all exited. -/
def Saved.warpAt (v : Saved) (g : Wg) (i : Nat) : Warp :=
  (v.warps.find? fun w => w.wg == g.id && w.idx == i).getD
    { id := 0, wg := g.id, idx := i, win := lrWin g.lrec, lanes := lanesAt .exited 0, ended := true }

def Saved.wgBlock (v : Saved) (n off next : Nat) (g : Wg) : List Byte :=
  let c := (v.cores.find? fun c => c.die == g.die && c.num == g.core).getD { die := g.die, num := g.core }
  ((List.range 20).flatMap fun i => leBytes 8 (g.bars.get {} i).bits)
    ++ ((List.range 8).flatMap fun i => leBytes 4 (g.oc.get {} i).bits)
    ++ ((List.range 16).flatMap fun i => leBytes 16 (g.ch.get {} i).bits)
    ++ leBytes 4 g.index ++ leBytes 4 g.launch ++ leBytes 1 g.die ++ leBytes 1 (lrNwarp g.lrec) ++ leBytes 2 0 ++ leBytes 4 c.ways
    ++ leBytes 8 next ++ List.replicate 40 0 ++ freeBytes n (off + 0x200) 1024
    ++ ((List.range 8).flatMap fun i => leBytes 8 (g.pmc.get 0 i).toNat)
    ++ ((List.range 8).map fun i => g.pmcEv.get 0 i) ++ List.replicate 2488 0
    ++ readBytes g.scratch 0 (lrScr g.lrec * 256)
    ++ (if lrMtx g.lrec then
          c.mtx.planeBytes 0 ++ c.mtx.planeBytes 1 ++ freeBytes n (off + 0x1000 + lrScr g.lrec * 256 + 147456) 20480
        else [])
    ++ (List.range (lrNwarp g.lrec)).flatMap fun i => (v.warpAt g i).block

/-- The workgroup blocks as pieces, one after another (R472). -/
def Saved.wgPieces (v : Saved) (n : Nat) : Nat → List Wg → List (Nat × List Byte)
  | _, [] => []
  | off, [g] => [(off, v.wgBlock n off 0 g)]
  | off, g :: gs => (off, v.wgBlock n off (off + Saved.wgSize g) g) :: v.wgPieces n (off + Saved.wgSize g) gs

/-! ### Log images (R474) -/

/-- The word of an operation. -/
def Op.wordBits (o : Op) : Nat := (rawOf o.code o.f (if longOp o.code then some o.x else none)).toBits.toNat

/-- State of a log image. -/
def OpState.logCode : OpState → Nat
  | .resumable => 1
  | .failed => 2
  | .condWait => 3
  | _ => 0

def Saved.logImage (v : Saved) (o : Op) : List Byte :=
  leBytes 16 (if o.st = .condWait then (o.aux[0]?).getD 0 else o.wordBits) ++ leBytes 8 o.pc.toNat ++ leBytes 4 o.park.toNat ++ leBytes 4 o.pcm.toNat ++ leBytes 4 o.chunk
    ++ leBytes 4 (v.blockOf o.wg) ++ leBytes 1 (v.idxOf o.warp) ++ leBytes 1 (flagByte o.flag) ++ leBytes 2 o.st.logCode
    ++ leBytes 4 0 ++ ((List.range 16).flatMap fun i => leBytes 4 (nth0 o.uv i).toNat) ++ List.replicate 16 0
    ++ (List.range 32).flatMap fun l => (List.range 12).flatMap fun i =>
        leBytes 4 (nth0 ((o.lv[l]?).getD []) i).toNat

/-- Every operation of a context that is switched out. -/
def Saved.ops (v : Saved) : List Op :=
  (v.warps.flatMap fun w => w.pend ++ w.parked ++ w.waits) ++ v.cores.flatMap Core.ops ++ v.loess.flatMap (·.1) ++ v.radq.flatMap (·.1)

/-- An operation belongs to a core. -/
def Saved.onCore (v : Saved) (c : Core) (o : Op) : Bool := v.wgs.any fun g => g.id == o.wg && g.die == c.die && g.core == c.num

/-- The operations that the log images show: of each live entry the parked part of its word before others, and the condition waits
(R469). -/
def Saved.logs (v : Saved) : List Op :=
  (v.cores.flatMap fun c => c.log.filterMap fun p =>
      let mine := v.ops.filter fun o => o.logi == some p.1 && v.onCore c o
      match mine.find? fun o => [OpState.parked, .resumable, .failed].contains o.st with
      | some o => some o
      | none => mine.head?)
    ++ v.ops.filter fun o => decide (o.st = .condWait)

/-! ### The reservoir, radiance and Loess regions -/

/-- The pixels whose records a die holds in one slice: physical layers, rows and columns rising (R371). -/
def Geom.inSlice (g : Geom) (d sl : Nat) : List (Nat × Nat × Nat) :=
  (List.range g.l).flatMap fun p => (List.range g.h).flatMap fun y => (List.range g.w).filterMap fun x =>
    if (y / 16 * ((g.w + 15) / 16) + x / 16 + 7 * p) % 50 = sl ∧ (g.owner x y = d ∨ g.inHalo d x y = true) then some (p, x, y)
    else none

/-- The reservoir image (R471): each die's records and halo copies. -/
def Saved.rsvImage (v : Saved) : List Byte :=
  if v.ctx.rsvDesc = 0 then []
  else
    let g := geomOf v.ctx.rsvDesc.toNat v.ctx.ndie
    (List.range v.ctx.ndie).flatMap fun d =>
      let t := (v.rsv[d]?).getD ([], [])
      (List.range 50).flatMap fun sl => (g.inSlice d sl).flatMap fun q =>
        let k := rsvKey q.1 q.2.1 q.2.2
        leBytes 32 (if g.owner q.2.1 q.2.2 = d then Sparse.get 0 t.1 k else Sparse.get 0 t.2 k).toNat

/-- The radiance image (R415, R471): the layout within a slot of a bank is not stated. -/
def Saved.radImage (v : Saved) (n off : Nat) : List Byte :=
  v.ctx.rad.image ++ leBytes 8 v.ctx.rad.gen.toNat ++ leBytes 8 v.ctx.rad.sdn ++ freeBytes n off (2 * 16384 * 96)

/-- A Loess image (R476). -/
def Saved.loessImage (v : Saved) (first : Bool) (o : Op) : List Byte :=
  ((List.range 16).flatMap fun i => leBytes 4 (o.reg 0 i 0).toNat) ++ leBytes 4 (v.blockOf o.wg) ++ leBytes 1 (v.idxOf o.warp)
    ++ leBytes 1 (flagByte o.flag) ++ leBytes 2 (if first && decide (o.st = .running) then 2 else 1) ++ leBytes 4 o.chunk
    ++ List.replicate 180 0

/-- The eight Loess images of a die, the operation at the head first. -/
def Saved.loessRegion (v : Saved) (d : Nat) : List Byte :=
  let q := ((v.loess[d]?).getD ([], 0)).1
  (List.range 8).flatMap fun i => match q[i]? with
    | some o => v.loessImage (i == 0) o
    | none => List.replicate 256 0

/-- A radiance query image (R477). -/
def Saved.radqImage (v : Saved) (o : Op) : List Byte :=
  let g := (v.wgs.find? fun g => g.id == o.wg).getD { id := 0 }
  let train := decide (o.code = 0x181)
  leBytes 16 o.wordBits ++ leBytes 4 (v.blockOf o.wg) ++ leBytes 1 (v.idxOf o.warp) ++ leBytes 1 (flagByte o.flag)
    ++ leBytes 1 (cluster g.core) ++ leBytes 1 g.die ++ leBytes 4 o.e.toNat ++ List.replicate 36 0
    ++ ((List.range 32).flatMap fun l => (List.range 16).flatMap fun i => leBytes 4 (o.reg 0 i l).toNat)
    ++ ((List.range 32).flatMap fun l => (List.range 4).flatMap fun i => leBytes 4 (if train then (o.reg 1 i l).toNat else 0))
    ++ ((List.range 32).flatMap fun l => leBytes 4 (if train then (o.reg 2 0 l).toNat else 0)) ++ List.replicate 320 0

/-- The queries of a die in the order of their clusters, and of their queues (R471). -/
def Saved.queries (v : Saved) (d : Nat) : List Op :=
  let q := (((v.radq[d]?).getD ([], 0)).1).filter fun o => decide (o.code = 0x180) || decide (o.code = 0x181)
  (List.range 20).flatMap fun c => q.filter fun o =>
    match v.wgs.find? fun g => g.id == o.wg with
    | some g => cluster g.core == c
    | none => c == 0

/-! ### The area (R471) -/

/-- The regions follow one another in the order of the header's offsets. -/
def Saved.pieces (v : Saved) (n time : Nat) (logs : List Op) : List (Nat × List Byte) :=
  let k := v.ctx
  let logAt := 4096 + (v.wgs.map Saved.wgSize).sum
  let rsvAt := logAt + 1664 * logs.length
  let rsv := v.rsvImage
  let radAt := rsvAt + rsv.length
  let rad := v.radImage n (radAt + 128384)
  let loAt := radAt + rad.length
  let qAt := loAt + 2048 * 4
  let qs := (List.range 4).flatMap v.queries
  let hd := leBytes 8 1 ++ leBytes 4 k.num ++ leBytes 4 k.ndie ++ leBytes 8 time ++ leBytes 8 k.thv.toNat
    ++ leBytes 4 v.wgs.length ++ leBytes 4 logs.length ++ leBytes 8 4096 ++ leBytes 8 logAt ++ leBytes 8 rsvAt ++ leBytes 8 radAt
    ++ ((List.range 4).flatMap fun d => leBytes 4 ((v.loess[d]?).getD ([], 0)).2.toNat) ++ leBytes 8 k.rsvDesc.toNat
    ++ leBytes 4 k.rot.toNat ++ leBytes 4 k.ways ++ leBytes 8 loAt ++ leBytes 4 qs.length ++ leBytes 4 0 ++ leBytes 8 qAt
    ++ List.replicate 3968 0
  (0, hd) :: v.wgPieces n 4096 v.wgs ++ [(logAt, logs.flatMap v.logImage), (rsvAt, rsv), (radAt, rad),
    (loAt, (List.range 4).flatMap v.loessRegion), (qAt, qs.flatMap v.radqImage)]

/-- The context's image written to its save area (R469 step 5). -/
def State.writeSave (s : State) (v : Saved) : State :=
  (v.pieces s.n s.time v.logs).foldl (fun s p => s.hdmWrite (v.ctx.saveAt + p.1) p.2) s

end Sys2Proof.Machine
end

