-- ==== Sys2Proof/Machine/Preempt.lean ====
section
/-! DEFINITION. Pre-emption and restore (R32, R46, R469, R470; R290, R330, R347, R379, R410 for the engines). -/

namespace Sys2Proof.Machine

/-- A warp of a context that is to be pre-empted: runahead ends, and its traversals count their visits from now (R110, R347). -/
def Warp.unhurried (w : Warp) : Warp :=
  { w with ra := none, trav := w.trav.map fun p => (p.1, { p.2 with since := 0 }) }

/-- The context in focus is asked to stop: placement and clause starts end, and runahead ends (R469). -/
def State.askStop (s : State) : State :=
  { s.updCtx fun k => { k with preempt := true, acks := [] } with
    w := s.w.unhurried
    ws := s.ws.map Warp.unhurried }

/-- PREEMPT_CONTEXT (R469, R528): a command that names no context that runs is answered as one that is refused (log entry 43). -/
def execPreemptContext (context : Nat) (s : State) : Result :=
  if s.hub.state ≠ 4 then .refused (.notEnabled "PREEMPT_CONTEXT")
  else
    let t := s.swapTo context
    if t.ctx.any fun k => k.num == context && !k.preempt && !k.ended then .next (t.askStop.answer [])
    else .next (s.answer mgmtError)

/-! ### The units of the collector (R32, R469) -/

/-- The units, as the model numbers them: 8 c + k for core c of the package, with k = 0 for the core, 1 to 4 for its copy,
matrix, ray and reservoir engines; from 6,000, 32 d + j for virtual die d, with j = 0 for Loess, 1 for Yarrow, and 2 to 21 for
its query units. -/
def dieUnit : Nat := 6000

/-- The words that wait for a condition (R469 step 2), and with them what a channel may hold for ever: CHPROD.rsv (R287) and
the matrix words (R330). -/
def conditionWait (o : Op) : Bool :=
  [0x145, 0x18D, 0x190, 0x1AE, 0x142].contains o.code || (decide (o.code = 0x185) && decide (o.x.ext.toNat % 8 = 1))
    || (decide (0x150 ≤ o.code) && decide (o.code ≤ 0x15B))

/-- An operation that goes no further before the save: its lanes are parked, it waits for a condition, its engine or its query
unit has acknowledged (R32), or it is an access that a warp of its core still has to perform, and that nothing lets be
performed (`lasting`). -/
def State.idleOp (s : State) (o : Op) : Bool :=
  [.parked, .resumable, .failed].contains o.st || conditionWait o
    || (match clsOf o.code with
        | some (.copy, _) => s.unitOff (s.engineUnit 1)
        | some (.mtx, _) => s.unitOff (s.engineUnit 2)
        | some (.ray, _) => s.unitOff (s.engineUnit 3)
        | some (.rad, _) => s.unitOff (dieUnit + 32 * s.c.die + 2 + s.clusterOf o)
        | _ => s.warps.any fun w => w.pend.any fun p => p.id == o.id)

/-- An access of the warp in focus waits for something that passes: its checks, its messages, a relock, a migration or a
shoot-down, a promotion, or a transformation of its bytes that still goes on. -/
def State.passing (s : State) (o : Op) : Bool :=
  (decide (o.st = .queued) && !(orderOnly o.code) && (o.logi.isSome || s.freeLog.isSome)) || s.onLinks o.id
    || (o.onScratch && !(s.unitOff (s.engineUnit 1)) && o.touches.any fun p => s.bxHolds o p.1 p.2)
    || (decide (o.x.space = 0) && o.askers.any fun l => (o.parts l).any fun p =>
        s.heldAt p.1 o.kind || (o.x.racq && (s.racqEntry s.g.die s.g.core (o.loc p.1)).isSome))
    || (relOf o.x.ord.toNat && s.flushHeld s.g.die s.g.core)

/-- No access of the warp in focus may be performed, and what each waits for lasts: an acquire that waits for a condition, a parked
access, a held write, or an engine that has stopped (R287, R469). -/
def State.lasting (s : State) : Bool :=
  s.w.pend.all fun o => !(s.opReady o && !(s.tagHeld o)) && !(s.passing o)

/-- What refuses the next word of the warp in focus for good: a counter, a queue or the operand log stays full, since all
that fills it goes no further, or the mailbox has no place (R34, R287, R456, R497). DEDUCED (log entry 49). -/
def State.refusedForGood (s : State) (w : Raw) : Bool :=
  (s.queueRefuses w && match clsOf w.op with
    | some (_, some q) => (s.c.places q).all s.idleOp
    | _ => (s.allOps.filter fun o => decide (clsOf o.code = clsOf w.op)).all s.idleOp)
    || (s.logRefuses w && s.c.log.all fun p => (s.findOp p.2).all s.idleOp)
    || (s.counterFull w && (s.allOps.filter fun o => decide (o.warp = s.w.id) && o.cls.isSome).all s.idleOp)

/-- The CARVE that the warp in focus awaits waits itself for good: for scratch accesses and operations that go no further. -/
def State.carveStays (s : State) : Bool :=
  s.w.carving && (s.w.waits.any fun o => decide (o.code = 0xF9)
    && (match o.aux with
        | [n] => decide (s.c.ways < n) && s.scratchUsers o.id (carveLimit n)
        | _ => false))
    && (s.c.copyq ++ s.c.mtxq).all fun p => decide (p.wg ≠ s.g.id) || s.idleOp p

/-- A change of the channel that the next word names waits itself for stores that go no further (R278). -/
def State.openStays (s : State) (w : Raw) : Bool :=
  decide (w.up.rch ≠ 0) && storeCode w.op && s.ocChanging (w.up.rch.toNat - 1) && s.taggedBefore (w.up.rch.toNat - 1)

/-- The next word of the run in focus does not issue, and what holds it goes no further: what a register awaits, a CARVE, a
channel, an access whose faults are still to be told, or a limit (log entry 49). -/
def State.heldForGood (s : State) : Bool :=
  match s.w.run with
  | none => false
  | some r =>
    let b := s.wordBits r.pc.toNat
    let rw := wordRegs (s.decodeCtx (decide (r.left ≤ 1))) b
    let w := Raw.ofBits b
    decide (s.heldBy ≠ .free) && (s.carveStays || s.w.undecided || s.openStays w || s.refusedForGood w
      || s.w.outs.any fun o => (o.holds rw.1 || o.holds rw.2) && (s.findOp o.id).any s.idleOp)

/-- The warp in focus has stopped: at the end of its clause, or where nothing lets it issue; its accesses have been performed
as far as they can be, and no die word in flight has its destination still to write (R514). -/
def State.warpStopped (s : State) : Bool :=
  s.lasting && (s.w.run.isNone || s.w.halted || s.w.ended || s.heldForGood)
    && !(s.w.waits.any fun o => decide (o.code = 0x1C3))

/-- A unit has stopped at its boundary, with nothing in flight. -/
def State.unitStopped (s : State) (u : Nat) : Bool :=
  if u < 5120 then
    let d := u / 8 / 160
    let n := u / 8 % 160
    if u % 8 = 0 then
      (s.warpsAt d n).all fun w => match s.focus w.id with
        | some t => t.warpStopped
        | none => true
    else if u % 8 = 4 then (s.core d n).rsvq.all fun o => match s.focusOp o.id with
        | some p => decide (p.2.rsvReady p.1 = 0)
        | none => true
    else if u % 8 = 1 then !((s.core d n).copyq.any Op.inFlight)
    else if u % 8 = 3 then (s.core d n).rayq.all fun o => match s.focusOp o.id with
        | some p => !(p.2.rayRuns p.1)
        | none => true
    else true
  else
    let d := (u - dieUnit) / 32
    let j := (u - dieUnit) % 32
    if j = 0 then (s.die d).loess.isNone
    else if j = 1 then (match s.ctx with
      | some k => !k.rad.step
      | none => true)
    else (s.die d).radq.all fun o => decide (s.clusterOf o ≠ j - 2) || !(decide (o.code = 0x181) && decide (0 < o.chunk))

/-- The units that hold something of the context; the others acknowledge at once. -/
def State.busyUnits (s : State) : List Nat :=
  let core (c : Core) : List Nat :=
    let id := 8 * coreId c.die c.num
    (if (s.wgsOn c.die c.num).isEmpty then [] else [id]) ++ (if c.copyq.isEmpty then [] else [id + 1])
      ++ (if c.mtxq.isEmpty then [] else [id + 2]) ++ (if c.rayq.isEmpty then [] else [id + 3])
      ++ (if c.rsvq.isEmpty then [] else [id + 4])
  ((s.c :: s.cs).filter fun c => decide (c.die < s.ndie)).flatMap core
    ++ (List.range s.ndie).flatMap fun d =>
        (if (s.die d).loessQ.isEmpty then [] else [dieUnit + 32 * d]) ++ [dieUnit + 32 * d + 1]
          ++ ((s.die d).radq.map fun o => dieUnit + 32 * d + 2 + s.clusterOf o).eraseDups

/-- The virtual die of a unit; one that relocks acknowledges nothing (R512). -/
def unitDie (u : Nat) : Nat := if u < 5120 then u / 8 / 160 else (u - dieUnit) / 32
def State.unitRelocks (s : State) (u : Nat) : Bool := s.stopped (unitDie u)

/-- ENGINE_PREEMPT_ACK (R32, R469). -/
def execEnginePreemptAck (unit : Nat) (s : State) : Result :=
  orRefuse "ENGINE_PREEMPT_ACK" <|
    s.ctx.bind fun k =>
      if k.preempt && !(k.acks.contains unit) && s.busyUnits.contains unit && s.unitStopped unit && !(s.unitRelocks unit) then
        some ((s.updCtx fun k => { k with acks := unit :: k.acks }).tellHub (unitDie unit))
      else none

/-! ### The save (R469, R471 to R477) -/

/-- A warp as it is saved: its lanes stand where they are, and a sleep keeps its remaining ticks. -/
def Warp.toSave (w : Warp) (time : Nat) : Warp :=
  let lanes := match w.run with
    | none => w.lanes
    | some r => w.lanes.mapIdx fun l e =>
        if inSet r.mask l && decide (e.st = .ready) then
          { e with pc := r.pc, mid := some { hdr := r.hdr, left := r.left }, via := none } else e
  { w with lanes := lanes, run := none, ra := none, late := [], sleep := w.sleep.map fun d => d - time }

/-- The log entry of state 3 under which the run of the warp in focus parks at the word that holds it inside its clause, so that no
lane is saved ready there (R46, R469 step 2; log entry 49). -/
def State.condEntry (s : State) : Option Op :=
  s.w.run.map fun r =>
    let b := s.wordBits r.pc.toNat
    let w := Raw.ofBits b
    let m := laneSet fun l => inSet r.mask l && (s.w.lanes[l]?).any fun e => decide (e.st = .ready)
    { s.mkOp w.op w.fmtA w.up [] m with
      id := 0, pc := r.pc, mid := { hdr := r.hdr, left := r.left }, park := m, flag := none, aux := [b.toNat], st := .condWait }

/-- A warp as the save finds it. -/
def State.saveWarp (s : State) (w : Warp) : Warp :=
  match (s.focus w.id).bind State.condEntry with
  | some o =>
    let w1 := w.toSave s.time
    { w1 with lanes := parkTable w1.lanes o.park (fun _ => o.pc) (some o.mid) none, parked := w1.parked ++ [o] }
  | none => w.toSave s.time

/-- The lanes that R469 has parked under entries of state 3 stand ready at their words again, and retest the condition there. -/
def Warp.reset3 (w : Warp) : Warp :=
  let set := (w.parked.filter fun o => decide (o.st = .condWait)).foldl (fun m o => m ||| o.park) 0
  { w with lanes := unparkTable w.lanes set, parked := w.parked.filter fun o => decide (o.st ≠ .condWait) }

/-- What a core keeps of a context that is switched out: neither its caches nor the matrix engine's entry buffer (R330). -/
def Core.toSave (c : Core) : Core := { c with l1 := [], tlb := [], mtx := { c.mtx with ebuf := [] } }

/-- The context of the machine as it is saved. -/
def State.image (s : State) (k : Ctx) : Saved :=
  s.takeDies
    { ctx := { k with preempt := false, acks := [] }
      wgs := (s.g :: s.gs).filter (·.id != 0)
      warps := (s.warps.filter (·.id != 0)).map s.saveWarp
      cores := ((s.c :: s.cs).filter fun c => !(s.wgsOn c.die c.num).isEmpty).map Core.toSave
      rsv := [], loess := [], radq := [] }

/-- The caches and the translations of the running context leave the package; nothing of it stays dirty. -/
def State.purgeCtx (s : State) : State :=
  let s1 := (s.c :: s.cs).foldl (fun s c => s.flushL1 c.die c.num) s
  let s2 := (List.range 4).foldl (fun s v => if v < s.ndie then s.flushGuest v else s) s1
  { s2 with dies := s2.dies.map fun d => { d with
      guest := d.guest.filter (·.ctx != s.ctxNum), stlb := d.stlb.filter (·.ctx != s.ctxNum),
      walks := d.walks.filter (·.ctx != s.ctxNum) } }

/-- The package without a context in focus: no warp, no workgroup, idle cores and engines. -/
def State.vacate (s : State) : State :=
  { s with
    w := Warp.idle, ws := [], g := { id := 0 }, gs := [], c := { die := 0, num := 0 }, cs := [], ctx := none
    dies := s.dies.map Die.bare }

/-- The context in focus goes on running beside another (log entry 2). -/
def State.aside (s : State) : State :=
  match s.ctx with
  | some k => { s.vacate with others := s.part k :: s.others }
  | none => s

/-- PREEMPTION_COMPLETE (R469): every unit has acknowledged; the context is written back and saved. -/
def execPreemptionComplete (s : State) : Result :=
  orRefuse "PREEMPTION_COMPLETE" <|
    s.ctx.bind fun k =>
      if k.preempt && s.busyUnits.all fun u => k.acks.contains u && s.unitStopped u then
        let s1 := s.purgeCtx
        let v := s1.image (s1.ctx.getD k)
        some ({ (s1.writeSave v).vacate with saved := s.saved ++ [v] } : State).resplit
      else none

/-! ### Restore (R470) -/

/-- The machine with the context of an image running on it, before its workgroups are placed. -/
def State.install (s : State) (v : Saved) : State :=
  ({ s with saved := s.saved.filter fun x => x.ctx.num != v.ctx.num, ctx := some v.ctx } : State).putDies v

/-- The traversals of the context in focus reloaded (R347, R475). -/
def State.reloadRays (s : State) : State :=
  let go (w : Warp) : Warp := { w with trav := w.trav.map fun p =>
    (p.1, if p.2.st = 0 then p.2 else p.2.reload fun a n => s.homeRead a n) }
  { s with w := go s.w, ws := s.ws.map go }

/-- The lowest free operand-log entry of a core. -/
def State.freeLogAt (s : State) (die core : Nat) : Nat :=
  ((List.range 96).find? fun k => !((s.core die core).log.any fun p => p.1 == k)).getD 0

/-- A workgroup of an image takes its place on a core of its die: its scratch, its warps, and its operations and live log entries
from its former core. -/
def State.seat (s : State) (v : Saved) (g : Wg) (n : Nat) : State :=
  let old := (v.cores.find? fun c => c.die == g.die && c.num == g.core).getD { die := g.die, num := g.core }
  let mine (os : List Op) : List Op := os.filter fun o => o.wg == g.id
  let s1 := if lrFuse g.lrec && !(s.fusedAt g.die n) then
      s.refuse8 g.die n (some g.key) fun c => { c with ways := old.ways }
    else if (s.wgsOn g.die n).isEmpty then s.applyCarve g.die n old.ways
    else s
  let taken := (s1.wgsOn g.die n).map fun q => (q.base, q.size)
  let g1 : Wg := { g with core := n, base := (freeBase taken ((16 - (s1.core g.die n).ways) * 32768) g.size).getD g.base }
  let s2 := s1.updCore g.die n fun c => { c with
    copyq := c.copyq ++ mine old.copyq, mtxq := c.mtxq ++ mine old.mtxq, rayq := c.rayq ++ mine old.rayq
    rsvq := c.rsvq ++ mine old.rsvq, mtx := if lrMtx g.lrec then old.mtx else c.mtx }
  let s3 : State := { s2 with gs := s2.gs ++ [g1] }
  let s4 := (v.warps.filter fun w => w.wg == g.id).foldl (fun (s : State) w =>
    let ws := s.warpsOn g.die n
    let slot := ((List.range 64).find? fun k => !(ws.any fun q => q.slot == k)).getD 0
    { s with ws := s.ws ++ [{ w with
        slot := slot
        lanes := w.reset3.lanes
        parked := w.reset3.parked
        sleep := w.sleep.map fun d => s.time + d
        sched := { w.sched with active := decide (ws.countP (·.sched.active) < 8) } }] }) s3
  let ops := s4.allOps.filter fun o => o.wg == g.id && o.logi.isSome
  let live (p : Nat × Nat) : List Nat := (ops.filter fun o => o.logi == some p.1).map (·.id)
  let s5 := (ops.filter fun o => !(old.log.any fun p => o.logi == some p.1)).foldl (fun s o => s.putOp { o with logi := none }) s4
  (old.log.map fun p => (p.2, live p)).foldl (fun s q =>
    if q.2.isEmpty then s
    else
      let k := s.freeLogAt g.die n
      q.2.foldl (fun s i => s.mapOp i fun o => some { o with logi := some k })
        (s.updCore g.die n fun c => { c with log := c.log ++ [(k, q.1)] })) s5

/-- The workgroups of an image placed one after another, each on a core that R427 allows; none where one finds no place. -/
def State.seatAll (s : State) (v : Saved) : List Wg → Option State
  | [] => some s
  | g :: gs =>
    let spots := s.coresOk g.lrec g.key g.die
    (spots[Config.placeCore s.n % spots.length]?).bind fun n => (s.seat v g n).seatAll v gs

/-- The workgroups of an image placed on their former cores. -/
def State.seatBack (s : State) (v : Saved) : State := v.wgs.foldl (fun s g => s.seat v g g.core) s

/-! ### Another mapping for a restore (R502) -/

/-- An address lies in a table below a root, or in a frame that it maps. -/
def tableHolds (rd : Nat → Nat) (a table : Nat) : Nat → Bool
  | 0 => false
  | n + 1 =>
    (decide (table ≤ a) && decide (a < table + 4096)) || (List.range 512).any fun i =>
      let e := rd (table + 8 * i)
      if entryStatus (n + 1) e ≠ 0 then false
      else if e / 128 % 2 = 1 then
        decide (frameOf e ≤ a) && decide (a < frameOf e + leafSize (n + 1) (decide (e / 256 % 2 = 1)))
      else tableHolds rd a (frameOf e) n

/-- The bytes of a context's tables and mapped frames on one of its virtual dies. -/
def State.bytesOf (s : State) (k : Ctx) (v : Nat) : Sparse Byte :=
  let d := s.dieAt (k.vdEntry v % 4)
  d.mem.filter fun c => [(k.wroots[v]?).getD 0, (k.sroots[v]?).getD 0].any fun r =>
    decide (r ≠ 0) && tableHolds (fun a => leNat (readBytes d.mem a 8)) c.1 r 4

/-- The virtual dies of a context that a table puts elsewhere. -/
def Ctx.moved (k : Ctx) (t : BitVec 16) : List Nat := (List.range k.ndie).filter fun v => k.vdEntry v != ({ k with vdt := t } : Ctx).vdEntry v

/-- A table that firmware may install: the context's virtual dies on distinct positions that are present. -/
def State.tableOk (s : State) (k : Ctx) (t : BitVec 16) : Bool :=
  let k1 : Ctx := { k with vdt := t }
  let es := (List.range k.ndie).map k1.vdEntry
  decide (k1.ndie = k.ndie) && es.all (fun e => decide (8 ≤ e) && decide (e < 12) && (s.dieAt (e % 4)).present)
    && decide (es.eraseDups.length = es.length)

/-- What the context has on a die that a table moves, written to its new die. -/
def State.moveDie (s s0 : State) (k : Ctx) (t : BitVec 16) (v : Nat) : State :=
  s.updDieAt (({ k with vdt := t } : Ctx).vdEntry v % 4) fun d =>
    { d with mem := (s0.bytesOf k v).foldl (fun m c => m.set byte0 c.1 c.2) d.mem }

/-- Firmware installs another mapping for a restore (R502), and moves what the context has on each die: where it is the only
context, no memory channel holds or compresses anything, and the places are free. Otherwise the old mapping stays (log entry
13). -/
def State.remapFor (s : State) (v : Saved) (t : BitVec 16) : State × Saved :=
  let k := v.ctx
  let home := (List.range 4).foldl (fun s p =>
    ((s.dieAt p).l2.foldl (fun s l => s.writeLine p l) s).updDieAt p fun d => { d with l2 := [] }) s
  let gone := (k.moved t).foldl (fun s p =>
    let mine := home.bytesOf k p
    s.updDieAt (k.vdEntry p % 4) fun d => { d with mem := d.mem.filter fun c => !(mine.contains c) }) home
  let free := (k.moved t).all fun p =>
    let d := gone.dieAt (({ k with vdt := t } : Ctx).vdEntry p % 4)
    (home.bytesOf k p).all fun c => d.mem.get byte0 c.1 == byte0
  if s.tableOk k t && s.ctxs.length == 1 && (s.dies.all fun d => d.held.isEmpty && d.chunks.isEmpty && d.mig.isNone) && free then
    ((k.moved t).foldl (fun s p => s.moveDie home k t p) gone, { v with ctx := { k with vdt := t } })
  else (s, v)

/-- The image that a restore takes, with the mapping that firmware has prepared for it. -/
def State.forRestore (s : State) (v : Saved) : State × Saved :=
  let s1 : State := { s with hub := { s.hub with remap := none } }
  match s.hub.remap with
  | some (num, t) => if num = v.ctx.num then s1.remapFor v t else (s1, v)
  | none => (s1, v)

/-- The machine with a saved context restored (R470): each workgroup on its former virtual die; none while other contexts hold the
places that it needs. -/
def State.restored (s : State) (v0 : Saved) : Option State :=
  let v := (s.forRestore v0).2
  let s1 := (s.forRestore v0).1.aside.install v
  match s1.seatAll v v.wgs with
  | some t => some t.reloadRays.resplit
  | none => if s1.others.isEmpty then some (s1.seatBack v).reloadRays.resplit else none

/-- RESTORE_CONTEXT (R470, R528): it waits for places that other contexts hold; a command that names no context that is switched out
is answered as one that is refused (log entry 43). -/
def execRestoreContext (context : Nat) (s : State) : Result :=
  if s.hub.state ≠ 4 then .refused (.notEnabled "RESTORE_CONTEXT")
  else
    match s.savedOf context with
    | none => .next (s.answer mgmtError)
    | some v =>
      if v.ctx.ended then .next (s.answer mgmtError)
      else orRefuse "RESTORE_CONTEXT" ((s.restored v).map fun t => t.answer [])

end Sys2Proof.Machine
end

