-- ==== Sys2Proof/Machine/Shoot.lean ====
section
/-! DEFINITION. Shoot-downs (R480, R481) and page migration (R482, R483). -/

namespace Sys2Proof.Machine

/-! ### Ranges -/

/-- A range of n bytes from a meets one of k bytes from b. -/
def rangesMeet (a n b k : Nat) : Bool := decide (a < b + k) && decide (b < a + n)

/-- The translations of a context that meet a range begin to drain. -/
def drainTlb (ctx base size : Nat) (es : List TlbEnt) : List TlbEnt :=
  es.map fun e => if e.ctx = ctx ∧ rangesMeet e.page e.size base size then { e with drain := true } else e

/-- Every cached translation changed. -/
def State.mapTlbs (s : State) (f : List TlbEnt → List TlbEnt) : State :=
  { s with
    c := { s.c with tlb := f s.c.tlb }
    cs := s.cs.map fun c => { c with tlb := f c.tlb }
    dies := s.dies.map fun d => { d with stlb := f d.stlb } }

/-- A virtual line of a context lies in a range. -/
def Line.inRange (l : Line) (ctx base size : Nat) : Bool := l.ctx == ctx && rangesMeet (l.tag * 128) 128 base size

/-- The dirty L1 and guest bytes of a range written to their homes. -/
def State.writeBackRange (s : State) (ctx base size : Nat) : State :=
  let dirty (ls : List Line) : List Line := ls.filter fun l => l.inRange ctx base size && decide (l.dirty ≠ 0)
  let clean (ls : List Line) : List Line := ls.map fun l => if l.inRange ctx base size then l.clean else l
  let s1 := (s.c :: s.cs).foldl (fun t c => (dirty c.l1).foldl (fun t l => t.l1Writeback c.die c.num l) t) s
  let t := (List.range 4).foldl (fun t p => (dirty (s.dieAt p).guest).foldl (fun t l => t.guestWriteback p l) t) s1
  { t with
    c := { t.c with l1 := clean t.c.l1 }
    cs := t.cs.map fun c => { c with l1 := clean c.l1 }
    dies := t.dies.map fun d => { d with guest := clean d.guest } }

/-- The L1 and guest lines of a range dropped. -/
def State.dropRange (s : State) (ctx base size : Nat) : State :=
  let keep (ls : List Line) : List Line := ls.filter fun l => !(l.inRange ctx base size)
  { s with
    c := { s.c with l1 := keep s.c.l1 }
    cs := s.cs.map fun c => { c with l1 := keep c.l1 }
    dies := s.dies.map fun d => { d with guest := keep d.guest } }

/-- Accesses that are held and that meet a range are translated afresh. The checks of one that had passed them come again, when the
warp may have gone on: a fault parks its lanes where they then stand (log entry 56). -/
def Op.afresh (base size : Nat) (o : Op) : Op :=
  if o.xl.any fun x => rangesMeet x.page x.size base size then
    { o with xl := [], pcm := if o.st = .running then o.pcm &&& ~~~o.e else o.pcm,
             st := if o.st = .running then .queued else o.st,
             again := o.again || decide (o.st = .running) }
  else o

/-- An access in flight whose translation meets a range: its checks have passed, and nothing but its way to memory, or the promotion
of an entry, stands before it. Its write is to be performed under the old mapping (R480). -/
def State.inFlight (s : State) (base size : Nat) : Bool :=
  s.warps.any fun w => (s.focus w.id).any fun t => t.w.pend.any fun o =>
    decide (o.st = .running) && !(orderOnly o.code) && (o.xl.any fun x => rangesMeet x.page x.size base size)
      && t.opFree { o with x := { o.x with racq := false } } && !(t.tagHeld o)

def State.reopen (s : State) (base size : Nat) : State :=
  let go (w : Warp) : Warp := { w with pend := w.pend.map (Op.afresh base size) }
  { s with w := go s.w, ws := s.ws.map go }

/-! ### Shoot-down (R480, R481) -/

/-- SHOOT_DOWN (R480): the range is held and its translations drain. -/
def execShootDown (context base size : Nat) (s : State) : Result :=
  orRefuse "SHOOT_DOWN" <|
    if s.hub.state ≠ 4 ∨ size = 0 ∨ context ∉ s.ctxNums then none
    else
      let s0 := s.swapTo context
      let s1 := ((List.range s0.ndie).foldl State.hubTells s0).mapTlbs (drainTlb context base size)
      some { s1 with hub := { s1.hub with
        shoot := s1.hub.shoot ++ [{ ctx := context, base := base, size := size, phase := 1, acks := [] }] } }

/-- The units that hold something of the context in focus: the cores by the package's number, and from 640 the dies. A context
that is switched out has none (R481). -/
def State.shootUnits (s : State) (ctx : Nat) : List Nat :=
  if s.ctx.isSome ∧ s.ctxNum = ctx then
    (((s.c :: s.cs).filter fun c => decide (c.die < s.ndie)).map fun c => coreId c.die c.num)
      ++ (List.range s.ndie).map fun d => 640 + d
  else []

/-- A core has a copy's chunk in flight under a translation of a range (R289, R481). -/
def State.flightIn (s : State) (unit base size : Nat) : Bool :=
  (s.c :: s.cs).any fun c => decide (coreId c.die c.num = unit) && c.copyq.any fun o =>
    o.inFlight && o.xl.any fun x => rangesMeet x.page x.size base size

/-- SHOOT_DOWN_DRAIN_ACK (R481): a unit of the oldest shoot-down; a halted or blocked warp stops none, and the power manager
answers for a gated core. A copy's chunk in flight is finished first. -/
def execShootDownDrainAck (unit : Nat) (s : State) : Result :=
  orRefuse "SHOOT_DOWN_DRAIN_ACK" <|
    match s.hub.shoot with
    | [] => none
    | h :: hs =>
      let s := s.swapTo h.ctx
      if h.phase = 1 ∧ unit ∈ s.shootUnits h.ctx ∧ unit ∉ h.acks ∧ s.flightIn unit h.base h.size = false then
        let acks := unit :: h.acks
        let phase := if (s.shootUnits h.ctx).all fun u => acks.contains u then 2 else 1
        let t := s.tellHub (if unit < 640 then unit / 160 else unit - 640)
        some { t with hub := { t.hub with shoot := { h with acks := acks, phase := phase } :: hs } }
      else none

/-- The ray spill areas that running launches name, and templates of graphs with a node workgroup that runs (R429). -/
def Ctx.spillAreas (k : Ctx) : List Nat :=
  ((k.launches.filter fun l => !l.complete && !l.started.isEmpty).map (fun l => lrRspill l.lrec)
    ++ k.graphs.flatMap fun g => (g.nodes.filter fun n => decide (0 < n.running)).map fun n => lrRspill n.tmpl).filter (· ≠ 0)

/-- A running launch names a ray spill area that a range unmaps (R429). -/
def State.spillLost (s : State) (base size : Nat) : Bool :=
  match s.ctx with
  | none => false
  | some k => k.spillAreas.any fun a => rangesMeet a s.spillSize base size && !(s.mappedW a s.spillSize 327681)

/-- SHOOT_DOWN_CONFIRM (R480): with every access in flight performed, the other writes made under the old mapping reach their
homes, the entries and lines of the range go, and what was held is translated afresh. A spill area that is unmapped under a
running launch ends the context (R429). -/
def execShootDownConfirm (s : State) : Result :=
  orRefuse "SHOOT_DOWN_CONFIRM" <|
    match s.hub.shoot with
    | [] => none
    | h :: hs =>
      let s := s.swapTo h.ctx
      let done : State := { s with hub := { s.hub with shoot := hs } }
      if s.ctx.isNone || decide (s.ctxNum ≠ h.ctx) then some done
      else if ((s.shootUnits h.ctx).all fun u => h.acks.contains u) && !(s.inFlight h.base h.size) then
        let s1 := done.writeBackRange h.ctx h.base h.size
        let s2 := s1.mapTlbs fun es => es.filter fun e => !(e.ctx == h.ctx && e.drain && rangesMeet e.page e.size h.base h.size)
        let s3 : State := { s2 with dies := s2.dies.map fun d => { d with walks := d.walks.filter (·.ctx != h.ctx) } }
        let s4 := (s3.dropRange h.ctx h.base h.size).reopen h.base h.size
        some (if s4.spillLost h.base h.size then s4.endByNum h.ctx { kind := 0x18 } else s4)
      else none

/-! ### Migration (R482, R483) -/

/-- The chunks of the 4 KB pages of a frame range, in order, and as many taken for them from the pool as it can give (R484). -/
def Die.chunkList (d : Die) (frame size : Nat) : List Nat := (List.range (size / 4096)).map fun i => d.chunksAt (frame + 4096 * i)
def Die.takeChunks (d : Die) (frame : Nat) : List Nat → Die
  | [] => d
  | n :: ns => (d.putPage frame (min n (d.pool + d.chunksAt frame)) []).takeChunks (frame + 4096) ns

/-- The bytes of a frame range as they stand, dirty home lines merged in, copied to another frame, with the chunks that they
occupy; home lines of the new frame are of no use any more. -/
def Die.copyFrame (d : Die) (old new size : Nat) : Die :=
  let bs := (List.range size).map fun i => d.hostByte (old + i)
  let freed := ({ d.putMem (bs.zipIdx.map fun b => (new + b.2, b.1)) with
    l2 := d.l2.filter fun l => !(rangesMeet (l.tag * 128) 128 new size) } : Die).takeChunks new (List.replicate (size / 4096) 0)
  freed.takeChunks new (d.chunkList old size)

/-- A frame range freed: its chunks return to the pool, and what its lines and its memory channels hold is of no use any more. -/
def Die.freeFrame (d : Die) (frame size : Nat) : Die :=
  let t := d.takeChunks frame (List.replicate (size / 4096) 0)
  { t with l2 := t.l2.filter fun l => !(rangesMeet (l.tag * 128) 128 frame size)
           held := t.held.filter fun h => !(rangesMeet h.addr 4096 frame size) }

/-- MIGRATION_COPY (R482 step 1): firmware moves a page of up to 2 MB of a virtual die to a new frame, for which the pool has the
chunks that the page occupies (R484). -/
def execMigrationCopy (die va frame size : Nat) (s : State) : Result :=
  orRefuse "MIGRATION_COPY" <|
    let w := s.walk va
    if s.hub.state ≠ 4 ∨ s.ctx.isNone = true ∨ s.owner va ≠ some die ∨ (s.die die).mig.isSome = true ∨ w.status ≠ 0
        ∨ w.page ≠ va ∨ w.size ≠ size ∨ 2 ^ 21 < size ∨ frame % size ≠ 0 ∨ (s.die die).capacity < frame + size
        ∨ frame = w.frame
        ∨ (s.die die).pool + ((s.die die).chunkList frame size).sum < ((s.die die).chunkList w.frame size).sum then none
    else
      some (s.updDie die fun d =>
        { d.copyFrame w.frame frame size with
          mig := some { ctx := s.ctxNum, st := 1, va := va, size := size, old := w.frame, new := frame } })

/-- The virtual die whose migration stands in a state, with its context in focus. -/
def State.migIn (s : State) (st : Nat) : Option (Nat × Migration × State) :=
  s.views.findSome? fun t => (List.range t.ndie).findSome? fun v =>
    (t.die v).mig.bind fun m => if m.st = st ∧ m.ctx = t.ctxNum then some (v, m, t) else none

/-- W leaves the cached translations of a page (R482 step 2). -/
def clearW (ctx page size : Nat) (es : List TlbEnt) : List TlbEnt :=
  es.map fun e => if e.ctx = ctx ∧ rangesMeet e.page e.size page size then
    { e with leaf := if e.leaf / 4 % 2 = 1 then e.leaf - 4 else e.leaf } else e

/-- MIGRATION_RECOPY (R482 step 2): with writes held, what the first copy missed is copied again. -/
def execMigrationRecopy (s : State) : Result :=
  orRefuse "MIGRATION_RECOPY" <|
    (s.migIn 1).bind fun p =>
      let m := p.2.1
      let s := p.2.2
      if (s.c :: s.cs).any fun c => s.flightIn (coreId c.die c.num) m.va m.size then none else
      let s1 := (s.mapTlbs (clearW s.ctxNum m.va m.size)).writeBackRange s.ctxNum m.va m.size
      some (s1.updDie p.1 fun d => { d.copyFrame m.old m.new m.size with mig := some { m with st := 2 } })

/-- A leaf entry with another frame. -/
def withFrame (e f : Nat) : Nat := e - bitsOf e 55 12 * 4096 + f

/-- MIGRATION_REMAP (R482 step 3): the leaf, or each of the sixteen of a contiguous group, names the new frame; a shoot-down
of the range follows. -/
def execMigrationRemap (s : State) : Result :=
  orRefuse "MIGRATION_REMAP" <|
    (s.migIn 2).map fun p =>
      let m := p.2.1
      let s := p.2.2
      let w := s.walk m.va
      let group := [16 * 4096, 16 * 2 ^ 21].contains w.size
      let n := if group then 16 else 1
      let first := if group then w.addr / 128 * 128 else w.addr
      let s1 := s.updDie p.1 fun d =>
        (List.range n).foldl (fun d i =>
          let e := leNat (readBytes d.mem (first + 8 * i) 8)
          d.hostWrite (first + 8 * i) (leBytes 8 (withFrame e m.new))) { d with mig := some { m with st := 3 } }
      let s2 := ((List.range s1.ndie).foldl State.hubTells s1).mapTlbs (drainTlb s1.ctxNum m.va m.size)
      { s2 with hub := { s2.hub with
        shoot := s2.hub.shoot ++ [{ ctx := s2.ctxNum, base := m.va, size := m.size, phase := 1, acks := [] }] } }

/-- MIGRATION_COMPLETE (R482 step 4): the shoot-down is over; the old frame is free, and what was held goes on. -/
def execMigrationComplete (s : State) : Result :=
  orRefuse "MIGRATION_COMPLETE" <|
    (s.migIn 3).bind fun p =>
      let m := p.2.1
      let s := p.2.2
      if s.hub.shoot.any fun h => h.ctx == s.ctxNum && rangesMeet h.base h.size m.va m.size then none
      else
        some (s.updDie p.1 fun d => { d.freeFrame m.old m.size with mig := none }).wake

end Sys2Proof.Machine
end

