-- ==== Sys2Proof/Machine/Balloon.lean ====
section
/-! DEFINITION. Compressed pages and the balloon engine (R484 to R486), on dies by physical position. -/

namespace Sys2Proof.Machine

/-- The bytes of a page become zero. -/
def Die.zeroPage (d : Die) (frame : Nat) : Die :=
  { d with
    mem := d.mem.filter fun p => !(decide (frame ≤ p.1) && decide (p.1 < frame + 4096))
    held := d.held.filter fun h => h.addr != frame
    l2 := d.l2.filter fun l => !(rangesMeet (l.tag * 128) 128 frame 4096) }

/-- The first page with chunks that is all zero, and that the driver has not offered. -/
def Die.zeroTracked (d : Die) : Option Nat :=
  (d.chunks.find? fun p => decide (0 < p.2) && d.pageZero (4096 * p.1) [] && !(d.offered.contains (4096 * p.1))
    && !(d.held.any fun h => h.addr == 4096 * p.1)).map (·.1)

/-- BALLOON_PAGE_OFFER (R484): the driver offers a 4 KB page that no context maps; it reads as zero when it is mapped again, and
loses what it held as it is offered (log entry 12). -/
def execBalloonPageOffer (die frame : Nat) (s : State) : Result :=
  orRefuse "BALLOON_PAGE_OFFER" <|
    if s.hub.state = 4 ∧ (s.dieAt die).present = true ∧ frame % 4096 = 0 ∧ frame < (s.dieAt die).capacity
        ∧ frame ∉ (s.dieAt die).offered ∧ s.ownersOf die frame = [] then
      some (s.updDieAt die fun d => { d.zeroPage frame with offered := d.offered ++ [frame] }).wake
    else none

/-- BALLOON_RECLAIM (R484): below the watermark Silt takes back the chunks of a page: first of one that it finds all zero, then of
the page offered longest ago; one that has been mapped again only leaves the list. -/
def execBalloonReclaim (die : Nat) (s : State) : Result :=
  orRefuse "BALLOON_RECLAIM" <|
    let d := s.dieAt die
    let free (d : Die) (page : Nat) : Die := { d with pool := d.pool + d.chunks.get 0 page, chunks := d.chunks.set 0 page 0 }
    if Config.lowWatermark die < d.pool then none
    else
      match d.zeroTracked with
      | some page => some (s.updDieAt die fun d => free d page)
      | none =>
        d.offered.head?.map fun f =>
          (s.updDieAt die fun d =>
            let d1 : Die := { d with offered := d.offered.tail }
            if s.ownersOf die f = [] then free (d1.zeroPage f) (f / 4096) else d1).wake

/-! ### Held write-backs (R485) -/

/-- A record of a context, wherever it stands. -/
def State.recordTo (s : State) (num : Nat) (r : RecordInfo) : State :=
  if s.ctxNums.contains num && decide ((s.swapTo num).ctxNum ≠ num) then s.inSaved num fun t => t.record r
  else s.inCtx num fun t => t.record r

/-- The contexts that own a held write and have not ended. -/
def State.holders (s : State) (die : Nat) (h : HeldWrite) : List Nat :=
  (s.ctxs.filter fun k => !k.ended && (decide (k.num = h.ctx) || s.mapsFrame k die h.addr)).map (·.num)

/-- COMPRESSED_WRITE_HOLD (R485): a write-back to a compressed page has found too few chunks in the pool, and its memory channel
holds it: the hub sends a record to each context that owns it, and an event to the host. -/
def execCompressedWriteHold (die page chunks : Nat) (s : State) : Result :=
  orRefuse "COMPRESSED_WRITE_HOLD" <|
    ((s.dieAt die).held.find? fun h => !h.told && h.addr == page && h.chunks == chunks).map fun h =>
      let r : RecordInfo := { kind := 0x16, die := (s.virt die).getD 0, va := page, detail := chunks - (s.dieAt die).pool }
      let s1 := s.updDieAt die fun d => { d with held := d.held.map fun q => if q = h then { q with told := true } else q }
      let s2 := (s.holders die h).foldl (fun t n => t.recordTo n r) s1
      { s2 with hub := { s2.hub with events := s2.hub.events ++ [0x16] } }

/-- COMPRESSED_HOLD_RELEASE (R485): chunks have become free, and the oldest held write is performed. -/
def execCompressedHoldRelease (die : Nat) (s : State) : Result :=
  orRefuse "COMPRESSED_HOLD_RELEASE" <|
    match (s.dieAt die).held with
    | [] => none
    | h :: hs =>
      if h.chunks ≤ (s.dieAt die).pool then
        some (s.updDieAt die fun d => { d.putPage h.addr (d.chunksAt h.addr + h.chunks) h.bytes with held := hs }).wake
      else none

/-- Ticks in a millisecond of the 1 GHz reference timer (R11). -/
def msTicks : Nat := 1000000

/-- The contexts that wait for a held write, each with the first time that is past its timeout. -/
def State.holdEnds (s : State) (die : Nat) (h : HeldWrite) : List (Nat × Nat) :=
  let ns := s.holders die h
  (s.ctxs.filter fun k => ns.contains k.num).map fun k => (k.num, h.since + k.timeout * msTicks + 1)

/-- Lanes of the context in focus that are parked for want of chunks on a die, with the first time that is past its timeout. -/
def State.parkEnds (s : State) (die : Nat) : List (Nat × Nat) :=
  match s.ctx with
  | some k => (k.unsettled.filter fun u =>
      decide (u.kind = 6) && (s.locOf u.va).any fun a => decide (a.own < 4) && s.phys a.own == die).map fun u =>
        (k.num, u.since + k.timeout * msTicks + 1)
  | none => []

/-- Every write that waits for chunks of a die: its context, and the first time that is past the timeout (R486). -/
def State.spaceEnds (s : State) (die : Nat) : List (Nat × Nat) := ((s.dieAt die).held.flatMap (s.holdEnds die)) ++ s.parkEnds die

/-- The contexts whose timeout has run out. -/
def State.overdue (s : State) (ends : List (Nat × Nat)) : List Nat := (ends.filter fun e => decide (e.2 ≤ s.time)).map (·.1)

/-- OUT_OF_SPACE_TIMEOUT (R486): a write held too long, or a store whose lanes have been parked too long, ends every context
that owns it. -/
def execOutOfSpaceTimeout (die : Nat) (s : State) : Result :=
  orRefuse "OUT_OF_SPACE_TIMEOUT" <|
    let late (h : HeldWrite) : List Nat := s.overdue (s.holdEnds die h)
    match (s.overdue (s.spaceEnds die)).eraseDups with
    | [] => none
    | nums =>
      some (nums.foldl (fun s n => s.endByNum n { kind := 0x17 })
        (s.updDieAt die fun d =>
          { d with held := d.held.filter fun h => decide (late h ≠ s.holders die h) || (s.holders die h).isEmpty })).wake

end Sys2Proof.Machine
end

