-- ==== Sys2Proof/Machine/Power.lean ====
section
/-! DEFINITION. Minimal mode (R527), clock steps and power (R508, R531), temperatures (R532), and the links (R504 to R507). -/

namespace Sys2Proof.Machine

/-! ### Minimal mode (R527) -/

/-- Every context ends, each with an error event to the host, and nothing of any is left in the package. -/
def State.endAll (s : State) (why : Nat) : State :=
  let s1 := (s.others.foldl (fun t v => t.inCtx v.ctx.num State.purgeCtx) s.purgeCtx).vacate
  { s1 with saved := [], others := [], hub := { s1.hub with events := s1.hub.events ++ s.ctxNums.map fun _ => why, shoot := [] } }

/-- Minimal mode entered at once, FAILS unchanged: the dies lose their power, and nothing stands on their links. -/
def State.enterMinimal (s : State) (reason : Nat) : State :=
  let s1 := s.endAll reason
  { s1 with
    hub := { s1.hub with state := 5, reason := BitVec.ofNat 8 reason }
    dies := s1.dies.map fun d => { d with
      relock := none, mig := none, held := [], links := d.links.map fun l => { l with queue := [], back := [] } } }

/-! ### Steps (R508) -/

/-- Physical positions in the order of virtual numbers: those of the running context first. -/
def State.dieOrder (s : State) : List Nat :=
  let mine := (List.range s.ndie).map s.phys
  (mine ++ (List.range 4).filter fun p => !(mine.contains p)).filter fun p => (s.dieAt p).present

/-- The time from which a relock may start: 10,000 ticks after the last one has ended; none while a die relocks. -/
def State.relockFrom (s : State) : Option Nat :=
  if s.dies.all fun d => d.relock.isNone then some (if s.hub.relocked = 0 then 0 else s.hub.relocked + 10000) else none

/-- A relock may start now. -/
def State.mayRelock (s : State) : Bool := s.relockFrom.any fun t => decide (t ≤ s.time)

/-- Ticks to the next edge of the arithmetic clock that falls on a tick (R13). -/
def Die.toEdge (d : Die) : Nat := ((List.range 4).find? fun n => decide ((d.quarters + (3 + d.step) * n) % 4 = 0)).getD 0

/-- A die begins a step: its clocks stop at an edge (R508). -/
def State.startRelock (s : State) (p step : Nat) : State :=
  s.updDieAt p fun d =>
    { d with
      prev := d.step, step := step, steps := d.steps + 1, stepAt := s.time, lead := d.toEdge
      relock := some (s.time + d.toEdge + 1000 + Config.relockExtra s.n % 1001), owed := false
      overheat := d.overheat && decide (step ≠ 0), dcnt := d.dcnt.set 0 0 (d.dcnt.get 0 0 + 1) }

/-- What stands in the FIFOs of a relocked die, and of its neighbours and the hub towards it, leaves them by a time (R509). -/
def State.drainBy (s : State) (p time : Nat) : State :=
  let due (k : Packet) : Packet := { k with due := some time }
  { s with dies := s.dies.mapIdx fun q d => { d with links := d.links.map fun l =>
    if q = p then { l with queue := l.queue.map due, back := l.back.map due }
    else if l.far = p then { l with queue := l.queue.map due } else l } }

/-- What a relock has held in the context in focus: requests for the time, and releases of group barriers. -/
def State.serveHeld (s : State) : State := s.serveTimes.deliverEnds

/-- RELOCK_END (R508 to R510, R518): the requests for its time are served, the releases that it has held reach their members,
words that waited for it go on, and its FIFOs drain within 100 ticks (R509). -/
def execRelockEnd (die : Nat) (s : State) : Result :=
  orRefuse "RELOCK_END" <|
    (s.dieAt die).relock.bind fun t =>
      if t ≤ s.time then
        let s1 := (s.updDieAt die fun d => { d with relock := none, lead := 0, quarters := 0 }).drainBy die (s.time + 100)
        let s2 : State := { s1 with hub := { s1.hub with relocked := s.time } }
        some (s2.others.foldl (fun t v => t.inCtx v.ctx.num State.serveHeld) s2.serveHeld).wake
      else none

/-! ### Temperatures (R532) -/

/-- The first of the positions with the greatest value. -/
def firstMax (f : Nat → Nat) (ps : List Nat) : Option Nat :=
  ps.foldl (fun b p => match b with
    | none => some p
    | some q => if f q < f p then some p else some q) none

/-- The first of the positions with the least value. -/
def firstMin (f : Nat → Nat) (ps : List Nat) : Option Nat :=
  ps.foldl (fun b p => match b with
    | none => some p
    | some q => if f p < f q then some p else some q) none

/-- A reading of a die's sensor: it is hot from 95 °C on until it reads below 90 °C; one of 105 °C owes it a step to 0, which
no later reading takes away. -/
def Die.read (d : Die) (tenths : Nat) : Die :=
  { d with temp := tenths, hot := decide (950 ≤ tenths) || (d.hot && decide (900 ≤ tenths))
           overheat := d.overheat || (decide (1050 ≤ tenths) && decide (d.step ≠ 0)) }

/-- The die that is next to go to step 0: the hottest of those that have reached 105 °C. -/
def State.thermalNext (s : State) : Option Nat :=
  firstMax (fun p => (s.dieAt p).temp) (s.dieOrder.filter fun p => (s.dieAt p).overheat)

/-- A die reads 110 °C or more (R532). -/
def State.tooHot (s : State) : Bool := s.dies.any fun d => d.present && decide (1100 ≤ d.temp)

/-- The thermal step that is due starts where R508 permits a relock; at 110 °C none is made. -/
def State.thermalStart (s : State) : State :=
  if s.mayRelock && !s.tooHot then
    match s.thermalNext with
    | some p => s.startRelock p 0
    | none => s
  else s

/-- THERMAL_STEP (R532): a die's sensor reads 105 °C or more. -/
def execThermalStep (die tenths : Nat) (s : State) : Result :=
  orRefuse "THERMAL_STEP" <|
    if s.hub.state = 4 ∧ (s.dieAt die).present = true ∧ 1050 ≤ tenths ∧ tenths < 1100 then
      some (s.updDieAt die fun d => d.read tenths).thermalStart
    else none

/-- THERMAL_SHUTDOWN (R532): a die at 110 °C. -/
def execThermalShutdown (s : State) : Result :=
  orRefuse "THERMAL_SHUTDOWN" <| if s.hub.state = 4 ∧ s.tooHot = true then some (s.enterMinimal 0x0A) else none

/-! ### The evaluation (R531) -/

/-- The readings of an evaluation: each hot die is owed one step down (R532). -/
def State.readSensors (s : State) : State :=
  let dies := s.dies.map fun d =>
    if d.present then
      let e := d.read (Config.temperature s.n d.phys)
      { e with draw := Config.draw s.n d.phys, owed := e.hot }
    else d
  let power := (dies.map fun d => if d.present then d.draw else 0).sum + Config.draw s.n 4
  { s with dies := dies, hub := { s.hub with
      power := power, lowEvals := if power * 100 < s.hub.cap * 95 then s.hub.lowEvals + 1 else 0 } }

/-- The next of the dies to which the latest evaluation owes a step down (R532). -/
def State.owedNext (s : State) : Option Nat :=
  s.dieOrder.find? fun p => (s.dieAt p).owed && decide (0 < (s.dieAt p).step)

/-- The one step change of an evaluation, as a position and a step: thermal steps, hot dies, host limits that a die's step
has left, the cap, and then a step up. -/
def State.stepChange (s : State) : Option (Nat × Nat) :=
  let at_ (p : Nat) : Die := s.dieAt p
  let ps := s.dieOrder
  match s.thermalNext with
  | some p => some (p, 0)
  | none =>
    match s.owedNext with
    | some p => some (p, (at_ p).step - 1)
    | none =>
      match ps.find? fun p => !(at_ p).hot && (decide ((at_ p).hi < (at_ p).step) || decide ((at_ p).step < (at_ p).lo)) with
      | some p => some (p, if (at_ p).hi < (at_ p).step then (at_ p).hi else (at_ p).lo)
      | none =>
        if s.hub.cap < s.hub.power then
          (firstMax (fun p => (at_ p).draw) (ps.filter fun p => decide ((at_ p).lo < (at_ p).step))).map fun p =>
            (p, (at_ p).step - 1)
        else if 20 ≤ s.hub.lowEvals then
          (firstMin (fun p => (at_ p).temp) (ps.filter fun p => !(at_ p).hot && decide ((at_ p).step < (at_ p).hi))).map fun p =>
            (p, (at_ p).step + 1)
        else none

/-- POWER_EVALUATION (R531): every 50,000 ticks; at 110 °C no relock is made. Thermal steps that a relock or its spacing has held
back begin between evaluations, as soon as R508 permits, and then the steps down that the latest one owes to hot dies (R532, log
entry 40). -/
def execPowerEvaluation (s : State) : Result :=
  orRefuse "POWER_EVALUATION" <|
    if s.hub.state = 4 ∧ s.hub.nextEval ≤ s.time then
      let s1 := s.readSensors
      let s2 : State := { s1 with hub := { s1.hub with nextEval := s1.hub.nextEval + 50000 } }
      some (if s2.mayRelock && !s2.tooHot then
        match s2.stepChange with
        | some p =>
          let up := decide ((s2.dieAt p.1).step < p.2)
          let s3 := s2.startRelock p.1 p.2
          if up then { s3 with hub := { s3.hub with lowEvals := 0 } } else s3
        | none => s2
      else s2)
    else if s.hub.state = 4 ∧ s.mayRelock = true ∧ s.tooHot = false then
      match s.thermalNext with
      | some p => some (s.startRelock p 0)
      | none => s.owedNext.map fun p => s.startRelock p ((s.dieAt p).step - 1)
    else none

/-- The design power of the package (R531). -/
def State.designPower (s : State) : Nat := if s.dies.countP (·.present) = 4 then 1800 else 1400

/-- SET_POWER_LIMITS (R528, R531): the package cap, and the lowest and highest step of each position. -/
def execSetPowerLimits (cap : Nat) (steps : List (Nat × Nat)) (s : State) : Result :=
  if s.hub.state ≠ 4 then .refused (.notEnabled "SET_POWER_LIMITS")
  else if cap < 600 ∨ s.designPower < cap ∨ steps.length ≠ 4 ∨ (steps.all fun p => decide (p.1 ≤ p.2) && decide (p.2 ≤ 6)) = false then
    .next (s.answer mgmtError)
  else
    let s1 : State := { s with
      hub := { s.hub with cap := cap }
      dies := s.dies.mapIdx fun p d => { d with lo := ((steps[p]?).getD (0, 6)).1, hi := ((steps[p]?).getD (0, 6)).2 } }
    .next (s1.answer [])

/-! ### Links (R504 to R507) -/

/-- A link by its number: 4 p + i is link i of position p. -/
def State.linkAt (s : State) (link : Nat) : Option Link := ((s.dieAt (link / 4)).links)[link % 4]?

def State.updLink (s : State) (p far : Nat) (g : Link → Link) : State :=
  s.updDieAt p fun d => { d with links := d.links.map fun l => if l.far = far then g l else l }

/-- An end of the link relocks: its FIFOs hold what is sent (R509). -/
def State.linkHeld (s : State) (p far : Nat) : Bool :=
  (s.dieAt p).relock.isSome || (decide (far < 4) && (s.dieAt far).relock.isSome)

/-- A die's counter grows. -/
def State.countDie (s : State) (p i n : Nat) : State :=
  s.updDieAt p fun d => { d with dcnt := d.dcnt.set 0 i (d.dcnt.get 0 i + BitVec.ofNat 64 n) }

/-- The first packet of each virtual channel in a FIFO. -/
def firstPackets (ks : List Packet) : List Packet :=
  ks.foldl (fun fs k => if fs.any fun f => f.vc == k.vc then fs else fs ++ [k]) []

/-- The far end of a link has a credit of the packet's channel (R505): a packet that goes on needs room in the next FIFO. -/
def State.hasCredit (s : State) (far : Nat) (k : Packet) : Bool :=
  decide (k.dst = far) || decide (4 ≤ far) || ((s.dieAt far).links.any fun l =>
    decide (l.far = s.nextHop far k.dst) && decide ((l.queue.countP fun q => q.vc == k.vc) ≤ Config.linkCredits))

/-- The packet of a FIFO that crosses next (R505): the first of a channel that has a credit; one that a relock has held goes before
others (R509), and otherwise any channel. -/
def State.nextPacket (s : State) (far : Nat) (ks : List Packet) : Option Packet :=
  let fs := (firstPackets ks).filter (s.hasCredit far)
  match fs.find? fun k => k.due.isSome with
  | some k => some k
  | none => fs[Config.linkPick s.n % fs.length]?

/-- The FIFO without the first packet of a channel. -/
def dropPacket (ks : List Packet) (vc : Nat) : List Packet := ks.eraseP fun k => k.vc == vc

/-- Link flits of a packet (R504): one in the 256-byte mode of neighbour links, one for each network flit in the 68-byte mode of hub
links. -/
def linkFlits (hub : Bool) (k : Packet) : Nat := if hub then k.flits else 1

/-- A packet that has reached a die: its own, or one for which it stands on the route, re-framed where it leaves on a link of the
other mode (R506). -/
def State.arrives (s : State) (p : Nat) (fromHub : Bool) (k : Packet) : State :=
  if k.dst = p then s
  else
    let s1 := s.sendPacket p { k with due := none }
    if decide (s.nextHop p k.dst = 4) != fromHub then s1.countDie p 5 1 else s1

/-- LINK_PACKET_DELIVERY (R505): a packet crosses the link, and goes on where its route does; the sender counts the flits that the
link's retry has resent (R504, R516). The number 4 p + 3 names the way from the hub to position p. -/
def execLinkPacketDelivery (link : Nat) (s : State) : Result :=
  orRefuse "LINK_PACKET_DELIVERY" <|
    let p := link / 4
    if link % 4 = 3 then
      ((s.dieAt p).links.find? fun l => l.far == 4).bind fun l =>
        if l.down || l.training || s.linkHeld p 4 then none
        else
          (s.nextPacket p l.back).map fun k =>
            (s.updLink p 4 fun l =>
              { l with back := dropPacket l.back k.vc, received := (l.received + linkFlits true k) % 2 ^ 32 }).arrives p true k
    else
      (s.linkAt link).bind fun l =>
        if l.down || l.training || s.linkHeld p l.far then none
        else
          (s.nextPacket l.far l.queue).map fun k =>
            let n := linkFlits (decide (4 ≤ l.far)) k
            let s0 := s.countDie p 4 (Config.linkRetries s.n)
            let s1 := s0.updLink p l.far fun l => { l with queue := dropPacket l.queue k.vc, sent := (l.sent + n) % 2 ^ 32 }
            if 4 ≤ l.far then s1
            else (s1.updLink l.far p fun l => { l with received := (l.received + n) % 2 ^ 32 }).arrives l.far false k

/-- The ends of a link that are compute dies. -/
def linkEnds (p far : Nat) : List Nat := if far < 4 then [p, far] else [p]

/-- Both ends of a link changed alike. -/
def State.updEnds (s : State) (p far : Nat) (g : Link → Link) : State :=
  let s1 := s.updLink p far g
  if far < 4 then s1.updLink far p g else s1

/-- The packets of a FIFO that stand in the sender's retry buffer, by the sender: the oldest ones (R507). -/
def State.inRetry (s : State) (who : Nat) (ks : List Packet) : List Packet :=
  if ks.isEmpty then [] else ks.take (Config.retryHeld (8 * s.n + who) % (ks.length + 1))

/-- The receiver holds a part of the first of them. -/
def State.holdsPart (s : State) (who : Nat) (ks : List Packet) : Bool :=
  match s.inRetry who ks with
  | k :: _ => decide (1 < k.flits) && Config.partHeld (8 * s.n + who)
  | [] => false

/-- LINK_RETRAIN (R507): the retry has failed, or firmware orders it. A retrain while one is under way is a failed one; the
fourth in a row takes the link down, and the package stops serving contexts (R527). Each end sends again what its retry buffer
holds, and discards a packet that it holds only part of; both are counted. -/
def execLinkRetrain (link : Nat) (s : State) : Result :=
  orRefuse "LINK_RETRAIN" <|
    (s.linkAt link).bind fun l =>
      let p := link / 4
      if l.down || !(s.dieAt p).present || s.hub.state = 5 then none
      else
        let failed := if l.training then l.failed + 1 else l.failed
        if 4 ≤ failed then
          some ((s.updEnds p l.far fun l => { l with down := true, training := false, failed := failed }).enterMinimal 0x09)
        else
          let s1 := s.updEnds p l.far fun l =>
            { l with training := true, failed := failed, retrains := (l.retrains + 1) % 2 ^ 32, since := s.time }
          let s2 := (linkEnds p l.far).foldl (fun s q => s.countDie q 3 1) s1
          let hub := decide (4 ≤ l.far)
          let back := if hub then l.back
            else ((s.dieAt l.far).links.find? fun m => m.far == p).elim [] fun m => m.queue
          let out := (s.inRetry p l.queue, s.holdsPart p l.queue)
          let into := (s.inRetry (4 + p) back, s.holdsPart (4 + p) back)
          let flits (ks : List Packet) : Nat := (ks.map (linkFlits hub)).sum
          let s3 := (s2.countDie p 4 (flits out.1)).countDie p 6 (if into.2 then 1 else 0)
          some (if hub then s3 else (s3.countDie l.far 4 (flits into.1)).countDie l.far 6 (if out.2 then 1 else 0))

/-- LINK_RETRAIN_COMPLETE (R507): training ends with 8 modules or with 4. -/
def execLinkRetrainComplete (link modules : Nat) (s : State) : Result :=
  orRefuse "LINK_RETRAIN_COMPLETE" <|
    (s.linkAt link).bind fun l =>
      let p := link / 4
      if l.training && (decide (modules = 8) || decide (modules = 4)) then
        let s1 := s.updEnds p l.far fun l => { l with training := false, failed := 0, modules := modules }
        some (if modules = 4 then (linkEnds p l.far).foldl (fun s q => s.countDie q 7 1) s1 else s1)
      else none

end Sys2Proof.Machine
end

