-- ==== Sys2Proof/Machine/Boot.lean ====
section
/-! DEFINITION. Resets, firmware start and BAR0 (R5, R521, R525 to R527). -/

namespace Sys2Proof.Machine

/-- The hub right after a reset that keeps FAILS and REASON: the boot ROM runs. The contents of device memory, the memories of
others and the inputs are not the hub's, and the staging window keeps its bytes (log entry 38). -/
def State.hubReset (s : State) : State :=
  { State.reset with
    dies := s.dies.map fun d =>
      { phys := d.phys, present := d.present, mem := d.mem, capacity := d.capacity, links := Link.ofDie d.phys }
    hub := { fails := s.hub.fails, reason := s.hub.reason, image := s.hub.image, nextCtx := s.hub.nextCtx }
    host := s.host, peer := s.peer, bad := s.bad, inputs := s.inputs, hostStores := s.hostStores, n := s.n, nextId := s.nextId }

/-- The boot status register (R526). -/
def State.bootStatus (s : State) : Word :=
  BitVec.ofNat 32 (s.hub.state.toNat * 2 ^ 28 + s.hub.fails.toNat * 2 ^ 24 + s.hub.reason.toNat * 2 ^ 16)

/-- A read of BAR0 (R5, R526): the status register at 0x000; the control register is write-only, and every other place is
reserved, so that they read as zero. -/
def State.barRead (s : State) (offset : Nat) : Word := if offset = 0 then s.bootStatus else 0

/-- The boot ROM, after a reset, awaits an image (R525, R526). -/
def State.romStep (s : State) : State := { s with hub := { s.hub with state := 1 } }

/-- A failed start (R526): FAILS grows to at most 3 and the hub is reset; the third failure, and any after it, enters minimal mode
instead. -/
def State.failStart (s : State) (reason : Nat) : State :=
  let h : Hub := { s.hub with fails := if s.hub.fails < 3 then s.hub.fails + 1 else 3, reason := BitVec.ofNat 8 reason }
  if 3 ≤ h.fails.toNat then { s with hub := { h with state := 5 } }
  else ({ s with hub := h } : State).hubReset

/-- The length of the staging window (R521). -/
def windowBytes : Nat := 67108864

/-- The staging window with bytes written at an offset; what lies past its end is not written. -/
def stage (im : List Byte) (a : Nat) (bs : List Byte) : List Byte :=
  ((im ++ List.replicate (a - im.length) 0).take a ++ bs ++ im.drop (a + bs.length)).take windowBytes

/-- Bytes of an image; what was not written reads as zero. -/
def imageBytes (im : List Byte) (a n : Nat) : List Byte := (List.range n).map fun i => (im[a + i]?).getD 0

/-! ### Identity (R529) -/

/-- The first 32 bytes of a digest, as the seed of an Ed25519 key. -/
def seedOf (bs : List Byte) : List Byte := (leBytes 64 (Config.sha512 bs).toNat).take 32

/-- The seed of the device identity key: of the device secret followed by the ASCII bytes QXID. -/
def identitySeed : List Byte := seedOf (Config.deviceSecret ++ [0x51, 0x58, 0x49, 0x44])

/-- The firmware digest of R525: of the image without its signature. -/
def firmwareDigest (im : List Byte) : BitVec 512 :=
  Config.sha512 (imageBytes im 0 0x40 ++ imageBytes im 0x80 (leNat (imageBytes im 0x08 4) - 0x80))

/-- The boot ROM derives the alias key from the identity seed and the firmware digest, and signs its public half. -/
def Hub.identify (h : Hub) (im : List Byte) : Hub :=
  let digest := firmwareDigest im
  let alias_ := seedOf (identitySeed ++ leBytes 64 digest.toNat)
  { h with digest := digest, version := leNat (imageBytes im 0x0C 4), aliasSeed := alias_,
           aliasSig := Config.ed25519Sign identitySeed (Config.ed25519Public alias_) }

/-! ### Start (R525, R526) -/

/-- The check of an image (R525): the reason of the first check that fails. -/
def checkImage (im : List Byte) : Option Nat :=
  let num (a n : Nat) : Nat := leNat (imageBytes im a n)
  let len := num 0x08 4
  let key := imageBytes im 0x18 32
  let keyOk := (List.range 4).any fun k =>
    decide ((Config.sha512 key).extractLsb' 0 256 = Config.fusedKeyHash k) && !(Config.keyRevoked k)
  if num 0x00 4 ≠ 0x31574658 then some 0x02
  else if num 0x04 4 ≠ 1 then some 0x02
  else if len % 64 ≠ 0 ∨ len < 0x80 ∨ 50331648 < len then some 0x02
  else if num 0x0C 4 < Config.rollback then some 0x04
  else if num 0x10 8 ≠ 0 then some 0x02
  else if keyOk = false then some 0x03
  else if num 0x38 8 ≠ 0 then some 0x02
  else if Config.ed25519Valid (BitVec.ofNat 256 (leNat key)) (BitVec.ofNat 512 (num 0x40 64)) (firmwareDigest im) = false then
    some 0x03
  else none

/-- START written (R526): in STATE 1 verification begins; otherwise it is ignored. -/
def State.startImage (s : State) : State :=
  if s.hub.state = 1 then { s with hub := { s.hub with state := 2 } } else s

/-- Verification (R525, R526, R529): the staged image is checked, and firmware is entered. -/
def State.verifyImage (s : State) : State :=
  match checkImage s.hub.image with
  | some r => s.failStart r
  | none => { s with hub := { s.hub.identify s.hub.image with state := 3, since := s.time } }

/-- START (R525, R526): an image is written into the staging window at offset 0, and START after it. -/
def execStart (image : List Byte) (s : State) : Result :=
  .next ({ s with hub := { s.hub with image := stage s.hub.image 0 image } } : State).startImage

/-- CLRF written (R526): in minimal mode FAILS and REASON are cleared and the hub is reset; otherwise it is ignored. -/
def State.clearFails (s : State) : State :=
  if s.hub.state = 5 then ({ s with hub := { s.hub with fails := 0, reason := 0 } } : State).hubReset else s

/-- CLRF (R526). -/
def execClrf (s : State) : Result := .next s.clearFails

/-- DEVICE_RESET (R525): FAILS and REASON survive. -/
def execDeviceReset (s : State) : Result := .next s.hubReset

/-- POWER_REMOVAL (R526): FAILS and REASON are cleared, and device memory and the staging window lose what they held. -/
def execPowerRemoval (s : State) : Result :=
  let t := ({ s with hub := { s.hub with fails := 0, reason := 0, image := [] } } : State).hubReset
  .next { t with bad := [], dies := t.dies.map fun d => { d with mem := [] } }

/-- BOOT_START_TIMEOUT (R527): no START within 30 s of reset. -/
def execBootStartTimeout (s : State) : Result :=
  orRefuse "BOOT_START_TIMEOUT" <|
    if s.hub.state = 1 ∧ 30000 * msTicks ≤ s.time - s.hub.since then some (s.failStart 0x01) else none

/-- The first evaluation of the power manager after the hub's start (R531). -/
def firstEval (time n : Nat) : Nat := (time / 50000 + 1) * 50000 + Config.evalPhase n % 50000

/-- FIRMWARE_RUNNING (R525, R526): firmware sets STATE to 4 within 10 s of its entry, and FAILS is cleared. -/
def execFirmwareRunning (s : State) : Result :=
  orRefuse "FIRMWARE_RUNNING" <|
    if s.hub.state = 3 ∧ s.time - s.hub.since ≤ 10000 * msTicks then
      some { s with hub := { s.hub with state := 4, fails := 0, nextEval := firstEval s.time s.n } }
    else none

/-- FIRMWARE_START_TIMEOUT (R527). -/
def execFirmwareStartTimeout (s : State) : Result :=
  orRefuse "FIRMWARE_START_TIMEOUT" <|
    if s.hub.state = 3 ∧ 10000 * msTicks < s.time - s.hub.since then some (s.failStart 0x06) else none

/-- FIRMWARE_START_FAILURE (R527): self-test, fuse integrity, or GDDR-7 training. -/
def execFirmwareStartFailure (reason : Nat) (s : State) : Result :=
  orRefuse "FIRMWARE_START_FAILURE" <|
    if s.hub.state = 3 ∧ (reason = 5 ∨ reason = 7 ∨ reason = 8) then some (s.failStart reason) else none

/-- BAR_REGISTER_WRITE (R5, R521, R526): in BAR0 the control register's START and CLRF act, each in its STATE, and every other place
is read-only or reserved, so that a write to it has no effect; a write to BAR2 goes to the staging window. -/
def execBarRegisterWrite (place : BarPlace) (value : Word) (s : State) : Result :=
  if place.bar = 2 ∧ place.offset < windowBytes then
    .next { s with hub := { s.hub with image := stage s.hub.image place.offset (leBytes 4 value.toNat) } }
  else if place = ⟨0, 4⟩ then
    let s1 := if value.getLsbD 0 then s.startImage else s
    .next (if value.getLsbD 1 then s1.clearFails else s1)
  else .next s

end Sys2Proof.Machine
end

