-- ==== Sys2Proof/Machine/Contexts.lean ====
section
/-! DEFINITION. Management: ranges, contexts, attestation (R523, R524, R528 to R530). -/

namespace Sys2Proof.Machine

/-- DECLARE_RANGES (R523, R528): accepted only while no context exists. -/
def execDeclareRanges (coherent peers : List (Nat × Nat)) (s : State) : Result :=
  if s.hub.state ≠ 4 then .refused (.notEnabled "DECLARE_RANGES")
  else if !s.ctxs.isEmpty || decide (16 < coherent.length) || decide (8 < peers.length) then
    .next (s.answer mgmtError)
  else .next ((({ s with hub := { s.hub with coherent := coherent, peers := peers } } : State)).answer [])

/-! ### Contexts (R501, R528) -/

/-- A field of a context descriptor. -/
def descNum (d : List Byte) (a n : Nat) : Nat := leNat ((d.drop a).take n)

/-- Roots of the four virtual dies: aligned, and 0 where the die is absent. -/
def rootsBad (d : List Byte) (ndie base : Nat) : Option Nat :=
  (List.range 4).findSome? fun v =>
    let r := descNum d (base + 8 * v) 8
    if r % 4096 ≠ 0 ∨ (ndie ≤ v ∧ r ≠ 0) then some (base + 8 * v) else none

/-- The offset of the first field at fault (R528). -/
def descBad (d : List Byte) (ndie : Nat) : Option Nat :=
  let num := descNum d
  if num 0x00 8 % 8 ≠ 0 then some 0x00
  else if num 0x08 8 % 4096 ≠ 0 then some 0x08
  else if num 0x10 1 < 6 ∨ 16 < num 0x10 1 then some 0x10
  else if 1 < num 0x11 1 then some 0x11
  else if 11 < num 0x12 1 then some 0x12
  else if num 0x13 1 ≠ 0 then some 0x13
  else if num 0x14 4 < 1 ∨ 10000 < num 0x14 4 then some 0x14
  else if num 0x18 8 % 4096 ≠ 0 then some 0x18
  else
    match rootsBad d ndie 0x20 with
    | some a => some a
    | none =>
      match rootsBad d ndie 0x40 with
      | some a => some a
      | none =>
        if num 0x60 8 % 4096 ≠ 0 then some 0x60
        else if num 0x68 8 % 4096 ≠ 0 then some 0x68
        else if num 0x70 8 % 4 ≠ 0 then some 0x70
        else if num 0x78 8 ≠ 0 then some 0x78
        else none

/-- The virtual-die table that firmware chooses (log entry 13): the positions that are present, in ascending order. -/
def State.dieTable (s : State) : BitVec 16 :=
  let ps := (List.range 4).filter fun p => (s.dieAt p).present
  BitVec.ofNat 16 ((ps.mapIdx fun v p => (8 + p) * 16 ^ v).sum)

/-- The context of a descriptor. -/
def State.newCtx (s : State) (d : List Byte) : Ctx :=
  let num := descNum d
  { num := s.hub.nextCtx, thv := BitVec.ofNat 64 (num 0x00 8), fqBase := num 0x08 8, fqLog := num 0x10 1,
    policy := num 0x11 1, ways := num 0x12 1, timeout := num 0x14 4, saveAt := num 0x18 8,
    wroots := (List.range 4).map fun v => num (0x20 + 8 * v) 8, sroots := (List.range 4).map fun v => num (0x40 + 8 * v) 8,
    hroot := num 0x60 8, proot := num 0x68 8, headAt := num 0x70 8, vdt := s.dieTable }

/-- Bytes of device memory by their HDM offset, as the host reads them: all ones where it meets an absent frame or an error
(R522). -/
def State.hdmByte (s : State) (o : Nat) : Byte :=
  let p := bitsOf o 38 37
  let a := o % 2 ^ 37
  if decide (o < 2 ^ 39) && s.hdmOk p a && !(s.hostBad p a) then (s.dieAt p).hostByte a else 0xFF
def State.hdmBytes (s : State) (o n : Nat) : List Byte := (List.range n).map fun i => s.hdmByte (o + i)

/-- CREATE_CONTEXT (R528): the descriptor is read from device memory, at its HDM offset. The answer is the number of the context, or
the offset of the first field at fault. Where another context is in focus the new one runs beside it (log entry 2). -/
def execCreateContext (offset : Nat) (s : State) : Result :=
  if s.hub.state ≠ 4 then .refused (.notEnabled "CREATE_CONTEXT")
  else
    let d := s.hdmBytes offset 128
    match descBad d (s.dies.countP (·.present)) with
    | some a => .next (s.answer [BitVec.ofNat 8 a])
    | none =>
      let k := s.newCtx d
      let s1 := ({ s with hub := { s.hub with nextCtx := s.hub.nextCtx + 1 } } : State).answer (leBytes 4 k.num)
      .next (State.resplit (if s.ctx.isSome then
        { s1 with others := s1.others ++ [{ ctx := k, wgs := [], warps := [], cores := [], rsv := [], loess := [], radq := [] }] }
      else { s1 with ctx := some k }))

/-- DESTROY_CONTEXT (R528). -/
def execDestroyContext (context : Nat) (s : State) : Result :=
  if s.hub.state ≠ 4 then .refused (.notEnabled "DESTROY_CONTEXT")
  else if (s.swapTo context).ctx.isSome ∧ (s.swapTo context).ctxNum = context then
    .next ((s.swapTo context).stopContext.purgeCtx.vacate.resplit.answer [])
  else if (s.savedOf context).isSome then
    .next ({ s with saved := s.saved.filter fun v => v.ctx.num != context }.answer [])
  else .next (s.answer mgmtError)

/-! ### Attestation (R529, R530) -/

/-- The five measurements, as SHA-512 digests: the boot ROM; the firmware digest and security version; the declared ranges; the
fuses, with the positions that are harvested, the rollback counter and the revoked key slots; the cap and the step limits. -/
def State.measured (s : State) : List (BitVec 512) :=
  [Config.bootRom,
   leBytes 64 s.hub.digest.toNat ++ leBytes 4 s.hub.version,
   (s.hub.coherent ++ s.hub.peers).flatMap fun r => leBytes 8 r.1 ++ leBytes 8 r.2,
   Config.fuseState ++ (s.dies.map fun d => if d.present then 1 else 0) ++ leBytes 4 Config.rollback
     ++ (List.range 4).map fun k => if Config.keyRevoked k then 1 else 0,
   leBytes 4 s.hub.cap ++ s.dies.flatMap fun d => [BitVec.ofNat 8 d.lo, BitVec.ofNat 8 d.hi]].map Config.sha512

/-- The certificate chain: from Quemund's root, through the identity key, to the alias key that it has signed. -/
def State.certChain (s : State) : List Byte :=
  Config.rootChain ++ Config.ed25519Public identitySeed ++ Config.ed25519Public s.hub.aliasSeed ++ s.hub.aliasSig

/-- SPDM_REQUEST (R530): served in every STATE, minimal mode included; the answer is signed with the alias key. -/
def execSpdmRequest (request : List Byte) (s : State) : Result :=
  .next (s.answer (Config.spdmReply s.certChain s.hub.aliasSeed s.measured request))

/-! ### Snoops, and stores of the host (R262, R524) -/

/-- The bytes of a line outside a set of places stay. -/
def Line.without (l : Line) (m : BitVec 128) : Option Line :=
  if l.valid &&& ~~~m = 0 then none else some { l with valid := l.valid &&& ~~~m, dirty := l.dirty &&& ~~~m }

/-- The host address of the line that a cached line of window 0xC holds. -/
def State.hostOf (s : State) (l : Line) : Option Nat :=
  let t := s.asCtx l.ctx
  if l.ctx = t.ctxNum ∧ t.owner (l.tag * 128) = some 0xC then (t.locOf (l.tag * 128)).map (·.pa) else none

/-- A 64-byte line of the host on the coherent path, which minimal mode does not serve (R523, R527). -/
def State.hostCoherent (s : State) (a : Nat) : Bool :=
  decide (s.hub.state ≠ 5) && s.hub.coherent.any fun r => decide (r.1 ≤ a) && decide (a < r.1 + r.2)

/-- A snoop of a host line: the dirty bytes that any die holds are collected into it, and every copy is invalidated. -/
def State.snoop (s : State) (a : Nat) : State :=
  let m : BitVec 128 := (0xFFFFFFFFFFFFFFFF : BitVec 128) <<< (a % 128)
  let here (l : Line) : Bool := s.hostOf l == some (a / 128 * 128)
  let dirty := s.dies.flatMap fun d => (d.guest.filter here).flatMap fun l =>
    l.dirtyBytes.filter fun p => m.getLsbD p.1
  let cut (ls : List Line) : List Line := ls.filterMap fun l => if here l then l.without m else some l
  { s with
    host := dirty.foldl (fun h p => Sparse.set byte0 h (a / 128 * 128 + p.1) p.2) s.host
    c := { s.c with l1 := cut s.c.l1 }
    cs := s.cs.map fun c => { c with l1 := cut c.l1 }
    others := s.others.map fun v => { v with cores := v.cores.map fun c => { c with l1 := cut c.l1 } }
    dies := s.dies.map fun d => { d with guest := cut d.guest } }

/-- A snoop as messages: every die that is present is asked, and answers with what it holds dirty (log entry 18). -/
def State.askSnoop (s : State) (a : Nat) : State :=
  (List.range 4).foldl (fun t p =>
    if (s.dieAt p).present then
      t.tellDie p vcForward 0 (((s.dieAt p).guest.filter fun l => s.hostOf l == some (a / 128 * 128) && decide (l.dirty ≠ 0)).length * 64)
    else t) (s.snoop a)

/-- HOST_SNOOP (R524): the merged line is the answer. A die that relocks holds it (R509). -/
def execHostSnoop (addr : Nat) (s : State) : Result :=
  orRefuse "HOST_SNOOP" <|
    let a := addr / 64 * 64
    if !(s.hostCoherent a) || s.relocks then none
    else
      let t := s.askSnoop a
      some { t with hub := { t.hub with readData := readBytes t.host a 64, poison := false } }

/-- A byte that the host stores to its memory. Where the hub has read the word for an atomic and not yet written it, the
atomic keeps the byte: its write may undo the store (R262). -/
def State.hostByteTo (s : State) (pa : Nat) (b : Byte) : State :=
  match s.views.findSome? fun t => (t.allOps.find? fun o => o.hubWord pa).map fun o => (t.ctxNum, o) with
  | some (k, o) => s.inCtx k fun t => t.putOp { o with kept := (o.kept.filter fun q => q.2.1 != pa) ++ [(0xC, pa, b)] }
  | none => { s with host := s.host.set byte0 pa b }

/-- The lines of the coherent path that a store of the host meets. -/
def State.storeLines (s : State) (a : Nat) (bs : List Byte) : List Nat :=
  ((List.range bs.length).map fun i => (a + i) / 64 * 64).eraseDups.filter s.hostCoherent

/-- The oldest store of the host to its own memory has to wait for a relock, which holds its snoops (R509). -/
def State.storeWaits (s : State) : Bool := s.relocks && match s.hostStores with
  | (a, bs) :: _ => !(s.storeLines a bs).isEmpty
  | [] => false

/-- The oldest store of the host to its own memory takes place: on the coherent path after a snoop of its lines (R262, R524). -/
def State.hostStore (s : State) : State :=
  match s.hostStores with
  | [] => s
  | (a, bs) :: rest =>
    let t := (s.storeLines a bs).foldl State.askSnoop s
    { bs.zipIdx.foldl (fun t b => t.hostByteTo (a + b.2) b.1) t with hostStores := rest }

end Sys2Proof.Machine
end

