-- ==== Sys2Proof/Machine/Choice.lean ====
section
/-! DEFINITION. What may happen next (log entry 3): the words of the best ready warps (R97 to R99), the steps that the
hardware's own parts take, and the inputs from outside; and the passing of time (R510, R511). `ex` is the effect of an
instruction. -/

namespace Sys2Proof.Machine

/-! ### Time (R510, R511, R516, R494) -/

/-- The step at which the clocks of a die run, and of some ticks those in which they do: in a relock only up to the edge at
which they stop (R508). -/
def Die.pace (d : Die) : Nat := if d.relock.isSome then d.prev else d.step
def Die.runs (d : Die) (dt : Nat) : Nat := if d.relock.isSome then min d.lead dt else dt

/-- Arithmetic clocks of a die in some ticks (R13). -/
def Die.clocksIn (d : Die) (dt : Nat) : Nat := (d.quarters + (3 + d.pace) * d.runs dt) / 4

/-- A die after some ticks: its accumulator grows with each arithmetic clock, and with each tick in which its clocks stand
(R511), which its relock counter counts (R516). `holds`: a FIFO of its links holds a flit (R509). -/
def Die.pass (d : Die) (holds : Bool) (dt : Nat) : Die :=
  let add (i n : Nat) (c : Sparse Word64) : Sparse Word64 := c.set 0 i (c.get 0 i + BitVec.ofNat 64 n)
  let run := d.runs dt
  let d1 : Die := if holds then { d with dcnt := add 2 dt d.dcnt } else d
  { d1 with
    ncyc := d.ncyc + 22680 / (d.pace + 3) * d.clocksIn dt + 5670 * (dt - run)
    quarters := (d.quarters + (3 + d.pace) * run) % 4, lead := d.lead - run
    dcnt := if d.relock.isSome then add 1 (dt - run) d1.dcnt else d1.dcnt }

/-- A FIFO of a link of position p holds a flit for a relock, in either direction (R509). -/
def State.fifoHolds (s : State) (p : Nat) : Bool :=
  (s.dieAt p).links.any fun l => s.linkHeld p l.far
    && (!l.queue.isEmpty || !l.back.isEmpty || (s.dieAt l.far).links.any fun m => m.far == p && !m.queue.isEmpty)

/-- Ways of the links: 4 p + i of position p, with 3 for the hub's way to it; and the packets that stand there. -/
def linkWays : List Nat := List.range 16
def State.wayAt (s : State) (way : Nat) : Option (Link × Nat × List Packet) :=
  let p := way / 4
  if way % 4 = 3 then ((s.dieAt p).links.find? fun l => l.far == 4).map fun l => (l, p, l.back)
  else (s.linkAt way).map fun l => (l, l.far, l.queue)

/-- The time by which a way of a link has to deliver a packet that a relock has held (R509). -/
def State.wayDue (s : State) (way : Nat) : Option Nat :=
  (s.wayAt way).bind fun q =>
    if q.1.down || q.1.training || s.linkHeld (way / 4) q.1.far then none else (s.nextPacket q.2.1 q.2.2).bind (·.due)

/-- What the power manager owes by a time: its evaluations (R531), a shut-down at once, the thermal steps as soon as R508 permits
them, and the steps down of hot dies (R532). -/
noncomputable def State.powerDue (s : State) : List (Nat × Instr) :=
  if s.hub.state ≠ 4 then []
  else
    (s.hub.nextEval, .powerEvaluation) ::
      (if s.tooHot then [(s.time, .thermalShutdown)]
       else if s.thermalNext.isSome || s.owedNext.isSome then s.relockFrom.toList.map fun t => (t, .powerEvaluation)
       else [])

/-- The ends of the times that a start has (R527). -/
noncomputable def State.startDue (s : State) : List (Nat × Instr) :=
  if s.hub.state = 1 then [(s.hub.since + 30000 * msTicks, .bootStartTimeout)]
  else if s.hub.state = 3 then [(s.hub.since + 10000 * msTicks + 1, .firmwareStartTimeout)]
  else []

/-- A workgroup, by its identity, runs on a die whose clocks are stopped (R508). -/
def State.wgStops (s : State) (wg : Nat) : Bool :=
  match s.wgOf wg with
  | some g => s.stopped g.die
  | none => false

/-- Sleeping warps wake within 16 ticks of their time (R126), but for a relock. -/
noncomputable def State.wakesDue (s : State) : List (Nat × Instr) :=
  (s.warps.filter fun w => !(s.wgStops w.wg)).filterMap fun w => w.sleep.map fun d => (d + 16, .sleepWake w.id)

/-- The steps that fall due by a time: the above, the end of a relock (R508), the packets that it has held (R509), the end of a
retrain, 5,000 ticks after its beginning (R507), the out-of-space timeouts (R486), and the ends that errors in dirty lines bring
(R468). -/
noncomputable def State.deadlines (s : State) : List (Nat × Instr) :=
  s.powerDue ++ s.startDue ++ s.wakesDue ++ (s.hub.lost.map fun x => (s.time, .writebackUncorrectableError x.die x.line x.location))
    ++ ((List.range 4).flatMap fun p => (s.spaceEnds p).map fun e => (e.2, .outOfSpaceTimeout p))
    ++ ((List.range 4).filterMap fun p => (s.dieAt p).relock.map fun t => (t, .relockEnd p))
    ++ (linkWays.filterMap fun w => (s.wayDue w).map fun t => (t, .linkPacketDelivery w))
    ++ linkWays.filterMap fun w => ((s.linkAt w).filter fun l => l.training && !l.down).map fun l =>
        (l.since + 5000, .linkRetrainComplete w (if Config.retrainWide s.n then 8 else 4))

/-- Ticks that pass in a step: none beyond a deadline of any context that runs. -/
noncomputable def State.ticksNow (s : State) : Nat :=
  (s.views.flatMap State.deadlines).foldl (fun dt d => min dt (d.1 - s.time)) (Config.elapsed s.n)

/-- Time passes after a step, soft errors are corrected (R466), operations of Loess whose last acquire has come take what they read
(R557), and the free choices move on. -/
noncomputable def State.tick (s0 : State) : State :=
  let s := s0.takeSnaps false
  let dt := s.ticksNow
  let g (phys : Wg → Nat) (q : Wg) : Wg :=
    (q.count 0x02 ((s.dieAt (phys q)).clocksIn dt)).count 0x0C (if q.id = 0 then 0 else Config.softErrors s.n q.id)
  let other (v : Saved) : Saved := { v with wgs := v.wgs.map (g fun q => v.ctx.vdEntry q.die % 4) }
  { s with time := s.time + dt, n := s.n + 1, dies := s.dies.mapIdx fun p d => d.pass (s.fifoHolds p) dt,
           g := g (fun q => s.phys q.die) s.g, gs := s.gs.map (g fun q => s.phys q.die), others := s.others.map other }

/-- The outcome of a step, with time passed. -/
noncomputable def ticked (r : Result) : Result :=
  match r with
  | .next t => .next t.tick
  | r => r

/-! ### The steps that the parts take -/

/-- The clocks of some virtual die are stopped. -/
def State.stoppedAny (s : State) : Bool := (List.range 4).any s.stopped

/-- Events of a warp. -/
noncomputable def State.warpEvents (s : State) (w : Warp) : List Instr :=
  if w.id = 0 then []
  else
    [.starvationPromotion w.id, .runaheadEntry w.id, .runaheadExit w.id, .sleepWake w.id,
     .warpResourceRelease w.id, .chopenTakeEffect w.id, .carveApply w.id]
      ++ (if w.sched.active then [] else .warpExchange 0 w.id :: (s.warps.filter fun v => v.sched.active && v.id != 0).map fun v =>
          .warpExchange v.id w.id)

/-- Events of an operation. -/
noncomputable def opEvents (o : Op) : List Instr :=
  [.copyChunkStart o.id, .bxformStart o.id, .matrixOperationStart o.id, .loadDataArrival o.id, .storeReachesPoint o.id, .translationWalkComplete o.id, .promotionRequest o.id, .chwaitConditionMet o.id, .copyOperationComplete o.id,
   .matrixOperationComplete o.id, .rayOperationComplete o.id, .reservoirOperationComplete o.id, .rsvcfgInstall o.id,
   .radianceQueryComplete o.id, .sampleArrival o.id, .rcwldApply o.id, .nodeRecordArrival o.id]

/-- Events of a workgroup. -/
noncomputable def wgEvents (g : Wg) : List Instr :=
  if g.id = 0 then []
  else
    .workgroupCompletionEvent g.id :: ((List.range 4).map fun k => .groupBarrierArrival g.id k)
      ++ ((List.range 16).flatMap fun k => [.channelReservationFire g.id k, .channelInputFire g.id k])

/-- Events of the dies and their links: those of a die's own parts while its clocks run (R508). -/
noncomputable def State.dieStarts (s : State) : List Instr :=
  if s.stoppedAny then [] else (List.range 4).map fun v => .loessOperationStart v
noncomputable def State.dieEvents (s : State) : List Instr :=
  ((List.range 4).flatMap fun v =>
    (if s.stopped v then [] else [.loessQuadComplete v, .loessEvaluationBatch v, .loessRayComplete v])
      ++ (if (s.dieAt v).relock.isSome then []
          else [.balloonReclaim v, .compressedHoldRelease v]
            ++ ((s.dieAt v).held.filter fun h => !h.told).map fun h => .compressedWriteHold v h.addr h.chunks)
      ++ [.relockEnd v, .outOfSpaceTimeout v]
      ++ (if (s.dieAt v).temp < 1050 then [] else [.thermalStep v (s.dieAt v).temp]))
    ++ linkWays.flatMap fun w => .linkPacketDelivery w :: (if (s.linkAt w).any (·.training)
        then [.linkRetrainComplete w 8, .linkRetrainComplete w 4] else [])

/-- Events of the hub and of firmware that need no command. What acts on a die waits while its clocks are stopped (R508). -/
noncomputable def State.hubStarts (s : State) : List Instr :=
  match s.ctx with
  | none => []
  | some k =>
    (if s.stoppedAny then []
     else .yarrowStepStart :: k.graphs.flatMap fun g => (List.range g.nodes.length).map fun i => .nodeWorkgroupStart g.num i)
      ++ k.launches.flatMap fun l =>
        if lrGang l.lrec && s.stoppedAny then []
        else ((List.range 4).filter fun v => !(s.stopped v)).map fun v => .workgroupBatchDispatch l.num v
noncomputable def State.hubEvents (s : State) : List Instr :=
  [.faultQueueHeadReread, .firmwareFaultSettlement, .generationChange,
   .powerEvaluation, .thermalShutdown, .bootStartTimeout, .firmwareStartTimeout]
    ++ (if s.relocks then []
        else [.preemptionComplete, .shootDownConfirm, .migrationRecopy, .migrationRemap, .migrationComplete])
    ++ (if s.stoppedAny then [] else [.launchAcceptance none, .yarrowStepComplete])
    ++ (match s.ctx with
        | some k => (if s.stoppedAny then [] else k.graphs.map fun g => .graphDrain g.num)
            ++ (if k.preempt then s.busyUnits.map fun u => .enginePreemptAck u else [])
        | none => [])
    ++ match s.hub.shoot with
      | h :: _ => ((s.shootUnits h.ctx).filter fun u => !(s.stopped (if u < 640 then u / 160 else u - 640))).map fun u =>
          .shootDownDrainAck u
      | [] => []

/-- Every step that a part may take by itself, where it is enabled. -/
noncomputable def State.candidates (s : State) : List Instr :=
  ((s.warps.filter fun w => !(s.wgStops w.wg)).flatMap s.warpEvents) ++ (s.allOps.filter fun o => !(s.wgStops o.wg)).flatMap opEvents
    ++ ((s.g :: s.gs).filter fun g => !(s.wgStops g.id)).flatMap wgEvents ++ s.dieEvents ++ s.hubEvents
    ++ (if s.preempted then [] else s.dieStarts ++ s.hubStarts)

/-- The outcomes of the candidates that are enabled. -/
noncomputable def State.eventMoves (ex : Instr → State → Result) (s : State) : List Result :=
  s.candidates.filterMap fun i => match ex i s with
    | .next t => some (.next t)
    | _ => none

/-! ### Words -/

/-- A warp's turn: the warp comes into focus. -/
noncomputable def State.warpMove (ex : Instr → State → Result) (s : State) (id : Nat) : Option Result :=
  (s.focus id).bind fun t => t.warpTurn ex

/-- The cores that hold a workgroup, by virtual die and number. -/
def State.usedCores (s : State) : List (Nat × Nat) :=
  (((s.g :: s.gs).filter fun g => g.id != 0).map fun g => (g.die, g.core)).eraseDups

/-- A warp's next word is refused issue by a full operand log: the warp is not ready (R97, R456). -/
def State.logHolds (s : State) (w : Warp) : Bool :=
  w.ra.isNone && w.mcPend.isEmpty && (s.focus w.id).any fun t => decide (t.atWord.heldBy = .log)

/-- The two best of a core's ready warps (R97 to R99), and beside them the warps that the log refuses, which only count it. -/
noncomputable def State.issuers (ex : Instr → State → Result) (s : State) (c : Nat × Nat) : List Nat :=
  let ws := (s.warpsOn c.1 c.2).filter fun w => Config.unitFree s.n w.id && (s.warpMove ex w.id).isSome
  let rs := ws.filter fun w => !(s.logHolds w)
  (match bestWarp rs with
   | none => []
   | some a => a.id :: ((bestWarp (rs.filter fun w => w.id != a.id)).map (·.id)).toList)
    ++ (ws.filter s.logHolds).map (·.id)

noncomputable def State.wordMoves (ex : Instr → State → Result) (s : State) : List Result :=
  (s.usedCores.flatMap (s.issuers ex)).filterMap (s.warpMove ex)

/-! ### Inputs, and the choice -/

/-- The operation that a call in the mailbox waits with, on a die that relocks. -/
def State.replyWaits (s : State) (context call : Nat) : Bool :=
  s.views.any fun t => t.ctx.any fun k => k.num == context && k.mailbox.any fun c => c.id == call && (c.wait.bind t.findOp).any fun o => t.wgStops o.wg

/-- An input that waits for a relock, which holds what the host and firmware send to the die or do there (R509, R512), or a
restore that waits for places (R470). -/
def State.inputWaits (s : State) (i : Instr) : Bool :=
  match i with
  | .debugHaltRequest warp => s.views.any fun t => (t.warpOf warp).any fun w => t.wgStops w.wg
  | .hostMemRead die _ _ | .hostMemWrite die _ _ => s.hostWaits die
  | .hostMailboxReply context call _ => s.replyWaits context call
  | .hostSnoop _ | .createContext _ | .destroyContext _ | .settleFaultRecord _ _ _ _ _ | .balloonPageOffer _ _ | .shootDown _ _ _
  | .migrationCopy _ _ _ _ => s.relocks
  | .restoreContext context => s.relocks || (s.savedOf context).any fun v => !v.ctx.ended && (s.restored v).isNone
  | _ => false

/-- A management command over the DOE mailbox: these are served in the order of arrival (R528). -/
def management (i : Instr) : Bool :=
  match i with
  | .declareRanges _ _ | .setPowerLimits _ _ | .createContext _ | .destroyContext _ | .settleFaultRecord _ _ _ _ _
  | .preemptContext _ | .restoreContext _ => true
  | _ => false

/-- The oldest input that need not wait; a management command waits behind another that does. -/
def State.inputNext (s : State) (behind : Bool) : List Instr → Option Instr
  | [] => none
  | i :: is =>
    if s.inputWaits i || (behind && management i) then s.inputNext (behind || management i) is else some i

/-- That input is delivered; one that finds the package in no state to take it has no effect. -/
def State.inputMoves (ex : Instr → State → Result) (s : State) : List Result :=
  match s.inputNext false s.inputs with
  | none => []
  | some i =>
    let s1 : State := { s with inputs := s.inputs.erase i }
    match ex i s1 with
    | .next t => [.next t]
    | _ => [.next s1]

/-- What the boot ROM, the debug port, the host and firmware do of themselves: the ROM verifies a staged image (R525), the
port takes the oldest message out of its FIFO (R495), a store of the host takes place (R262), and firmware prepares another
mapping for the restore of a context (R502). -/
def State.portMoves (s : State) : List Result :=
  (if s.hub.state = 2 then [.next s.verifyImage] else [])
    ++ (if s.hub.dbg.isEmpty then [] else [.next { s with hub := { s.hub with dbg := s.hub.dbg.tail } }])
    ++ (if s.hostStores.isEmpty || s.storeWaits then [] else [.next s.hostStore])
    ++ s.saved.map fun v =>
        .next { s with hub := { s.hub with remap := some (v.ctx.num, BitVec.ofNat 16 (Config.restoreTable s.n)) } }

/-- What happens next: of all that may happen to any context that runs, the free choice of this step; time passes where
nothing may. -/
noncomputable def State.chosen (ex : Instr → State → Result) (s : State) : Result :=
  let ms := s.inputMoves ex ++ s.portMoves ++ s.views.flatMap fun t => t.wordMoves ex ++ t.eventMoves ex
  (ms[Config.choose s.n % ms.length]?).getD (.next s)

/-- A step that is due now: it comes before what is free. -/
noncomputable def State.dueMove (ex : Instr → State → Result) (s : State) : Option Result :=
  s.views.findSome? fun v => (v.deadlines.filter fun d => decide (d.1 ≤ v.time)).findSome? fun d =>
    match ex d.2 v with
    | .next t => some (.next t)
    | _ => none

/-- One step: the turn of the warp that the state names; or the boot ROM comes to await an image; or what is due, or a free choice;
then time passes. -/
noncomputable def State.stepWith (ex : Instr → State → Result) (s : State) : Result :=
  ticked (match s.turn with
    | some id =>
      let s1 : State := { s with turn := none }
      (s1.warpMove ex id).getD (.next s1)
    | none => if s.hub.state = 0 then .next s.romStep else (s.dueMove ex).getD (s.chosen ex))

/-! ### A word placed where the next step fetches it -/

/-- The clause header of one word: no WAIT and no flag (R40). -/
def oneWordHeader : Nat := 0x3 + 0xFF * 2 ^ 14 + 2 ^ 22

/-- Where the placed clause begins: any word fits its fetch block there, and ends where a header can follow. -/
def placeAt : Nat := 0x10008

/-- Device memory with a placed word: a table that maps the first gigabyte of window 0 to the die's first, the clause, and a
header after it. -/
def placeMem (m : Sparse Byte) (w : Nat) : Sparse Byte :=
  let bytes := leBytes 16 w
  let n := lengthOf (bytes.headD 0)
  let next := if n = 8 then placeAt + 16 else placeAt + 24
  let m1 := writeBytes (writeBytes m 0x1000 (leBytes 8 0x2001)) 0x2000 (leBytes 8 0xEF)
  let m2 := writeBytes (writeBytes m1 placeAt (leBytes 8 oneWordHeader)) (placeAt + 8) bytes
  writeBytes m2 next (leBytes 8 oneWordHeader)

/-- The launch record of a placed word: one warp of 256 lane registers and 64 uniform ones, four ways, all dies, scratch of
64 KB, and format slot 0 with Q4 operands. -/
def placeRec : BitVec 2048 :=
  BitVec.ofNat 2048 (placeAt + (4 * 2 ^ 76 + 64 * 2 ^ 81 + 32 * 2 ^ 88 + 1 * 2 ^ 94 + 1 * 2 ^ 104)
    + (0xF * 2 ^ 128 + 4 * 2 ^ 132 + 15 * 2 ^ 140 + 256 * 2 ^ 149 + 2 ^ 160 + 2 ^ 176)
    + 0x1550444000 / 16 * 16 * 2 ^ 256)

/-- A context that runs one warp about to issue a placed word. -/
def State.placeWord (s : State) (w : Nat) : State :=
  let hdr : Word64 := BitVec.ofNat 64 placeAt
  let run : Run := { hdr := hdr, pc := hdr + 8, left := 1, flag0 := none, flag1 := none, mask := 0xFFFFFFFF }
  let k : Ctx := { num := 1, thv := hdr, fqBase := 0x100000, headAt := 0x200000, wroots := [0x1000, 0, 0, 0], nextNum := 2,
                   launches := [{ num := 1, lrec := placeRec, started := [0] }] }
  { s with
    w := { id := 1, wg := 2, win := 32, lanes := lanesAt .ready hdr, run := some run, sched := { ceil := 15, active := true } }
    g := { id := 2, launch := 1, lrec := placeRec, size := 65536, live := 1 }
    c := { die := 0, num := 0 }
    ws := [], gs := [], cs := [], others := [], ctx := some k, turn := some 1, nextId := max s.nextId 3
    hub := { s.hub with state := 4, shoot := [] }
    dies := s.dies.mapIdx fun p d =>
      if p = 0 then { d with mem := placeMem d.mem w, stlb := [], walks := [], l2 := [], guest := [], mig := none, relock := none } else d }

end Sys2Proof.Machine
end

