-- ==== Sys2Proof/Machine/Dispatch.lean ====
section
/-! DEFINITION. The effect of every instruction: one arm for each constructor. -/

namespace Sys2Proof.Machine

/-- The effect of an instruction word or of an event on the machine. -/
def exec (i : Instr) (s : State) : Host.Outcome State Fault Refusal :=
  match i with
  | .nop len => Sys2Proof.Machine.execNop len s
  | .bra f => Sys2Proof.Machine.execBra f s
  | .bru f => Sys2Proof.Machine.execBru f s
  | .brany f => Sys2Proof.Machine.execBrany f s
  | .brall f => Sys2Proof.Machine.execBrall f s
  | .brx f => Sys2Proof.Machine.execBrx f s
  | .call f => Sys2Proof.Machine.execCall f s
  | .callx f => Sys2Proof.Machine.execCallx f s
  | .ret f => Sys2Proof.Machine.execRet f s
  | .exit f => Sys2Proof.Machine.execExit f s
  | .rcbArm f => Sys2Proof.Machine.execRcbArm f s
  | .rcbWait f => Sys2Proof.Machine.execRcbWait f s
  | .rcbClr f => Sys2Proof.Machine.execRcbClr f s
  | .yield f => Sys2Proof.Machine.execYield f s
  | .prioSet f => Sys2Proof.Machine.execPrioSet f s
  | .prioGet f => Sys2Proof.Machine.execPrioGet f s
  | .srd f => Sys2Proof.Machine.execSrd f s
  | .srd64 f => Sys2Proof.Machine.execSrd64 f s
  | .sleep f => Sys2Proof.Machine.execSleep f s
  | .ldpc f => Sys2Proof.Machine.execLdpc f s
  | .iadd f => Sys2Proof.Machine.execIadd f s
  | .iadd64 f => Sys2Proof.Machine.execIadd64 f s
  | .isub f => Sys2Proof.Machine.execIsub f s
  | .isub64 f => Sys2Proof.Machine.execIsub64 f s
  | .iaddc f => Sys2Proof.Machine.execIaddc f s
  | .isubb f => Sys2Proof.Machine.execIsubb f s
  | .iadd3 f => Sys2Proof.Machine.execIadd3 f s
  | .lea f => Sys2Proof.Machine.execLea f s
  | .imulLo f => Sys2Proof.Machine.execImulLo f s
  | .imulHi f => Sys2Proof.Machine.execImulHi f s
  | .imulWide f => Sys2Proof.Machine.execImulWide f s
  | .imadLo f => Sys2Proof.Machine.execImadLo f s
  | .imadHi f => Sys2Proof.Machine.execImadHi f s
  | .imadWide f => Sys2Proof.Machine.execImadWide f s
  | .idiv f => Sys2Proof.Machine.execIdiv f s
  | .irem f => Sys2Proof.Machine.execIrem f s
  | .iabs f => Sys2Proof.Machine.execIabs f s
  | .ineg f => Sys2Proof.Machine.execIneg f s
  | .imin f => Sys2Proof.Machine.execImin f s
  | .imax f => Sys2Proof.Machine.execImax f s
  | .imin64 f => Sys2Proof.Machine.execImin64 f s
  | .imax64 f => Sys2Proof.Machine.execImax64 f s
  | .icmp f => Sys2Proof.Machine.execIcmp f s
  | .icmp64 f => Sys2Proof.Machine.execIcmp64 f s
  | .isetm f => Sys2Proof.Machine.execIsetm f s
  | .sel f => Sys2Proof.Machine.execSel f s
  | .sel64 f => Sys2Proof.Machine.execSel64 f s
  | .mov f => Sys2Proof.Machine.execMov f s
  | .mov64 f => Sys2Proof.Machine.execMov64 f s
  | .movw f => Sys2Proof.Machine.execMovw f s
  | .vadie f => Sys2Proof.Machine.execVadie f s
  | .idp4 f => Sys2Proof.Machine.execIdp4 f s
  | .and f => Sys2Proof.Machine.execAnd f s
  | .or f => Sys2Proof.Machine.execOr f s
  | .xor f => Sys2Proof.Machine.execXor f s
  | .andn f => Sys2Proof.Machine.execAndn f s
  | .lop3 f => Sys2Proof.Machine.execLop3 f s
  | .shl f => Sys2Proof.Machine.execShl f s
  | .shr f => Sys2Proof.Machine.execShr f s
  | .sar f => Sys2Proof.Machine.execSar f s
  | .rot f => Sys2Proof.Machine.execRot f s
  | .shl64 f => Sys2Proof.Machine.execShl64 f s
  | .shr64 f => Sys2Proof.Machine.execShr64 f s
  | .sar64 f => Sys2Proof.Machine.execSar64 f s
  | .bfx f => Sys2Proof.Machine.execBfx f s
  | .bfi f => Sys2Proof.Machine.execBfi f s
  | .popc f => Sys2Proof.Machine.execPopc f s
  | .clz f => Sys2Proof.Machine.execClz f s
  | .ctz f => Sys2Proof.Machine.execCtz f s
  | .brev f => Sys2Proof.Machine.execBrev f s
  | .bperm f => Sys2Proof.Machine.execBperm f s
  | .sad f => Sys2Proof.Machine.execSad f s
  | .faddF32 f => Sys2Proof.Machine.execFaddF32 f s
  | .faddF16 f => Sys2Proof.Machine.execFaddF16 f s
  | .faddBf16 f => Sys2Proof.Machine.execFaddBf16 f s
  | .fmulF32 f => Sys2Proof.Machine.execFmulF32 f s
  | .fmulF16 f => Sys2Proof.Machine.execFmulF16 f s
  | .fmulBf16 f => Sys2Proof.Machine.execFmulBf16 f s
  | .ffmaF32 f => Sys2Proof.Machine.execFfmaF32 f s
  | .ffmaF16 f => Sys2Proof.Machine.execFfmaF16 f s
  | .ffmaBf16 f => Sys2Proof.Machine.execFfmaBf16 f s
  | .fminF32 f => Sys2Proof.Machine.execFminF32 f s
  | .fminF16 f => Sys2Proof.Machine.execFminF16 f s
  | .fminBf16 f => Sys2Proof.Machine.execFminBf16 f s
  | .fmaxF32 f => Sys2Proof.Machine.execFmaxF32 f s
  | .fmaxF16 f => Sys2Proof.Machine.execFmaxF16 f s
  | .fmaxBf16 f => Sys2Proof.Machine.execFmaxBf16 f s
  | .fcmpF32 f => Sys2Proof.Machine.execFcmpF32 f s
  | .fcmpF16 f => Sys2Proof.Machine.execFcmpF16 f s
  | .fcmpBf16 f => Sys2Proof.Machine.execFcmpBf16 f s
  | .fsetmF32 f => Sys2Proof.Machine.execFsetmF32 f s
  | .fsetmF16 f => Sys2Proof.Machine.execFsetmF16 f s
  | .fsetmBf16 f => Sys2Proof.Machine.execFsetmBf16 f s
  | .fclassF32 f => Sys2Proof.Machine.execFclassF32 f s
  | .fclassF16 f => Sys2Proof.Machine.execFclassF16 f s
  | .fclassBf16 f => Sys2Proof.Machine.execFclassBf16 f s
  | .frndF32 f => Sys2Proof.Machine.execFrndF32 f s
  | .frndF16 f => Sys2Proof.Machine.execFrndF16 f s
  | .frndBf16 f => Sys2Proof.Machine.execFrndBf16 f s
  | .fldexpF32 f => Sys2Proof.Machine.execFldexpF32 f s
  | .fcpysF32 f => Sys2Proof.Machine.execFcpysF32 f s
  | .fmed3F32 f => Sys2Proof.Machine.execFmed3F32 f s
  | .fdot2Bf16 f => Sys2Proof.Machine.execFdot2Bf16 f s
  | .pair x y => Sys2Proof.Machine.execPair x y s
  | .hadd2F16 f => Sys2Proof.Machine.execHadd2F16 f s
  | .hadd2Bf16 f => Sys2Proof.Machine.execHadd2Bf16 f s
  | .hmul2F16 f => Sys2Proof.Machine.execHmul2F16 f s
  | .hmul2Bf16 f => Sys2Proof.Machine.execHmul2Bf16 f s
  | .hfma2F16 f => Sys2Proof.Machine.execHfma2F16 f s
  | .hfma2Bf16 f => Sys2Proof.Machine.execHfma2Bf16 f s
  | .frcpF32 f => Sys2Proof.Machine.execFrcpF32 f s
  | .frsqF32 f => Sys2Proof.Machine.execFrsqF32 f s
  | .fsqrtF32 f => Sys2Proof.Machine.execFsqrtF32 f s
  | .fdivF32 f => Sys2Proof.Machine.execFdivF32 f s
  | .fexp2F32 f => Sys2Proof.Machine.execFexp2F32 f s
  | .flog2F32 f => Sys2Proof.Machine.execFlog2F32 f s
  | .fsinF32 f => Sys2Proof.Machine.execFsinF32 f s
  | .fcosF32 f => Sys2Proof.Machine.execFcosF32 f s
  | .fexp2F16 f => Sys2Proof.Machine.execFexp2F16 f s
  | .cvtF16F32 f => Sys2Proof.Machine.execCvtF16F32 f s
  | .cvtBf16F32 f => Sys2Proof.Machine.execCvtBf16F32 f s
  | .cvtF32F16 f => Sys2Proof.Machine.execCvtF32F16 f s
  | .cvtF32Bf16 f => Sys2Proof.Machine.execCvtF32Bf16 f s
  | .cvtBf16F16 f => Sys2Proof.Machine.execCvtBf16F16 f s
  | .cvtF16Bf16 f => Sys2Proof.Machine.execCvtF16Bf16 f s
  | .cvtF16x2F32 f => Sys2Proof.Machine.execCvtF16x2F32 f s
  | .cvtBf16x2F32 f => Sys2Proof.Machine.execCvtBf16x2F32 f s
  | .cvtS32F32 f => Sys2Proof.Machine.execCvtS32F32 f s
  | .cvtN32F32 f => Sys2Proof.Machine.execCvtN32F32 f s
  | .cvtS64F32 f => Sys2Proof.Machine.execCvtS64F32 f s
  | .cvtN64F32 f => Sys2Proof.Machine.execCvtN64F32 f s
  | .cvtF32S32 f => Sys2Proof.Machine.execCvtF32S32 f s
  | .cvtF32N32 f => Sys2Proof.Machine.execCvtF32N32 f s
  | .cvtF32S64 f => Sys2Proof.Machine.execCvtF32S64 f s
  | .cvtF32N64 f => Sys2Proof.Machine.execCvtF32N64 f s
  | .qdecBf16 f => Sys2Proof.Machine.execQdecBf16 f s
  | .qdecF32 f => Sys2Proof.Machine.execQdecF32 f s
  | .qencBf16 f => Sys2Proof.Machine.execQencBf16 f s
  | .qencF32 f => Sys2Proof.Machine.execQencF32 f s
  | .qscl f => Sys2Proof.Machine.execQscl f s
  | .shflIdx f => Sys2Proof.Machine.execShflIdx f s
  | .shflXor f => Sys2Proof.Machine.execShflXor f s
  | .shflUp f => Sys2Proof.Machine.execShflUp f s
  | .shflDown f => Sys2Proof.Machine.execShflDown f s
  | .voteAny f => Sys2Proof.Machine.execVoteAny f s
  | .voteAll f => Sys2Proof.Machine.execVoteAll f s
  | .voteBallot f => Sys2Proof.Machine.execVoteBallot f s
  | .voteEq f => Sys2Proof.Machine.execVoteEq f s
  | .wredIadd f => Sys2Proof.Machine.execWredIadd f s
  | .wredFadd f => Sys2Proof.Machine.execWredFadd f s
  | .wredMin f => Sys2Proof.Machine.execWredMin f s
  | .wredMax f => Sys2Proof.Machine.execWredMax f s
  | .wredAnd f => Sys2Proof.Machine.execWredAnd f s
  | .wredOr f => Sys2Proof.Machine.execWredOr f s
  | .wredXor f => Sys2Proof.Machine.execWredXor f s
  | .wscanIadd f => Sys2Proof.Machine.execWscanIadd f s
  | .wscanFadd f => Sys2Proof.Machine.execWscanFadd f s
  | .mlop f => Sys2Proof.Machine.execMlop f s
  | .ld8 f x => Sys2Proof.Machine.execLd8 f x s
  | .ld16 f x => Sys2Proof.Machine.execLd16 f x s
  | .ld32 f x => Sys2Proof.Machine.execLd32 f x s
  | .ld64 f x => Sys2Proof.Machine.execLd64 f x s
  | .ld128 f x => Sys2Proof.Machine.execLd128 f x s
  | .ldUb f x => Sys2Proof.Machine.execLdUb f x s
  | .st8 f x => Sys2Proof.Machine.execSt8 f x s
  | .st16 f x => Sys2Proof.Machine.execSt16 f x s
  | .st32 f x => Sys2Proof.Machine.execSt32 f x s
  | .st64 f x => Sys2Proof.Machine.execSt64 f x s
  | .st128 f x => Sys2Proof.Machine.execSt128 f x s
  | .stUb f x => Sys2Proof.Machine.execStUb f x s
  | .gath32 f x => Sys2Proof.Machine.execGath32 f x s
  | .gath64 f x => Sys2Proof.Machine.execGath64 f x s
  | .scat32 f x => Sys2Proof.Machine.execScat32 f x s
  | .scat64 f x => Sys2Proof.Machine.execScat64 f x s
  | .ldw32 f x => Sys2Proof.Machine.execLdw32 f x s
  | .ldw64 f x => Sys2Proof.Machine.execLdw64 f x s
  | .ldt f x => Sys2Proof.Machine.execLdt f x s
  | .stt f x => Sys2Proof.Machine.execStt f x s
  | .pref f x => Sys2Proof.Machine.execPref f x s
  | .prefL2 f x => Sys2Proof.Machine.execPrefL2 f x s
  | .cctlInv f x => Sys2Proof.Machine.execCctlInv f x s
  | .cctlWb f x => Sys2Proof.Machine.execCctlWb f x s
  | .cctlWbinv f x => Sys2Proof.Machine.execCctlWbinv f x s
  | .carve f x => Sys2Proof.Machine.execCarve f x s
  | .stzLine f x => Sys2Proof.Machine.execStzLine f x s
  | .ldtTr f x => Sys2Proof.Machine.execLdtTr f x s
  | .tlbq f x => Sys2Proof.Machine.execTlbq f x s
  | .prefRange f x => Sys2Proof.Machine.execPrefRange f x s
  | .ldw128 f x => Sys2Proof.Machine.execLdw128 f x s
  | .stMsk f x => Sys2Proof.Machine.execStMsk f x s
  | .ldBc f x => Sys2Proof.Machine.execLdBc f x s
  | .stzSec f x => Sys2Proof.Machine.execStzSec f x s
  | .atomAdd f x => Sys2Proof.Machine.execAtomAdd f x s
  | .atomMin f x => Sys2Proof.Machine.execAtomMin f x s
  | .atomMax f x => Sys2Proof.Machine.execAtomMax f x s
  | .atomAnd f x => Sys2Proof.Machine.execAtomAnd f x s
  | .atomOr f x => Sys2Proof.Machine.execAtomOr f x s
  | .atomXor f x => Sys2Proof.Machine.execAtomXor f x s
  | .atomXchg f x => Sys2Proof.Machine.execAtomXchg f x s
  | .atomCas f x => Sys2Proof.Machine.execAtomCas f x s
  | .atomAdd64 f x => Sys2Proof.Machine.execAtomAdd64 f x s
  | .atomMin64 f x => Sys2Proof.Machine.execAtomMin64 f x s
  | .atomMax64 f x => Sys2Proof.Machine.execAtomMax64 f x s
  | .atomAnd64 f x => Sys2Proof.Machine.execAtomAnd64 f x s
  | .atomOr64 f x => Sys2Proof.Machine.execAtomOr64 f x s
  | .atomXor64 f x => Sys2Proof.Machine.execAtomXor64 f x s
  | .atomXchg64 f x => Sys2Proof.Machine.execAtomXchg64 f x s
  | .atomCas64 f x => Sys2Proof.Machine.execAtomCas64 f x s
  | .atomFaddF32 f x => Sys2Proof.Machine.execAtomFaddF32 f x s
  | .atomFminF32 f x => Sys2Proof.Machine.execAtomFminF32 f x s
  | .atomFmaxF32 f x => Sys2Proof.Machine.execAtomFmaxF32 f x s
  | .atomInc f x => Sys2Proof.Machine.execAtomInc f x s
  | .atomDec f x => Sys2Proof.Machine.execAtomDec f x s
  | .atomCas128 f x => Sys2Proof.Machine.execAtomCas128 f x s
  | .redAdd f x => Sys2Proof.Machine.execRedAdd f x s
  | .redFaddF32 f x => Sys2Proof.Machine.execRedFaddF32 f x s
  | .fence f x => Sys2Proof.Machine.execFence f x s
  | .barWg f x => Sys2Proof.Machine.execBarWg f x s
  | .barArrive f x => Sys2Proof.Machine.execBarArrive f x s
  | .barWait f x => Sys2Proof.Machine.execBarWait f x s
  | .gbar f x => Sys2Proof.Machine.execGbar f x s
  | .gbarArrive f x => Sys2Proof.Machine.execGbarArrive f x s
  | .gbarWait f x => Sys2Proof.Machine.execGbarWait f x s
  | .gcoll f x => Sys2Proof.Machine.execGcoll f x s
  | .chopen f x => Sys2Proof.Machine.execChopen f x s
  | .chclose f x => Sys2Proof.Machine.execChclose f x s
  | .waitc f x => Sys2Proof.Machine.execWaitc f x s
  | .redAdd64 f x => Sys2Proof.Machine.execRedAdd64 f x s
  | .chdef f x => Sys2Proof.Machine.execChdef f x s
  | .chrst f x => Sys2Proof.Machine.execChrst f x s
  | .chprodRsv f x => Sys2Proof.Machine.execChprodRsv f x s
  | .chprodPub f x => Sys2Proof.Machine.execChprodPub f x s
  | .chcons f x => Sys2Proof.Machine.execChcons f x s
  | .chwp f x => Sys2Proof.Machine.execChwp f x s
  | .chwaitData f x => Sys2Proof.Machine.execChwaitData f x s
  | .chwaitRoom f x => Sys2Proof.Machine.execChwaitRoom f x s
  | .copyG2s f x => Sys2Proof.Machine.execCopyG2s f x s
  | .copyS2g f x => Sys2Proof.Machine.execCopyS2g f x s
  | .copyG2g f x => Sys2Proof.Machine.execCopyG2g f x s
  | .copyTile f x => Sys2Proof.Machine.execCopyTile f x s
  | .bxform f x => Sys2Proof.Machine.execBxform f x s
  | .copyFill f x => Sys2Proof.Machine.execCopyFill f x s
  | .wld f x => Sys2Proof.Machine.execWld f x s
  | .wswap f x => Sys2Proof.Machine.execWswap f x s
  | .mpass f x => Sys2Proof.Machine.execMpass f x s
  | .mpassb f x => Sys2Proof.Machine.execMpassb f x s
  | .mspass f x => Sys2Proof.Machine.execMspass f x s
  | .macz f x => Sys2Proof.Machine.execMacz f x s
  | .macr f x => Sys2Proof.Machine.execMacr f x s
  | .mepf f x => Sys2Proof.Machine.execMepf f x s
  | .wscl f x => Sys2Proof.Machine.execWscl f x s
  | .msel f x => Sys2Proof.Machine.execMsel f x s
  | .mflushWait f x => Sys2Proof.Machine.execMflushWait f x s
  | .mflushClr f x => Sys2Proof.Machine.execMflushClr f x s
  | .mstat f x => Sys2Proof.Machine.execMstat f x s
  | .trace f x => Sys2Proof.Machine.execTrace f x s
  | .traceCont f x => Sys2Proof.Machine.execTraceCont f x s
  | .traceOcc f x => Sys2Proof.Machine.execTraceOcc f x s
  | .traceEnd f x => Sys2Proof.Machine.execTraceEnd f x s
  | .rayq f x => Sys2Proof.Machine.execRayq f x s
  | .rayc f x => Sys2Proof.Machine.execRayc f x s
  | .rayxf f x => Sys2Proof.Machine.execRayxf f x s
  | .ltwalk f x => Sys2Proof.Machine.execLtwalk f x s
  | .ltpdf f x => Sys2Proof.Machine.execLtpdf f x s
  | .sobol f x => Sys2Proof.Machine.execSobol f x s
  | .rnd f x => Sys2Proof.Machine.execRnd f x s
  | .rndf f x => Sys2Proof.Machine.execRndf f x s
  | .rsvld f x => Sys2Proof.Machine.execRsvld f x s
  | .rsvst f x => Sys2Proof.Machine.execRsvst f x s
  | .rsvupd f x => Sys2Proof.Machine.execRsvupd f x s
  | .rsvmrg f x => Sys2Proof.Machine.execRsvmrg f x s
  | .rsvnrm f x => Sys2Proof.Machine.execRsvnrm f x s
  | .rsvclr f x => Sys2Proof.Machine.execRsvclr f x s
  | .rsvhalo f x => Sys2Proof.Machine.execRsvhalo f x s
  | .rsvswap f x => Sys2Proof.Machine.execRsvswap f x s
  | .rsvq f x => Sys2Proof.Machine.execRsvq f x s
  | .rsvcfg f x => Sys2Proof.Machine.execRsvcfg f x s
  | .ruse f x => Sys2Proof.Machine.execRuse f x s
  | .calret f x => Sys2Proof.Machine.execCalret f x s
  | .rcq f x => Sys2Proof.Machine.execRcq f x s
  | .rcqTrain f x => Sys2Proof.Machine.execRcqTrain f x s
  | .rcgen f x => Sys2Proof.Machine.execRcgen f x s
  | .rcwld f x => Sys2Proof.Machine.execRcwld f x s
  | .rcwst f x => Sys2Proof.Machine.execRcwst f x s
  | .rcstepStat f x => Sys2Proof.Machine.execRcstepStat f x s
  | .rcstepWait f x => Sys2Proof.Machine.execRcstepWait f x s
  | .rcstepClr f x => Sys2Proof.Machine.execRcstepClr f x s
  | .launch f x => Sys2Proof.Machine.execLaunch f x s
  | .launchDep f x => Sys2Proof.Machine.execLaunchDep f x s
  | .nodeEnq f x => Sys2Proof.Machine.execNodeEnq f x s
  | .nodeEnqn f x => Sys2Proof.Machine.execNodeEnqn f x s
  | .nodeRec f x => Sys2Proof.Machine.execNodeRec f x s
  | .evwait f x => Sys2Proof.Machine.execEvwait f x s
  | .evsig f x => Sys2Proof.Machine.execEvsig f x s
  | .graphStart f x => Sys2Proof.Machine.execGraphStart f x s
  | .graphWait f x => Sys2Proof.Machine.execGraphWait f x s
  | .lrq f x => Sys2Proof.Machine.execLrq f x s
  | .lcancel f x => Sys2Proof.Machine.execLcancel f x s
  | .lquery f x => Sys2Proof.Machine.execLquery f x s
  | .wgid f x => Sys2Proof.Machine.execWgid f x s
  | .graphAbort f x => Sys2Proof.Machine.execGraphAbort f x s
  | .trap f => Sys2Proof.Machine.execTrap f s
  | .bkpt f => Sys2Proof.Machine.execBkpt f s
  | .reth f => Sys2Proof.Machine.execReth f s
  | .thrd f => Sys2Proof.Machine.execThrd f s
  | .thwr f => Sys2Proof.Machine.execThwr f s
  | .fstk f => Sys2Proof.Machine.execFstk f s
  | .fstkclr f => Sys2Proof.Machine.execFstkclr f s
  | .asrt f => Sys2Proof.Machine.execAsrt f s
  | .pmcrd f => Sys2Proof.Machine.execPmcrd f s
  | .pmccfg f => Sys2Proof.Machine.execPmccfg f s
  | .pmcclr f => Sys2Proof.Machine.execPmcclr f s
  | .dbgmsg f => Sys2Proof.Machine.execDbgmsg f s
  | .ctxend f => Sys2Proof.Machine.execCtxend f s
  | .hcall f => Sys2Proof.Machine.execHcall f s
  | .hcallw f => Sys2Proof.Machine.execHcallw f s
  | .errq f => Sys2Proof.Machine.execErrq f s
  | .prchk f => Sys2Proof.Machine.execPrchk f s
  | .mcrd f => Sys2Proof.Machine.execMcrd f s
  | .dhop f x => Sys2Proof.Machine.execDhop f x s
  | .dcnt f x => Sys2Proof.Machine.execDcnt f x s
  | .dfreq f x => Sys2Proof.Machine.execDfreq f x s
  | .dtime f x => Sys2Proof.Machine.execDtime f x s
  | .dlink f x => Sys2Proof.Machine.execDlink f x s
  | .dquad f x => Sys2Proof.Machine.execDquad f x s
  | .illegalInstruction reason => Sys2Proof.Machine.execIllegalInstruction reason s
  | .clauseStart h => Sys2Proof.Machine.execClauseStart h s
  | .warpExchange out into => Sys2Proof.Machine.execWarpExchange out into s
  | .starvationPromotion warp => Sys2Proof.Machine.execStarvationPromotion warp s
  | .runaheadEntry warp => Sys2Proof.Machine.execRunaheadEntry warp s
  | .runaheadExit warp => Sys2Proof.Machine.execRunaheadExit warp s
  | .sleepWake warp => Sys2Proof.Machine.execSleepWake warp s
  | .loadDataArrival op => Sys2Proof.Machine.execLoadDataArrival op s
  | .storeReachesPoint op => Sys2Proof.Machine.execStoreReachesPoint op s
  | .writebackUncorrectableError die line location => Sys2Proof.Machine.execWritebackUncorrectableError die line location s
  | .translationWalkComplete op => Sys2Proof.Machine.execTranslationWalkComplete op s
  | .faultQueueHeadReread => Sys2Proof.Machine.execFaultQueueHeadReread s
  | .firmwareFaultSettlement => Sys2Proof.Machine.execFirmwareFaultSettlement s
  | .settleFaultRecord context index resume pteAddr pte => Sys2Proof.Machine.execSettleFaultRecord context index resume pteAddr pte s
  | .warpResourceRelease warp => Sys2Proof.Machine.execWarpResourceRelease warp s
  | .groupBarrierArrival wg slot => Sys2Proof.Machine.execGroupBarrierArrival wg slot s
  | .promotionRequest op => Sys2Proof.Machine.execPromotionRequest op s
  | .chopenTakeEffect warp => Sys2Proof.Machine.execChopenTakeEffect warp s
  | .channelReservationFire wg ch => Sys2Proof.Machine.execChannelReservationFire wg ch s
  | .channelInputFire wg ch => Sys2Proof.Machine.execChannelInputFire wg ch s
  | .chwaitConditionMet op => Sys2Proof.Machine.execChwaitConditionMet op s
  | .copyChunkStart op => Sys2Proof.Machine.execCopyChunkStart op s
  | .copyOperationComplete op => Sys2Proof.Machine.execCopyOperationComplete op s
  | .carveApply warp => Sys2Proof.Machine.execCarveApply warp s
  | .bxformStart op => Sys2Proof.Machine.execBxformStart op s
  | .matrixOperationStart op => Sys2Proof.Machine.execMatrixOperationStart op s
  | .matrixOperationComplete op => Sys2Proof.Machine.execMatrixOperationComplete op s
  | .rayOperationComplete op => Sys2Proof.Machine.execRayOperationComplete op s
  | .reservoirOperationComplete op => Sys2Proof.Machine.execReservoirOperationComplete op s
  | .rsvcfgInstall op => Sys2Proof.Machine.execRsvcfgInstall op s
  | .loessOperationStart die => Sys2Proof.Machine.execLoessOperationStart die s
  | .loessQuadComplete die => Sys2Proof.Machine.execLoessQuadComplete die s
  | .loessEvaluationBatch die => Sys2Proof.Machine.execLoessEvaluationBatch die s
  | .loessRayComplete die => Sys2Proof.Machine.execLoessRayComplete die s
  | .radianceQueryComplete op => Sys2Proof.Machine.execRadianceQueryComplete op s
  | .sampleArrival op => Sys2Proof.Machine.execSampleArrival op s
  | .generationChange => Sys2Proof.Machine.execGenerationChange s
  | .yarrowStepStart => Sys2Proof.Machine.execYarrowStepStart s
  | .yarrowStepComplete => Sys2Proof.Machine.execYarrowStepComplete s
  | .rcwldApply op => Sys2Proof.Machine.execRcwldApply op s
  | .launchAcceptance host => Sys2Proof.Machine.execLaunchAcceptance host s
  | .workgroupBatchDispatch launch die => Sys2Proof.Machine.execWorkgroupBatchDispatch launch die s
  | .workgroupCompletionEvent wg => Sys2Proof.Machine.execWorkgroupCompletionEvent wg s
  | .nodeRecordArrival op => Sys2Proof.Machine.execNodeRecordArrival op s
  | .nodeWorkgroupStart graph node => Sys2Proof.Machine.execNodeWorkgroupStart graph node s
  | .graphDrain graph => Sys2Proof.Machine.execGraphDrain graph s
  | .preemptContext context => Sys2Proof.Machine.execPreemptContext context s
  | .enginePreemptAck unit => Sys2Proof.Machine.execEnginePreemptAck unit s
  | .preemptionComplete => Sys2Proof.Machine.execPreemptionComplete s
  | .restoreContext context => Sys2Proof.Machine.execRestoreContext context s
  | .debugHaltRequest warp => Sys2Proof.Machine.execDebugHaltRequest warp s
  | .debugResume warp single => Sys2Proof.Machine.execDebugResume warp single s
  | .shootDown context base size => Sys2Proof.Machine.execShootDown context base size s
  | .shootDownDrainAck unit => Sys2Proof.Machine.execShootDownDrainAck unit s
  | .shootDownConfirm => Sys2Proof.Machine.execShootDownConfirm s
  | .migrationCopy die va frame size => Sys2Proof.Machine.execMigrationCopy die va frame size s
  | .migrationRecopy => Sys2Proof.Machine.execMigrationRecopy s
  | .migrationRemap => Sys2Proof.Machine.execMigrationRemap s
  | .migrationComplete => Sys2Proof.Machine.execMigrationComplete s
  | .balloonReclaim die => Sys2Proof.Machine.execBalloonReclaim die s
  | .compressedWriteHold die page chunks => Sys2Proof.Machine.execCompressedWriteHold die page chunks s
  | .compressedHoldRelease die => Sys2Proof.Machine.execCompressedHoldRelease die s
  | .outOfSpaceTimeout die => Sys2Proof.Machine.execOutOfSpaceTimeout die s
  | .powerEvaluation => Sys2Proof.Machine.execPowerEvaluation s
  | .relockEnd die => Sys2Proof.Machine.execRelockEnd die s
  | .thermalShutdown => Sys2Proof.Machine.execThermalShutdown s
  | .linkPacketDelivery link => Sys2Proof.Machine.execLinkPacketDelivery link s
  | .linkRetrain link => Sys2Proof.Machine.execLinkRetrain link s
  | .linkRetrainComplete link modules => Sys2Proof.Machine.execLinkRetrainComplete link modules s
  | .hostMemRead die offset n => Sys2Proof.Machine.execHostMemRead die offset n s
  | .hostMemWrite die offset data => Sys2Proof.Machine.execHostMemWrite die offset data s
  | .hostSnoop addr => Sys2Proof.Machine.execHostSnoop addr s
  | .deviceReset => Sys2Proof.Machine.execDeviceReset s
  | .start image => Sys2Proof.Machine.execStart image s
  | .clrf => Sys2Proof.Machine.execClrf s
  | .bootStartTimeout => Sys2Proof.Machine.execBootStartTimeout s
  | .firmwareRunning => Sys2Proof.Machine.execFirmwareRunning s
  | .firmwareStartTimeout => Sys2Proof.Machine.execFirmwareStartTimeout s
  | .barRegisterWrite place value => Sys2Proof.Machine.execBarRegisterWrite place value s
  | .declareRanges coherent peers => Sys2Proof.Machine.execDeclareRanges coherent peers s
  | .setPowerLimits cap steps => Sys2Proof.Machine.execSetPowerLimits cap steps s
  | .createContext offset => Sys2Proof.Machine.execCreateContext offset s
  | .destroyContext context => Sys2Proof.Machine.execDestroyContext context s
  | .spdmRequest request => Sys2Proof.Machine.execSpdmRequest request s
  | .hostMailboxTake context => Sys2Proof.Machine.execHostMailboxTake context s
  | .hostMailboxReply context call reply => Sys2Proof.Machine.execHostMailboxReply context call reply s
  | .thermalStep die tenths => Sys2Proof.Machine.execThermalStep die tenths s
  | .firmwareStartFailure reason => Sys2Proof.Machine.execFirmwareStartFailure reason s
  | .powerRemoval => Sys2Proof.Machine.execPowerRemoval s
  | .debuggerAttach context attach breakpoints => Sys2Proof.Machine.execDebuggerAttach context attach breakpoints s
  | .corePowerGating core gate => Sys2Proof.Machine.execCorePowerGating core gate s
  | .balloonPageOffer die frame => Sys2Proof.Machine.execBalloonPageOffer die frame s

end Sys2Proof.Machine
end

