-- ==== Sys2Proof/Machine/Step.lean ====
section
/-! DEFINITION. One step of the machine, and a word placed where the next step fetches it. -/

namespace Sys2Proof.Machine

/-- One step (log entry 3). -/
noncomputable def step (s : State) : Host.Outcome State Fault Refusal := s.stepWith exec

/-- The machine with an instruction placed where the very next step fetches it (log entry 9): a context runs one warp that
stands at the word. -/
def State.withFetchWord (s : State) (_nbits w : Nat) : State := s.placeWord w

end Sys2Proof.Machine
end

