-- ==== Sys2Proof/Safety.lean ====
section
/-! DEFINITION. What a safe run is (memories in their one canonical form, four dies, lane tables of 32 lanes, and no stop), and
the terms in which statements say what a word changes and what it leaves alone. -/

namespace Sys2Proof.Machine

/-- Every memory of the package is in its canonical form. -/
def State.memWf (s : State) : Bool :=
  (s.dies.all fun d => Memory.wf d.mem) && Memory.wf s.host && Memory.wf s.peer && (s.g :: s.gs).all fun g => Memory.wf g.scratch

/-- Every warp has 32 lanes. -/
def State.lanesWf (s : State) : Bool := s.warps.all fun w => w.lanes.length == 32

/-- The dies stand at their physical positions. -/
def State.diesWf (s : State) : Bool := decide (s.dies.map (·.phys) = [0, 1, 2, 3])

/-- The form that the state keeps. -/
def State.wf (s : State) : Bool := s.memWf && s.lanesWf && s.diesWf

/-- A step answers a next state: the package has no other outcome (R455, R462, R464). -/
def Goes (r : Result) : Prop := ∃ t, r = .next t

/-! ### Frames -/

/-- Every byte of memory reads as before: device memory as the host reads it, the scratch of the workgroup in focus, and the
memory of the host and of peers. -/
def SameBytes (s t : State) : Prop :=
  (∀ p a, (t.dieAt p).hostByte a = (s.dieAt p).hostByte a) ∧ (∀ a n, t.scratchRead a n = s.scratchRead a n)
    ∧ t.host = s.host ∧ t.peer = s.peer

/-- A state with the registers, masks, condition codes, sticky flags and progress of the warp in focus of another, what YIELD
has left to do for its lanes and what flags are still to be ORed in included. -/
def State.withRegs (t s : State) : State :=
  { t with w := { t.w with
      v := s.w.v, u := s.w.u, m := s.w.m, ccC := s.w.ccC, ccZ := s.w.ccZ, ccN := s.w.ccN, ccV := s.w.ccV,
      sticky := s.w.sticky, late := s.w.late, lanes := s.w.lanes, run := s.w.run, halted := s.w.halted
      sched := { t.w.sched with passed := s.w.sched.passed, yielded := s.w.sched.yielded } } }

/-- Nothing else differs. -/
def Kept (s t : State) : Prop := t.withRegs s = s ∧ SameBytes s t

/-- What YIELD has left to do for lanes is as before (R125), or, at the end of a clause, falls to the choice of the next run. -/
def SameYield (s t : State) : Prop := t.w.sched.passed = s.w.sched.passed ∧ t.w.sched.yielded = s.w.sched.yielded
def YieldDue (s t : State) : Prop := t.w.sched.passed = s.w.sched.yielded ∧ t.w.sched.yielded = 0

/-- The run has moved past a word of `len` bytes (R38, R92): to the next word, or, after the last of the clause, its lanes that
are ready to the header that follows. -/
def Moved (s t : State) (len : Nat) : Prop :=
  match s.w.run with
  | none => t.w.run = none ∧ t.w.lanes = s.w.lanes ∧ t.w.halted = s.w.halted ∧ SameYield s t
  | some r =>
    if 1 < r.left then
      t.w.run = some { r with pc := nextWord r.pc len, left := r.left - 1 } ∧ t.w.lanes = s.w.lanes ∧ t.w.halted = s.w.halted
        ∧ SameYield s t
    else
      t.w.run = none ∧ t.w.halted = (s.w.halted || s.w.single) ∧ YieldDue s t
        ∧ t.w.lanes = s.w.lanes.mapIdx fun l e =>
            if inSet r.mask l && decide (e.st = .ready) then { e with pc := nextWord r.pc len, mid := none, via := none } else e

/-- Lane registers from `d` on hold, in the lanes of a set, the words given for the lane; every other one is unchanged. -/
def WritesLanes (s t : State) (e : LaneMask) (d : Nat) (ws : Nat → List Word) : Prop :=
  ∀ q l, l < 32 → t.v q l =
    if inSet e l = true ∧ d ≤ q ∧ q < d + (ws l).length then ((ws l)[q - d]?).getD 0 else s.v q l

/-- Uniform registers from `d` on hold the words given; every other one is unchanged. -/
def WritesUniform (s t : State) (d : Nat) (ws : List Word) : Prop :=
  ∀ q, t.u q = if d ≤ q ∧ q < d + ws.length then (ws[q - d]?).getD 0 else s.u q

/-- The condition codes of the lanes of a set are those given where `on`; every other lane's are unchanged. -/
def WritesCodes (s t : State) (on : Bool) (e : LaneMask) (k : Nat → Codes) : Prop :=
  ∀ l, l < 32 → t.codes l = if on = true ∧ inSet e l = true then k l else s.codes l

/-- No sticky flag differs, nor which of them words of unfinished latency have raised (R162). -/
def SameFlags (s t : State) : Prop := t.w.sticky = s.w.sticky ∧ t.w.late = s.w.late

/-- No lane register, uniform register, mask, code or flag differs. -/
def SameRegisters (s t : State) : Prop :=
  t.w.v = s.w.v ∧ t.w.u = s.w.u ∧ t.w.m = s.w.m ∧ SameFlags s t ∧ ∀ l, t.codes l = s.codes l

end Sys2Proof.Machine
end

