-- ==== Sys2Proof/Certificates/Slice0/Terms.lean ====
section
/-! DEFINITION. Terms that the statements share: a word that changes named parts and nothing else, entry into the trap handler,
and the lanes of a run at the place where they resume. -/

namespace Sys2Proof.Slice0

open Sys2Proof.Machine

/-- A word of `len` bytes is done: the state is s1, moved past the word. -/
def Becomes (s1 t : State) (len : Nat) : Prop := Moved s1 t len ∧ SameRegisters s1 t ∧ Kept s1 t

/-- A word that acts as `act` says where its executing set holds a lane, and has no effect where it is empty. -/
def ActsOnce (i : Instr) (len : Nat) (k : Cond) (s : State) (act : State) : Prop :=
  ∃ t, exec i s = .next t ∧ Becomes (if s.execSet k = 0 then s else act) t len

/-- The warp in focus changed. -/
def onWarp (s : State) (g : Warp → Warp) : State := { s with w := g s.w }

/-- The lanes of the run that are ready, at the place where they resume (R462). -/
def resumed (s : State) (pc : Word64) (mid : Option Mid) : List LaneEnt :=
  s.w.lanes.mapIdx fun l e =>
    if inSet s.m0 l && decide (e.st = .ready) then { e with pc := pc, mid := mid, via := none } else e

/-- The place after a word of `len` bytes in its clause: none at a clause header. -/
def placeAfter (s : State) : Option Mid :=
  match s.w.run with
  | some r => if r.left ≤ 1 then none else some { hdr := r.hdr, left := r.left - 1 }
  | none => none

/-- Entry into the handler (R464): the lane table, the barriers and the synchronisation state go to the trap shadow, the
handler registers are written, and all 32 lanes stand at the handler. -/
def inHandler (s : State) (thv : Word64) (cause : BitVec 8) (info : Word) (fmask : LaneMask) (lanes : List LaneEnt) : State :=
  onWarp s fun w => { w with
    shadow := some { lanes := lanes, rcb := w.rcb, sync := w.sync }
    th := { amask := s.m0, fmask := fmask, cause := cause, epc := s.pc.setWidth 56, info := info }
    lanes := List.replicate 32 { st := .ready, pc := thv }
    rcb := [], sync := {}, run := none, inHandler := true, sleep := none, halted := w.halted || w.single }

/-- A trap can be taken: a run is in progress, the context has a handler, and the warp is not in it. -/
def CanTrap (s : State) (thv : Word64) : Prop :=
  s.w.run.isSome = true ∧ s.w.inHandler = false ∧ thv ≠ 0 ∧ ∃ k, s.ctx = some k ∧ k.thv = thv

/-- The executing set of a word in a state with a run in progress, of which no lane runs ahead. -/
def Issuing (s : State) (r : Run) : Prop := s.w.run = some r ∧ s.w.ra = none

end Sys2Proof.Slice0
end

