-- ==== Sys2Proof/Certificates/Slice0/ControlTable.lean ====
section
/-! DEFINITION. The control class and the words of other classes that read or write one register or one piece of the machine's
state, in the terms of R115 to R131, R489 to R500 and R515 to R519, for the statements. -/

namespace Sys2Proof.Slice0

open Sys2Proof.Machine

/-- The flags of words whose latency has not ended, which FSTKCLR leaves (R162, R492). -/
def lateOpen (s : State) : List LateFlags := s.w.late.filter fun p => decide (s.time < p.due)
def lateUnion (s : State) : Flags := (lateOpen s).foldl (fun a p => a ||| p.fl) 0

/-! ### Transfers -/

/-- A transfer (R114): which lanes take it, where each of them goes, and whether a link is written. -/
structure Transfer where
  word   : FmtA → Instr
  take   : FmtA → State → LaneMask
  target : FmtA → State → Nat → Word64
  link   : Bool := false

/-- hdr + 8 × T (R113). -/
def directTarget (f : FmtA) (s : State) (_ : Nat) : Word64 := s.hdr + 8 * immTarget f
def everyLane (f : FmtA) (s : State) : LaneMask := s.execSet f.cond
def lanesWhere (p : FmtA → State → Bool) (f : FmtA) (s : State) : LaneMask := if p f s then s.execSet f.cond else 0
/-- The value that BRU, BRANY and BRALL test. -/
def tested (f : FmtA) (s : State) : Word := s.usrc32 f f.sb

/-- R115 to R119. -/
noncomputable def transfers : List Transfer := [
  { word := .bra, take := everyLane, target := directTarget },
  { word := .bru, target := directTarget
    take := lanesWhere fun f s => if f.md.getLsbD 0 then tested f s == 0 else tested f s != 0 },
  { word := .brany, target := directTarget, take := lanesWhere fun f s => tested f s &&& s.execSet f.cond != 0 },
  { word := .brall, target := directTarget
    take := lanesWhere fun f s => s.execSet f.cond &&& ~~~(tested f s) == 0 },
  { word := .brx, take := everyLane, target := fun f s => s.src64 f f.sa },
  { word := .call, take := everyLane, target := directTarget, link := true },
  { word := .callx, take := everyLane, target := fun f s => s.src64 f f.sa, link := true },
  { word := .ret, take := everyLane, target := fun f s => s.src64 f f.sa }]

/-- The checks of a transfer's targets, and what they leave. -/
def Transfer.checks (o : Transfer) (f : FmtA) (s : State) : State × List (Word64 × Nat) :=
  checkTargets s (targetsOf (o.take f s) (o.target f s))

/-- Every target can be fetched. -/
def Transfer.Fetches (o : Transfer) (f : FmtA) (s : State) : Prop := (o.checks f s).2 = []

/-- A lane's target holds a clause header (R42). -/
def Transfer.HeaderAt (o : Transfer) (f : FmtA) (s : State) (l : Nat) : Bool :=
  (o.checks f s).1.headerAt (o.target f s l).toNat

/-- The words of a link, and of any pair (R118). -/
def pairWords (x : Word64) : List Word := [x.extractLsb' 0 32, x.extractLsb' 32 32]

/-- The transfer is done: its lanes stand at their targets and the others of the run after the word, each at a header. -/
def Transfer.Completes (o : Transfer) (f : FmtA) (s : State) (r : Run) : Prop :=
  let next := nextWord r.pc (fmtLen f)
  ∃ t, exec (o.word f) s = .next t
    ∧ t.w.run = none
    ∧ t.w.lanes = s.w.lanes.mapIdx (fun l e => if inSet r.mask l = true ∧ e.st = .ready then
        { e with pc := if inSet (o.take f s) l then o.target f s l else next, mid := none, via := none } else e)
    ∧ t.w.halted = (s.w.halted || s.w.single)
    ∧ WritesLanes s t (if o.link then s.execSet f.cond else 0) f.dst.toNat (fun _ => pairWords next)
    ∧ t.w.u = s.w.u ∧ t.w.m = s.w.m ∧ SameFlags s t ∧ (∀ l, t.codes l = s.codes l)
    ∧ Kept (o.checks f s).1 t

/-! ### Reads of one value (R128 to R130, R491, R492, R494) -/

/-- A word that writes a value to each executing lane, or with U once to a uniform register. -/
structure ReadWord where
  word : FmtA → Instr
  vals : FmtA → State → Nat → List Word

/-- A word of 32 bits from a number, and a pair. -/
def word1 (n : Nat) : List Word := [BitVec.ofNat 32 n]

/-- The handler register that SEL names (R463, R491). -/
def handlerWords (h : Handler) (sel : Nat) : List Word :=
  if sel = 0 then [h.amask] else if sel = 1 then [h.fmask] else if sel = 2 then [h.cause.setWidth 32]
  else if sel = 4 then pairWords (h.epc.setWidth 64) else [h.info]

/-- PRIO.GET's value (R128): PRIO in [3:0], CEIL in [7:4], the promotion in bit 8. -/
def prioWord (y : Sched) : Nat := y.prio % 16 + 16 * (y.ceil % 16) + if y.prom then 256 else 0

/-- The special registers of 32 bits by selector (R129), for lane l. -/
def specialTable (s : State) (l : Nat) : List (Nat × Nat) := [
  (0, l), (1, s.w.idx), (2, s.g.index), (3, s.g.core), (4, cluster s.g.core), (5, s.g.die), (6, lrNwarp s.g.lrec), (7, s.w.slot),
  (8, prioWord s.w.sched), (9, s.ctxNum), (10, (s.die s.g.die).step), (11, s.ndie)]

/-- The value of a selector. -/
def specialAt (s : State) (sel l : Nat) : Nat := (((specialTable s l).find? fun p => p.1 == sel).map (·.2)).getD s.ndie

noncomputable def reads : List ReadWord := [
  { word := .prioGet, vals := fun _ s _ => word1 (prioWord s.w.sched) },
  { word := .srd, vals := fun f s l => word1 (specialAt s (f.md.toNat / 2) l) },
  { word := .srd64, vals := fun f s _ =>
      pairWords (BitVec.ofNat 64 (if f.md.toNat / 2 = 0x40 then s.time else (s.die s.g.die).ncyc / 2520)) },
  { word := .ldpc, vals := fun f s l => pairWords (directTarget f s l) },
  { word := .thrd, vals := fun f s _ => handlerWords s.w.th (f.md.toNat / 2 % 8) },
  { word := .fstk, vals := fun _ s _ => [s.w.sticky.setWidth 32] },
  { word := .pmcrd, vals := fun f s _ => pairWords (s.g.pmc.get 0 ((s.usrc32 f f.sa).toNat % 8)) }]

/-- The read is done. FSTK has waited for the words whose latency had not ended (R162). -/
def ReadWord.Completes (o : ReadWord) (f : FmtA) (s : State) : Prop :=
  ∃ t, exec (o.word f) s = .next t ∧ Moved s t (fmtLen f) ∧ Kept s t
    ∧ t.w.m = s.w.m ∧ t.w.sticky = s.w.sticky ∧ (t.w.late = s.w.late ∨ t.w.late = []) ∧ (∀ l, t.codes l = s.codes l)
    ∧ if f.md.getLsbD 0 = true then
        t.w.v = s.w.v ∧ match lowestLane (s.execSet f.cond) with
          | some l => WritesUniform s t f.dst.toNat (o.vals f s l)
          | none => t.w.u = s.w.u
      else t.w.u = s.w.u ∧ WritesLanes s t (s.execSet f.cond) f.dst.toNat (o.vals f s)

/-! ### Words that act once on one piece of state -/

/-- A word of format A with what it does where a lane executes. -/
structure OnceWord where
  word : FmtA → Instr
  act  : FmtA → State → State

/-- A uniform register written, and a quad of them. -/
def putU (s : State) (d : Nat) (x : Word) : State := onWarp s fun w => { w with u := w.u.set 0 d x }
def putQuad (s : State) (d : Nat) (a b c e : Word) : State := putU (putU (putU (putU s d a) (d + 1) b) (d + 2) c) (d + 3) e

/-- SA of a word, as a number and as a word of 64 bits. -/
def saNat (f : FmtA) (s : State) : Nat := (s.usrc32 f f.sa).toNat

/-- A handler register written: bits that R463 reserves stay 0. -/
def putHandler (h : Handler) (sel : Nat) (x : Word) (y : Word64) : Handler :=
  if sel = 0 then { h with amask := x } else if sel = 1 then { h with fmask := x }
  else if sel = 2 then { h with cause := x.extractLsb' 0 8 } else if sel = 3 then { h with info := x &&& ~~~0x2000 }
  else { h with epc := y.extractLsb' 0 56 }

/-- The context of the state, a bit of a word each. -/
def preemptWanted (s : State) : Bool := (s.ctx.map (·.preempt)).getD false
def debuggerHere (s : State) : Bool := (s.ctx.map (·.debugger)).getD false
def flagBit (b : Bool) (n : Nat) : Nat := if b then n else 0

/-- YIELD, SLEEP, PRIO.SET (R125 to R127), THWR, FSTKCLR (R491, R492), PMCCFG, PMCCLR (R494), ERRQ (R498), PRCHK (R499) and
MCRD (R500). -/
noncomputable def onceWords : List OnceWord := [
  { word := .yield, act := fun f s => onWarp s fun w =>
      { w with sched := { w.sched with hint := true, yielded := w.sched.yielded ||| s.execSet f.cond } } },
  { word := .sleep, act := fun f s => onWarp s fun w => { w with sleep := some (s.time + min (saNat f s) (2 ^ 24 - 1)) } },
  { word := .prioSet, act := fun f s => onWarp s fun w =>
      let p := min (saNat f s % 16) w.sched.ceil
      { w with sched := { w.sched with
          prio := p, exch := (s.pendingReady s.g.die s.g.core).any fun q => decide (p < q.sched.prio) } } },
  { word := .thwr, act := fun f s => onWarp s fun w =>
      { w with th := putHandler w.th (f.md.toNat / 2 % 8) (s.usrc32 f f.sa) (s.usrc64 f f.sa) } },
  { word := .fstkclr, act := fun f s => onWarp s fun w =>
      { w with sticky := (w.sticky &&& ~~~((s.usrc32 f f.sa).extractLsb' 0 5)) ||| lateUnion s, late := lateOpen s } },
  { word := .pmccfg, act := fun f s => { s with g := { s.g with
      pmcEv := s.g.pmcEv.set 0 (saNat f s % 8) ((s.usrc32 f f.sb).extractLsb' 0 8) } } },
  { word := .pmcclr, act := fun f s => { s with g := { s.g with pmc := s.g.pmc.set 0 (saNat f s % 8) 0 } } },
  { word := .errq, act := fun f s => s.record (s.recordHere
      { kind := 0x20, va := (s.usrc64 f f.sa).toNat, detail := (s.usrc32 f f.sb).toNat, epc := s.pc.toNat }) },
  { word := .prchk, act := fun f s => putU s f.dst.toNat (BitVec.ofNat 32
      (flagBit (preemptWanted s) 1 + flagBit (debuggerHere s) 2 + flagBit (!(s.die s.g.die).held.isEmpty) 4)) },
  { word := .mcrd, act := fun f s =>
      putQuad s f.dst.toNat s.w.mc.location s.w.mc.lanes (s.w.mc.addr.extractLsb' 0 32) (s.w.mc.addr.extractLsb' 32 32) }]

/-- Messages to the debug port (R495): 256 are kept, the others counted. -/
def takeMessages (k : Hub) (ms : List DbgMsg) : Hub :=
  { k with dbg := k.dbg ++ ms.take (256 - k.dbg.length), dbgDropped := k.dbgDropped + (ms.length - (256 - k.dbg.length)) }

/-- The messages of DBGMSG, lowest lane first. -/
def messages (f : FmtA) (s : State) : List DbgMsg :=
  (lanesOf (s.execSet f.cond)).map fun l => { lane := l, value := s.src32 f f.sa l, tag := (s.usrc32 f f.sb).toNat % 2 ^ 16 }

/-- A call in the mailbox (R497). -/
def callOf (f : FmtA) (s : State) (wait : Option Nat) : Call :=
  { id := s.nextId, data := s.usrc64 f f.sa, code := (s.usrc32 f f.sb).toNat % 2 ^ 16, wait := wait }
def posted (s : State) (c : Call) : State :=
  { s with ctx := s.ctx.map fun k => { k with mailbox := k.mailbox ++ [c] }, nextId := s.nextId + 1 }

/-- HCALLW waits with its destination pair held (R497). -/
def hcallwOp (f : FmtA) (s : State) : Op := { s.mkOp 0x1AE f Upper.blank [2, 1, 0] (s.execSet f.cond) with flag := none }
def hcallwState (f : FmtA) (s : State) : State :=
  onWarp (posted s (callOf f s (some s.nextId))) fun w => { w with
    waits := w.waits ++ [hcallwOp f s]
    outs := w.outs ++ [{ id := s.nextId, flag := none, cls := none, done := false, vdst := [],
                         wdst := [f.dst.toNat, f.dst.toNat + 1] }] }

/-! ### Traps -/

/-- A trap with its resume point after the word, and one that resumes at the word (R462). -/
def trapNext (s : State) (thv : Word64) (cause : BitVec 8) (arg len : Nat) (fmask : LaneMask) : State :=
  inHandler s thv cause (infoWord arg 0) fmask (resumed s (nextWord s.pc len) (placeAfter s))
def trapAt (s : State) (r : Run) (thv : Word64) (cause : BitVec 8) (reason : Nat) (fmask : LaneMask) : State :=
  inHandler s thv cause (infoWord 0 reason) fmask (resumed s r.pc (some { hdr := r.hdr, left := r.left }))

/-- The executing lanes whose SA reads zero (R493). -/
def zeroLanes (f : FmtA) (s : State) : LaneMask :=
  laneSet fun l => inSet (s.execSet f.cond) l && s.src32 f f.sa l == 0

/-- The lanes to which RETH returns (R490): with a target, those of th.amask that are ready go to it. -/
def returnLanes (f : FmtA) (s : State) (h : Shadow) : List LaneEnt :=
  if f.md.getLsbD 0 then
    h.lanes.mapIdx fun l e => if inSet s.w.th.amask l = true ∧ e.st = .ready then
      { e with pc := s.usrc64 f f.sa, mid := none, via := some s.pc } else e
  else h.lanes
def returned (f : FmtA) (s : State) (h : Shadow) : State :=
  onWarp s fun w => { w with
    lanes := returnLanes f s h, rcb := h.rcb, sync := h.sync, run := none, shadow := none, inHandler := false
    halted := w.halted || w.single }

/-- The handler holds no parked entry, no entry has failed, and the shadow holds no lane (R490). -/
def CleanReturn (s : State) (h : Shadow) : Prop :=
  (∀ o ∈ s.allOps, o.warp = s.w.id → o.inH = true → o.park = 0) ∧ s.w.failedOp = none ∧ h.sync.hold = 0

/-! ### Exit and reconvergence barriers (R95, R96, R120 to R124) -/

/-- Nothing outside the warp waits for its lanes: no hold, no phase begun, no group. -/
def Alone (s : State) : Prop :=
  s.w.sync.hold = 0 ∧ s.g.groups = [] ∧ ∀ k < 16, (s.g.bars.get {} k).set = false

/-- Barrier b has all that it expects (R96). -/
def Full (w : Warp) (q : Rcb) : Prop := q.exp &&& ~~~q.arr &&& w.liveLanes = 0 ∧ ¬(q.exp = 0 ∧ q.arr = 0)

/-- Where EXIT leaves a lane (R120). -/
def ExitLane (s : State) (r : Run) (e : LaneMask) (next : Word64) (l : Nat) (x y : LaneEnt) : Prop :=
  if inSet e l = true then y.st = .exited
  else if inSet r.mask l = true ∧ x.st = .ready then y.st = .ready ∧ y.pc = next ∧ y.mid = none
  else y.pc = x.pc ∧ y.mid = x.mid ∧ (y.st = x.st ∨ (x.st = .waiting ∧ y.st = .ready ∧ ∃ b < 8, inSet (s.w.rcb.get {} b).arr l = true))

/-- EXIT: its lanes exit and leave every barrier, which may free those that wait; the warp ends with its last lane. -/
def LanesEnd (f : FmtA) (s t : State) (r : Run) : Prop :=
  let e := s.execSet f.cond
  (∀ l x, s.w.lanes[l]? = some x → ∃ y, t.w.lanes[l]? = some y ∧ ExitLane s r e (nextWord r.pc (fmtLen f)) l x y)
    ∧ (∀ b < 8, let q := t.w.rcb.get {} b
        q.arr &&& e = 0 ∧ q.exp &&& e = 0 ∧ ¬ Full t.w q)
    ∧ t.w.run = none ∧ t.w.v = s.w.v ∧ t.w.m = s.w.m
    ∧ t.w.ended = (s.w.ended || decide (t.w.liveLanes = 0))

/-- The hold that its lanes leave, if it stands at a workgroup barrier, agrees with the phase there (R265). -/
def PhaseAgrees (s : State) : Prop :=
  s.w.sync.kind = .barWg → (s.g.bars.get {} s.w.sync.bnum).set = true → (s.g.bars.get {} s.w.sync.bnum).exp = s.w.sync.exp

/-- And where nothing outside the warp waits for its lanes, nothing outside the warp changes but the count of live warps. -/
def ExitAlone (s t : State) : Prop :=
    t.g = { s.g with live := if s.w.ended = false ∧ t.w.ended = true then s.g.live - 1 else s.g.live }
    ∧ SameRegisters s t ∧ { t with w := s.w, g := s.g } = s

/-- RCB.WAIT on barrier b: the executing lanes that it expects have arrived, and wait until the others have (R123). -/
def WaitDone (f : FmtA) (s t : State) (r : Run) : Prop :=
  let b := f.dst.toNat
  let old := s.w.rcb.get {} b
  let wait := s.execSet f.cond &&& old.exp
  let q : Rcb := { arr := old.arr ||| wait, exp := old.exp }
  let next := nextWord r.pc (fmtLen f)
  (∀ l x, s.w.lanes[l]? = some x → ∃ y, t.w.lanes[l]? = some y
      ∧ y.pc = (if inSet r.mask l = true ∧ x.st = .ready then next else x.pc)
      ∧ (Full t.w q → y.st = if inSet q.arr l = true ∧ (inSet wait l = true ∨ x.st = .waiting) then .ready else x.st)
      ∧ (¬ Full t.w q → y.st = if inSet wait l = true then .waiting else x.st))
    ∧ (Full t.w q → t.w.rcb.get {} b = {}) ∧ (¬ Full t.w q → t.w.rcb.get {} b = q)
    ∧ (∀ c, c ≠ b → t.w.rcb.get {} c = s.w.rcb.get {} c)
    ∧ t.w.run = none ∧ SameRegisters s t
    ∧ onWarp t (fun w => { w with lanes := s.w.lanes, rcb := s.w.rcb, run := s.w.run, halted := s.w.halted }) = s

/-- A request packet to the hub (0xC) or a die, and the answer of 16 bytes (R504; log entry 18). -/
def asked (s : State) (own : Nat) : State := s.ask own vcRequest 0 16

/-- A 128-bit word of the die class that writes a uniform pair or quad (R516, R517, R519). -/
structure DieWord where
  word : FmtA → Upper → Instr
  act  : FmtA → State → State

/-- A number's low and high words. -/
def loWord (n : Nat) : Word := BitVec.ofNat 32 n
def hiWordOf (n : Nat) : Word := BitVec.ofNat 32 (n / 2 ^ 32)

/-- The state of the link of die v to a far end (R519): its state code, modules and hops, then its counters. -/
def linkQuad (s : State) (v far : Nat) (l : Link) : Word × Word × Word × Word :=
  let hold := (s.die v).relock.isSome || (decide (far < 4) && (s.dieAt far).relock.isSome)
  let st := if l.down then 4 else if l.training then 2 else if hold then 3 else 1
  (loWord (st * 2 ^ 28 + l.modules * 2 ^ 24 + (if far = 4 then 1 else 2) * 2 ^ 16), loWord l.retrains, loWord l.sent,
    loWord l.received)

noncomputable def dieWords : List DieWord := [
  { word := .dcnt, act := fun f s =>
      let c : Word64 := (s.die s.g.die).dcnt.get 0 (saNat f s % 8)
      putU (putU s f.dst.toNat (c.extractLsb' 0 32)) (f.dst.toNat + 1) (c.extractLsb' 32 32) },
  { word := .dfreq, act := fun f s =>
      let d := s.die (saNat f s)
      asked (if saNat f s < s.ndie then
        putQuad s f.dst.toNat (loWord (d.step % 8 + 8 * (d.prev % 8) + flagBit d.relock.isSome 64)) (loWord d.steps)
          (loWord d.stepAt) (hiWordOf d.stepAt)
      else putQuad s f.dst.toNat 0xFFFFFFFF 0xFFFFFFFF 0xFFFFFFFF 0xFFFFFFFF) 0xC },
  { word := .dlink, act := fun f s =>
      let far := if saNat f s = 15 then 4 else if saNat f s < s.ndie then s.phys (saNat f s) else 5
      match (s.die s.g.die).links.find? fun l => l.far == far with
      | some l =>
        let q := linkQuad s s.g.die far l
        putQuad s f.dst.toNat q.1 q.2.1 q.2.2.1 q.2.2.2
      | none => putQuad s f.dst.toNat 0 0 0 0 }]

end Sys2Proof.Slice0
end

