-- ==== Sys2Proof/Certificates/Slice0/MemoryTable.lean ====
section
/-! DEFINITION. The memory and atomic classes in the terms of R218 to R237, R271 to R273 and R455 to R457, for the statements:
what each word accesses, how it issues, and what its performance reads and writes. -/

namespace Sys2Proof.Slice0

open Sys2Proof.Machine

/-! ### The words -/

/-- A word that accesses memory: its opcode, the bytes that each lane moves, the registers that SB and SC supply, and those
that it writes in each lane, or once as uniform registers. -/
structure AccessWord where
  word  : FmtA → Upper → Instr
  code  : Nat
  bytes : FmtA → Nat
  sb    : Nat := 0
  sc    : FmtA → Nat := fun _ => 0
  lane  : FmtA → Nat := fun _ => 0
  uni   : Nat := 0

/-- 1, 2 or 4 registers of the unbound forms (R226). -/
def ubRegs (f : FmtA) : Nat := 2 ^ (f.md.toNat / 64)

/-- Loads, stores, gathers, scatters and tiles (R223 to R233). -/
noncomputable def plainWords : List AccessWord := [
  { word := .ld8, code := 0xE0, bytes := fun _ => 1, lane := fun _ => 1 },
  { word := .ld16, code := 0xE1, bytes := fun _ => 2, lane := fun _ => 1 },
  { word := .ld32, code := 0xE2, bytes := fun _ => 4, lane := fun _ => 1 },
  { word := .ld64, code := 0xE3, bytes := fun _ => 8, lane := fun _ => 2 },
  { word := .ld128, code := 0xE4, bytes := fun _ => 16, lane := fun _ => 4 },
  { word := .ldUb, code := 0xE5, bytes := fun f => 4 * ubRegs f, lane := ubRegs },
  { word := .st8, code := 0xE6, bytes := fun _ => 1, sc := fun _ => 1 },
  { word := .st16, code := 0xE7, bytes := fun _ => 2, sc := fun _ => 1 },
  { word := .st32, code := 0xE8, bytes := fun _ => 4, sc := fun _ => 1 },
  { word := .st64, code := 0xE9, bytes := fun _ => 8, sc := fun _ => 2 },
  { word := .st128, code := 0xEA, bytes := fun _ => 16, sc := fun _ => 4 },
  { word := .stUb, code := 0xEB, bytes := fun f => 4 * ubRegs f, sc := ubRegs },
  { word := .gath32, code := 0xEC, bytes := fun _ => 4, sb := 1, lane := fun _ => 1 },
  { word := .gath64, code := 0xED, bytes := fun _ => 8, sb := 1, lane := fun _ => 2 },
  { word := .scat32, code := 0xEE, bytes := fun _ => 4, sb := 1, sc := fun _ => 1 },
  { word := .scat64, code := 0xEF, bytes := fun _ => 8, sb := 1, sc := fun _ => 2 },
  { word := .ldw32, code := 0xF0, bytes := fun _ => 4, uni := 1 },
  { word := .ldw64, code := 0xF1, bytes := fun _ => 8, uni := 2 },
  { word := .ldw128, code := 0xFE, bytes := fun _ => 16, uni := 4 },
  { word := .ldBc, code := 0x100, bytes := fun f => 4 * ubRegs f, lane := ubRegs },
  { word := .ldt, code := 0xF2, bytes := fun _ => 16, sb := 1, lane := fun _ => 4 },
  { word := .stt, code := 0xF3, bytes := fun _ => 16, sb := 1, sc := fun _ => 4 },
  { word := .ldtTr, code := 0xFB, bytes := fun _ => 16, sb := 1, lane := fun _ => 4 },
  { word := .stMsk, code := 0xFF, bytes := fun _ => 16, sb := 1, sc := fun _ => 4 },
  { word := .stzLine, code := 0xFA, bytes := fun _ => 128 },
  { word := .stzSec, code := 0x101, bytes := fun _ => 32 }]

/-- Atomics and reductions (R271 to R273): of 32, 64 and 128 bits. -/
noncomputable def atomWords : List AccessWord :=
  let w32 (i : FmtA → Upper → Instr) (c : Nat) : AccessWord :=
    { word := i, code := c, bytes := fun _ => 4, sb := 1, lane := fun _ => 1 }
  let w64 (i : FmtA → Upper → Instr) (c : Nat) : AccessWord :=
    { word := i, code := c, bytes := fun _ => 8, sb := 2, lane := fun _ => 2 }
  [w32 .atomAdd 0x110, w32 .atomMin 0x111, w32 .atomMax 0x112, w32 .atomAnd 0x113, w32 .atomOr 0x114, w32 .atomXor 0x115,
   w32 .atomXchg 0x116, { w32 .atomCas 0x117 with sc := fun _ => 1 },
   w64 .atomAdd64 0x118, w64 .atomMin64 0x119, w64 .atomMax64 0x11A, w64 .atomAnd64 0x11B, w64 .atomOr64 0x11C,
   w64 .atomXor64 0x11D, w64 .atomXchg64 0x11E, { w64 .atomCas64 0x11F with sc := fun _ => 2 },
   w32 .atomFaddF32 0x120, w32 .atomFminF32 0x121, w32 .atomFmaxF32 0x122, w32 .atomInc 0x123, w32 .atomDec 0x124,
   { word := .atomCas128, code := 0x125, bytes := fun _ => 16, sb := 4, sc := fun _ => 4, lane := fun _ => 4 },
   { word := .redAdd, code := 0x126, bytes := fun _ => 4, sb := 1 },
   { word := .redFaddF32, code := 0x127, bytes := fun _ => 4, sb := 1 },
   { word := .redAdd64, code := 0x133, bytes := fun _ => 8, sb := 2 }]

/-- A word of the two classes. -/
noncomputable def accessWords : List AccessWord := plainWords ++ atomWords

/-- Words that make no checks: prefetches, cache control and TLBQ (R234 to R237), with the registers that SB supplies and those
written in each lane. -/
noncomputable def quietWords : List ((FmtA → Upper → Instr) × Nat × Nat × Nat) := [
  (.pref, 0xF4, 0, 0), (.prefL2, 0xF5, 0, 0), (.prefRange, 0xFD, 1, 0), (.cctlInv, 0xF6, 0, 0), (.cctlWb, 0xF7, 0, 0),
  (.cctlWbinv, 0xF8, 0, 0), (.tlbq, 0xFC, 0, 1)]

/-! ### Issue -/

/-- Registers from a number on. -/
def regsFrom (r : BitVec 8) (n : Nat) : List Nat := (List.range n).map fun i => r.toNat + i

/-- A base takes two registers in the global space, and one elsewhere (R54). -/
def baseWidth (x : Upper) : Nat := if x.space = 0 then 2 else 1

/-- A word that stores or works atomically. -/
def AccessWord.writes (a : AccessWord) : Bool := storeCode a.code || atomCode a.code || redCode a.code

/-- The access of a word as the operand log holds it (R456), under log entry k. -/
def AccessWord.plain (a : AccessWord) (f : FmtA) (x : Upper) (s : State) : Op :=
  s.mkOp a.code f x [baseWidth x, a.sb, a.sc f] (s.execSet f.cond)
def AccessWord.op (a : AccessWord) (f : FmtA) (x : Upper) (s : State) (k : Nat) : Op :=
  { a.plain f x s with
    logi := some k, aux := [s.tagOf x]
    cls := if a.writes && s.goesRemote (a.plain f x s) then some .rem else none }

/-- A part of an access lies in the space, and is aligned (R218, R219). -/
def PartOk (s : State) (o : Op) (p : Nat × Nat) : Prop :=
  p.1 % o.align = 0 ∧
    if o.x.space = 0 then (s.owner p.1).isSome = true ∧ (s.owner (p.1 + p.2 - 1)).isSome = true
    else p.1 + p.2 ≤ s.g.size

/-- A translation is at hand that permits the access (R204, R205). -/
def Cached (s : State) (o : Op) (p : Nat × Nat) : Prop :=
  o.x.space ≠ 0 ∨
    ∃ e, s.heldAt p.1 o.kind = false ∧ s.tlbHit s.g.die s.g.core p.1 = some e ∧ e.serves o.kind = true ∧ e.late = false
      ∧ o.kind.permitted e.leaf = true

/-- No translation is at hand. -/
def Uncached (s : State) (o : Op) (p : Nat × Nat) : Prop := o.x.space = 0 ∧ s.tlbHit s.g.die s.g.core p.1 = none

/-- What holds of every part of every access of a word. -/
def EachPart (o : Op) (q : Nat × Nat → Prop) : Prop := ∀ l ∈ o.askers, ∀ p ∈ o.parts l, q p

/-- An address that the die owns is in the core's own TLB, so that the access fills nothing there (R204). -/
def InFirst (s : State) (p : Nat × Nat) : Prop :=
  s.owner p.1 = some s.g.die → (tlbFind (s.core s.g.die s.g.core).tlb s.ctxNum p.1 none).isSome = true

/-- Every translation is at hand, and no fill of the core's own TLB drives one of them out (R204): each is there already, or
one entry covers every part. -/
def AtHand (s : State) (o : Op) : Prop :=
  EachPart o (Cached s o)
    ∧ (o.x.space ≠ 0 ∨ EachPart o (InFirst s) ∨ ∃ e, EachPart o fun p => s.tlbHit s.g.die s.g.core p.1 = some e)

/-- CARVE takes no scratch away at present (R217). -/
def NoCarve (s : State) : Prop := ∀ w ∈ s.warps, w.carving = false

/-- An entry of the warp's list of outstanding operations (R34, R43, R45). -/
def outOf (s : State) (o : Op) (vdst wdst : List Nat) : Out :=
  { id := o.id, flag := o.flag, cls := o.cls, done := false, vdst := vdst, wdst := wdst,
    num := match o.cls with
      | some c => s.w.clsN.get 0 c.code + 1
      | none => 0 }

/-- An access issues: it stands last in the warp's order as `o1` says, its flag is set and its destinations are held; no
register and no byte of memory changes. -/
def IssuesAs (s t : State) (o1 : Op) (vdst wdst : List Nat) : Prop :=
  t.w.pend = s.w.pend ++ [o1] ∧ t.w.outs = s.w.outs ++ [outOf s o1 vdst wdst] ∧ Moved s t 16 ∧ SameRegisters s t ∧ SameBytes s t
    ∧ t.nextId = s.nextId + 1

/-- Every translation that an access needs is at hand: it may be performed. Its log entry is free again, unless the chunks of its
page are still to be checked (R456, R485). -/
def AccessWord.IssuesReady (a : AccessWord) (f : FmtA) (x : Upper) (s : State) (k : Nat) : Prop :=
  let lack := (a.op f x s k).mayLack
  ∃ t xl, exec (a.word f x) s = .next t
    ∧ IssuesAs s t { a.op f x s k with st := .running, pcm := s.execSet f.cond, xl := xl, logi := if lack then some k else none }
        (regsFrom f.dst (a.lane f)) (regsFrom f.dst a.uni)
    ∧ (lack = true → t.c.log = s.c.log ++ [(k, s.nextId)])
    ∧ (lack = false → (∀ p ∈ s.w.pend ++ s.w.parked, p.logi ≠ some k) → t.c.log = s.c.log)
    ∧ (x.space = 0 → EachPart (a.op f x s k) fun p => ∃ y ∈ xl, y.covers p.1 = true ∧ y.status = 0)

/-- A translation is still to come: the access holds its log entry and waits. -/
def AccessWord.IssuesWaiting (a : AccessWord) (f : FmtA) (x : Upper) (s : State) (k : Nat) : Prop :=
  ∃ t, exec (a.word f x) s = .next t
    ∧ IssuesAs s t (a.op f x s k) (regsFrom f.dst (a.lane f)) (regsFrom f.dst a.uni)
    ∧ t.c.log = s.c.log ++ [(k, s.nextId)]

/-! ### Lane faults -/

/-- Lane l of a scratch access lies outside the allocation or is misaligned (R218). -/
def scratchBad (s : State) (o : Op) (l : Nat) : Bool :=
  (o.parts l).any fun p => decide (s.g.size < p.1 + p.2) || decide (p.1 % o.align ≠ 0)

/-- Its kind: 2 outside the allocation, which is checked first, 3 misaligned. -/
def scratchKind (s : State) (o : Op) (l : Nat) : Nat :=
  if (o.parts l).any fun p => decide (s.g.size < p.1 + p.2) then 2 else 3

/-- The lanes that fault park at the word; the lowest of them has a record that awaits settlement (R455, R459, R461). -/
def AccessWord.Parks (a : AccessWord) (f : FmtA) (x : Upper) (s : State) (k : Nat) : Prop :=
  ∃ t, exec (a.word f x) s = .next t
    ∧ (∀ l ∈ lanesOf (s.execSet f.cond), scratchBad s (a.op f x s k) l = true → (s.lane l).st = .ready → l < s.w.lanes.length →
        (t.lane l).st = .parked ∧ (t.lane l).pc = s.pc)
    ∧ (∀ l, (lanesOf (s.execSet f.cond)).find? (scratchBad s (a.op f x s k)) = some l → s.ctx.isSome = true →
        ∃ c u, t.ctx = some c ∧ u ∈ c.unsettled ∧ u.kind = scratchKind s (a.op f x s k) l ∧ u.va = (a.op f x s k).addr l)
    ∧ (let on := laneSet fun l => inSet (s.execSet f.cond) l && !(scratchBad s (a.op f x s k) l)
       on ≠ 0 → ∃ p ∈ t.w.pend, p.id = s.nextId ∧ p.e = on ∧ p.st = .running)
    ∧ SameRegisters s t

/-! ### Performance -/

/-- An access of the warp may be performed now, and no word that only orders waits for it. -/
def Performs (s0 : State) (o : Op) : Prop :=
  o ∈ s0.w.pend ∧ s0.opReady o = true ∧ (∀ p ∈ s0.w.pend, orderOnly p.code = false) ∧ s0.w.sync.hold = 0 ∧ s0.bad = []

/-- Of a reduction or an atomic, the hub has no word to read beforehand, or has read it (R262). -/
def HubDone (s0 : State) (o : Op) : Prop := (s0.releaseIf o.x.ord.toNat o.x.scope.toNat).hubReads o = false

/-- The access is complete: it has left the warp's order, and nothing is held for it. -/
def Finished (s0 t : State) (o : Op) : Prop :=
  t.w.pend = s0.w.pend.filter (fun p => p.id != o.id) ∧ (∀ y ∈ t.w.outs, y.id = o.id → y.done = true ∧ y.vdst = [] ∧ y.wdst = [])
    ∧ t.w.run = s0.w.run ∧ t.w.lanes = s0.w.lanes ∧ t.w.m = s0.w.m ∧ SameFlags s0 t ∧ ∀ l, t.codes l = s0.codes l

/-- The words that a lane's load returns: of the lowest lane where one access serves all (R228, R229). -/
def loaded (s1 : State) (o : Op) (l : Nat) : List Word :=
  o.loadWords (s1.laneBytes o (if onceCode o.code then (lowestLane o.e).getD 0 else l))

/-- A load that fills uniform registers (R228). -/
def uniformLoad (o : Op) : Bool := [0xF0, 0xF1, 0xFE].contains o.code

/-- The number of registers of a load's destination. -/
def loadRegs (o : Op) : Nat := if o.code = 0xFB then 4 else if o.width ≤ 4 then 1 else o.width / 4

/-- The list cut, or filled with zeros, to n words. -/
def exactly (n : Nat) (ws : List Word) : List Word := (List.range n).map fun i => (ws[i]?).getD 0

/-- The old value in each lane of an atomic on scratch, and the scratch that it leaves: the lanes in ascending order (R271). -/
def atomRun (o : Op) : List Nat → Sparse Byte → List (Nat × Nat) × Sparse Byte
  | [], m => ([], m)
  | l :: ls, m =>
    let at_ (i : Nat) : Nat := (o.addr l + i) % 2 ^ 32
    let old := leNat ((List.range o.width).map fun i => m.get 0 (at_ i))
    let lim := 2 ^ (8 * o.width)
    let m1 := match atomNew o.code o.f old ((o.val128 1 l).toNat % lim) ((o.val128 2 l).toNat % lim) with
      | some x => (List.range o.width).foldl (fun m i => m.set 0 (at_ i) (BitVec.ofNat 8 (x / 2 ^ (8 * i)))) m
      | none => m
    let r := atomRun o ls m1
    ((l, old) :: r.1, r.2)

/-- The bytes that a store, or a zeroing store, writes in scratch, in order: lanes ascending (R224, R230, R232, R233). -/
def storeList (o : Op) : List (Nat × Byte) :=
  (lanesOf o.e).flatMap fun l =>
    let bs : List Byte := if stzCode o.code then List.replicate o.width 0 else leBytes o.width (o.val128 2 l).toNat
    ((bs.zipIdx.filter fun p => o.code != 0xFF || (o.val32 1 l).toNat.testBit p.2)).map fun p => ((o.addr l + p.2) % 2 ^ 32, p.1)

/-- The byte that a list of writes leaves at an address: the latest one there, or what it held. -/
def lastWrite (ws : List (Nat × Byte)) (a : Nat) (old : Byte) : Byte :=
  ((ws.reverse.find? fun p => p.1 == a).map (·.2)).getD old

/-- Words of 32 bits of an old value, low one first. -/
def oldWords (o : Op) (x : Nat) : List Word := (List.range (o.width / 4)).map fun k => BitVec.ofNat 32 (x / 2 ^ (32 * k))

/-- The state before an access with its release steps made (R247). -/
def released (s0 : State) (o : Op) : State := s0.releaseIf o.x.ord.toNat o.x.scope.toNat

/-- What a store of one byte at an address of a word's does (R224, R243, R254). -/
def storeOne (o : Op) (m : State) (q : Nat × Byte) : State :=
  m.storeByte (m.pointFor o (o.loc q.1).own) m.g.die m.g.core (o.loc q.1) q.2 o.evp (decide ((o.aux[0]?).getD 0 = (o.loc q.1).own + 1))

/-- The bytes that a store writes in global memory, in order: lanes ascending (R224, R230, R232). -/
def globalBytes (o : Op) : List (Nat × Byte) :=
  (lanesOf o.e).flatMap fun l =>
    (((leBytes o.width (o.val128 2 l).toNat).zipIdx.filter fun p => o.code != 0xFF || (o.val32 1 l).toNat.testBit p.2)).map
      fun p => (o.addr l + p.2, p.1)

/-- The machine after the first n of the bytes of a store. -/
def stored (o : Op) (u : State) (n : Nat) : State := ((globalBytes o).take n).foldl (storeOne o) u

/-- One lane of an atomic or a reduction: the old value is read where the access is performed, and what R272 gives replaces it;
where nothing is written, the caches hold what a load leaves (R271, R245). -/
def atomStep (o : Op) (m : State) (l : Nat) : State :=
  let lim := 2 ^ (8 * o.width)
  match atomNew o.code o.f (leNat ((List.range o.width).map fun i => m.readAt o (o.addr l + i)))
      ((o.val128 1 l).toNat % lim) ((o.val128 2 l).toNat % lim) with
  | some x => (leBytes o.width x).zipIdx.foldl (fun m p => storeOne o m (o.addr l + p.2, p.1)) m
  | none => m.fillRange o (o.addr l) o.width

/-- The machine before lane l's turn, and the old value that the lane finds. -/
def atomsBelow (o : Op) (u : State) (l : Nat) : State := ((lanesOf o.e).filter (· < l)).foldl (atomStep o) u
def oldAt (o : Op) (u : State) (l : Nat) : Nat := leNat ((List.range o.width).map fun i => (atomsBelow o u l).readAt o (o.addr l + i))

/-- Every memory and every cache holds the same. -/
def SameMemories (s t : State) : Prop :=
  t.dies.map (fun d => (d.mem, d.held, d.l2, d.guest)) = s.dies.map (fun d => (d.mem, d.held, d.l2, d.guest))
    ∧ (∀ v n, (t.core v n).l1 = (s.core v n).l1) ∧ t.host = s.host ∧ t.peer = s.peer ∧ t.g.scratch = s.g.scratch

/-- A byte can be stored without a line's leaving a cache for it (R208, R209, R211). -/
def Room (s : State) (a : Loc) : Prop :=
  evictee (s.core s.g.die (s.l1Core s.g.die s.g.core a.va)).l1 (s.core s.g.die (s.l1Core s.g.die s.g.core a.va)).ways l1SetOf
      (a.va / 128) = none
    ∧ evictee ((s.die s.g.die).guest.filter (·.slice == sliceOf a.va)) (s.guestWays s.g.die) l2SetOf (a.va / 128) = none
    ∧ evictee ((s.die a.own).l2.filter (·.slice == sliceOf a.va)) (s.homeWays a.own) l2SetOf (a.pa / 128) = none

/-- The memory behind an owner: a die's by position, the host's or the peers'. -/
def memoryOf (s : State) (own : Nat) : Nat := if own < 4 then s.phys own else if own = 0xC then 4 else 5

/-- Two places are not one, neither by their address nor by where they lie. -/
def Apart (s : State) (a b : Loc) : Prop := a.va ≠ b.va ∧ ¬(memoryOf s a.own = memoryOf s b.own ∧ a.pa = b.pa)

/-- What L1 and the guest partition hold of a line stands in one entry, with the bytes that are dirty (R208, R211). -/
def OneLine (s : State) (va : Nat) : Prop :=
  (s.core s.g.die (s.l1Core s.g.die s.g.core va)).l1.countP (lineIs s.ctxNum 0 (va / 128)) ≤ 1
    ∧ (s.die s.g.die).guest.countP (lineIs s.ctxNum (sliceOf va) (va / 128)) ≤ 1
    ∧ ∀ l, s.l1Line s.g.die s.g.core va = some l ∨ s.guestLine s.g.die va = some l → l.dirty &&& ~~~l.valid = 0

/-- A line holds the bytes that it has dirty (R208). -/
def HoldsDirty (l : Option Line) (i : Nat) : Prop := ∀ x, l = some x → x.isDirty i = true → x.hasByte i = true

/-- No register of the warp differs. -/
def SameVU (s0 t : State) : Prop := t.w.v = s0.w.v ∧ t.w.u = s0.w.u

/-- A promotion makes the release steps of scope 5 for the context that released (R252, R253): in the releasing core's L1 and in its
die's guest partition nothing of the context stays dirty. No warp's own stores are performed for it, and writes that a memory
channel holds stay held. -/
def PromotionWritesBack : Prop :=
  ∀ (s : State) (r : Release), r.ctx = s.ctxNum →
    let t := s.promote r
    let v := r.core / 160
    (∀ n ∈ s.l1Cores v (r.core % 160), ∀ l ∈ (t.core v n).l1, l.ctx = s.ctxNum → l.dirty = 0)
    ∧ (∀ l ∈ (t.die v).guest, l.ctx = s.ctxNum → l.dirty = 0)
    ∧ t.w = s.w ∧ t.ws = s.ws ∧ t.g = s.g ∧ t.gs = s.gs
    ∧ ∀ p h, h ∈ (s.dieAt p).held → ∃ q ∈ (t.dieAt p).held, q.addr = h.addr ∧ q.chunks = h.chunks ∧ q.since = h.since

/-- In global memory a store, a reduction or an atomic changes its bytes one by one in lane order, as stores of single bytes
at their points (R224, R232, R233, R271 to R273); the release steps go before and the note of a release after (R247, R251). -/
def GlobalBytesInOrder (s s0 : State) (o : Op) : Prop :=
  s.focusOp o.id = some (o, s0) → Performs s0 o → (s0.chunksShort o).1 = 0 → o.x.space = 0 → HubDone s0 o → o.kept = [] →
    let u := released s0 o
    let n := (globalBytes o).length
    (storeCode o.code = true → s0.tagHeld o = false →
      (stzCode o.code = false → ∃ t, exec (.storeReachesPoint o.id) s = .next t ∧ SameMemories ((stored o u n).noteRelease o) t)
      ∧ (stzCode o.code = true → ∃ t, exec (.storeReachesPoint o.id) s = .next t
          ∧ SameMemories (((lanesOf o.e).foldl (fun m l => m.stzAt o (o.addr l) o.width) u).noteRelease o) t))
    ∧ (redCode o.code = true → s0.tagHeld o = false → ∃ t, exec (.storeReachesPoint o.id) s = .next t
        ∧ SameMemories (((lanesOf o.e).foldl (atomStep o) u).noteRelease o) t)
    ∧ (atomCode o.code = true → ∃ t, exec (.loadDataArrival o.id) s = .next t
        ∧ SameMemories ((((lanesOf o.e).foldl (atomStep o) u).noteRelease o).acquireAfter o) t)

/-- A store of one byte, for which no line has to leave a cache, changes what is read at no other place, whichever core reads and at
whichever point; and neither do the bytes of a store together (R224, R243). -/
def OtherBytesStand : Prop :=
  (∀ (s : State) p a b evp owner, Room s a → ∀ q die core c, Apart s a c →
    (s.storeByte p s.g.die s.g.core a b evp owner).loadByte q die core c = s.loadByte q die core c)
  ∧ (∀ (s : State) (o : Op) n, (∀ k x, k < n → (globalBytes o)[k]? = some x → Room (stored o s k) (o.loc x.1)) →
      ∀ q die core c, (∀ x ∈ (globalBytes o).take n, Apart s (o.loc x.1) c) →
      (stored o s n).loadByte q die core c = s.loadByte q die core c)
  ∧ ∀ (s : State) (o : Op) a n, (∀ i < n, (o.loc (a + i)).own < 4 → ∃ l, s.homeLine (o.loc (a + i)) = some l) →
      a % 128 + n ≤ 128 → OneLine s a → ∀ q die core c, (∀ i < n, Apart s (o.loc (a + i)) c) →
      (s.stzAt o a n).loadByte q die core c = s.loadByte q die core c

end Sys2Proof.Slice0
end

