-- ==== Sys2Proof/Certificates/Slice0/EngineTable.lean ====
section
/-! DEFINITION. The words of the engines (R288, R310, R346, R376, R391, R408), of channels (R293 to R297), of the hub (R443 to
R453) and of synchronisation (R264 to R279) as they issue, for the statements. -/

namespace Sys2Proof.Slice0

open Sys2Proof.Machine

/-! ### Engine words -/

/-- A word of an engine's class: its opcode, the registers that SA, SB and SC supply, the lane registers, or the uniform ones,
that it writes, whether it takes an operand-log entry, and whether it writes global memory as an engine (R257). -/
structure EngineWord where
  word : FmtA → Upper → Instr
  code : Nat
  cls  : Cls
  wid  : Upper → List Nat
  lane : Upper → Nat := fun _ => 0
  uni  : Nat := 0
  log  : Upper → Bool := fun _ => true
  glob : Upper → Bool := fun _ => false

def noLog (_ : Upper) : Bool := false
/-- Four registers with a form of MODE, else one (R365, R366). -/
def oneOrFour (p : Nat → Bool) (x : Upper) : Nat := if p (x.ext.toNat % 8) then 4 else 1

/-- The copy engine (R298 to R300). -/
noncomputable def copyWords : List EngineWord := [
  { word := .copyG2s, code := 0x146, cls := .copy, wid := fun _ => [2, 1, 1] },
  { word := .copyS2g, code := 0x147, cls := .copy, wid := fun _ => [2, 1, 1], glob := fun _ => true },
  { word := .copyG2g, code := 0x148, cls := .copy, wid := fun _ => [2, 2, 1], glob := fun _ => true },
  { word := .copyTile, code := 0x149, cls := .copy, wid := fun _ => [2, 1, 2] },
  { word := .bxform, code := 0x14A, cls := .copy, wid := fun _ => [1, 0, 1] },
  { word := .copyFill, code := 0x14B, cls := .copy, wid := fun x => [baseWidth x, 1, 1]
    glob := fun x => decide (x.space = 0) }]

/-- The matrix engine (R318 to R328). -/
noncomputable def mtxWords : List EngineWord := [
  { word := .wld, code := 0x150, cls := .mtx, wid := fun _ => [2, 1, 0] },
  { word := .wswap, code := 0x151, cls := .mtx, wid := fun _ => [], log := noLog },
  { word := .mpass, code := 0x152, cls := .mtx, wid := fun _ => [8, 1, 0], log := noLog },
  { word := .mpassb, code := 0x153, cls := .mtx, wid := fun _ => [8, 1, 0], log := noLog },
  { word := .mspass, code := 0x154, cls := .mtx, wid := fun _ => [8, 1, 0] },
  { word := .macz, code := 0x155, cls := .mtx, wid := fun _ => [8, 1, 0], log := noLog },
  { word := .macr, code := 0x156, cls := .mtx, wid := fun _ => [8, 1, 0], log := noLog },
  { word := .mepf, code := 0x157, cls := .mtx, wid := fun _ => [2, 1, 0], log := noLog },
  { word := .wscl, code := 0x158, cls := .mtx, wid := fun _ => [2, 1, 0] },
  { word := .msel, code := 0x159, cls := .mtx, wid := fun _ => [], log := noLog },
  { word := .mflushWait, code := 0x15A, cls := .mtx, wid := fun _ => [], log := noLog },
  { word := .mflushClr, code := 0x15A, cls := .mtx, wid := fun _ => [], log := noLog },
  { word := .mstat, code := 0x15B, cls := .mtx, wid := fun _ => [], log := noLog, uni := 2 }]

/-- The ray unit (R357 to R366). -/
noncomputable def rayWords : List EngineWord := [
  { word := .trace, code := 0x160, cls := .ray, wid := fun _ => [8, 1, 2], lane := fun _ => 8 },
  { word := .traceCont, code := 0x161, cls := .ray, wid := fun _ => [1, 1, 0], lane := fun _ => 8 },
  { word := .traceOcc, code := 0x162, cls := .ray, wid := fun _ => [8, 1, 2], lane := fun _ => 8 },
  { word := .traceEnd, code := 0x163, cls := .ray, wid := fun _ => [1, 0, 0] },
  { word := .rayq, code := 0x164, cls := .ray, wid := fun _ => [1, 0, 0], lane := fun _ => 4 },
  { word := .rayc, code := 0x165, cls := .ray, wid := fun _ => [8, 6, 0], lane := fun _ => 2 },
  { word := .rayxf, code := 0x166, cls := .ray, wid := fun _ => [3, 12, 0], lane := fun _ => 3 },
  { word := .ltwalk, code := 0x167, cls := .ray, wid := fun _ => [3, 2, 4], lane := fun _ => 4 },
  { word := .ltpdf, code := 0x168, cls := .ray, wid := fun _ => [3, 2, 2], lane := fun _ => 4 },
  { word := .sobol, code := 0x169, cls := .ray, wid := fun _ => [1, 1, 2], lane := oneOrFour fun m => decide (4 ≤ m), log := noLog },
  { word := .rnd, code := 0x16A, cls := .ray, wid := fun _ => [2, 0, 2], lane := oneOrFour fun m => m == 4, log := noLog },
  { word := .rndf, code := 0x16B, cls := .ray, wid := fun _ => [2, 0, 2], lane := oneOrFour fun m => m == 4, log := noLog }]

/-- Record words take a log entry in the reservoir space (R376). -/
def recLog (x : Upper) : Bool := decide (x.space = 3)

/-- The reservoir (R383 to R391). -/
noncomputable def rsvWords : List EngineWord := [
  { word := .rsvld, code := 0x170, cls := .rsv, wid := fun _ => [1, 0, 0], lane := fun _ => 8, log := recLog },
  { word := .rsvst, code := 0x171, cls := .rsv, wid := fun _ => [1, 0, 8], log := recLog },
  { word := .rsvupd, code := 0x172, cls := .rsv, wid := fun _ => [1, 8, 0], lane := fun _ => 1, log := recLog },
  { word := .rsvmrg, code := 0x173, cls := .rsv, wid := fun _ => [1, 2, 1], lane := fun _ => 1, log := recLog },
  { word := .rsvnrm, code := 0x174, cls := .rsv, wid := fun _ => [1, 0, 0], lane := fun _ => 1, log := recLog },
  { word := .rsvclr, code := 0x175, cls := .rsv, wid := fun _ => [1, 0, 0], log := recLog },
  { word := .rsvhalo, code := 0x176, cls := .rsv, wid := fun _ => [1, 0, 0], log := recLog },
  { word := .rsvswap, code := 0x177, cls := .rsv, wid := fun _ => [], log := recLog },
  { word := .rsvq, code := 0x178, cls := .rsv, wid := fun _ => [], uni := 4, log := recLog },
  { word := .rsvcfg, code := 0x179, cls := .rsv, wid := fun _ => [2, 0, 0], log := recLog },
  { word := .ruse, code := 0x17A, cls := .rsv, wid := fun _ => [16, 0, 0] }]

/-- The radiance cache (R413 to R419). -/
noncomputable def radWords : List EngineWord := [
  { word := .rcq, code := 0x180, cls := .rad, wid := fun _ => [16, 0, 0], lane := fun _ => 4, log := noLog },
  { word := .rcqTrain, code := 0x181, cls := .rad, wid := fun _ => [16, 4, 1], lane := fun _ => 4, log := noLog },
  { word := .rcgen, code := 0x182, cls := .rad, wid := fun _ => [], uni := 1, log := noLog },
  { word := .rcwld, code := 0x183, cls := .rad, wid := fun _ => [2, 0, 0] },
  { word := .rcwst, code := 0x184, cls := .rad, wid := fun _ => [2, 0, 0], glob := fun _ => true },
  { word := .rcstepStat, code := 0x185, cls := .rad, wid := fun _ => [], uni := 4, log := noLog },
  { word := .rcstepWait, code := 0x185, cls := .rad, wid := fun _ => [], uni := 4, log := noLog },
  { word := .rcstepClr, code := 0x185, cls := .rad, wid := fun _ => [], uni := 4, log := noLog }]

noncomputable def engineWords : List EngineWord := copyWords ++ mtxWords ++ rayWords ++ rsvWords ++ radWords

/-- The operation with its operands as they stand at issue (R456). -/
def EngineWord.op (a : EngineWord) (f : FmtA) (x : Upper) (s : State) : Op :=
  { s.mkOp a.code f x (a.wid x) (s.execSet f.cond) with cls := some a.cls }

/-- The queue that the word enters: of the core, of Loess on the die, or of the die's query units. -/
def EngineWord.queue (a : EngineWord) (s : State) : List Op :=
  match a.cls with
  | .copy => s.c.copyq
  | .mtx => s.c.mtxq
  | .ray => s.c.rayq
  | .rad => (s.die s.g.die).radq
  | _ => if a.code = 0x17A then (s.die s.g.die).loessQ else s.c.rsvq

/-- The queue holds as many operations as it can: 16, 8 of Loess for all contexts together (R391), 32 of a cluster's query unit. -/
def EngineWord.Full (a : EngineWord) (s : State) : Prop :=
  if a.cls = .rad then 32 ≤ (a.queue s).countP fun o => s.clusterOf o == cluster s.g.core
  else if a.code = 0x17A then 8 ≤ s.loessCount s.g.die
  else 16 ≤ (a.queue s).length

/-- The parameter trap of the word: its cause, and the lowest reason that applies (R293, R317, R388). -/
def EngineWord.trap (a : EngineWord) (f : FmtA) (x : Upper) (s : State) : Option (BitVec 8 × Nat) :=
  let o := a.op f x s
  match a.cls with
  | .copy => (lowestReason (s.copyReasons o)).map fun r => (8, r)
  | .mtx =>
    match lowestReason (s.mtxChanReasons o) with
    | some r => some (8, r)
    | none => (lowestReason (s.mtxReasons o)).map fun r => (9, r)
  | .rsv =>
    if a.code = 0x17A then (s.ruseReason o).map fun r => (10, r)
    else if a.code = 0x179 then (s.descReason (s.usrc64 f f.sa).toNat).map fun r => (10, r) else none
  | _ => none

/-- The checks at issue find no fault (R289, R318, R382). -/
def EngineWord.Clean (a : EngineWord) (f : FmtA) (x : Upper) (s : State) : Prop :=
  let o := a.op f x s
  match a.cls with
  | .copy => s.copyFault o (s.copyPtr o) = none
  | .mtx => s.mtxFault o = none
  | .rsv => a.code ≠ 0x17A → x.space = 3 → s.rsvFaults o (s.execSet f.cond) = []
  | .rad => a.code = 0x183 ∨ a.code = 0x184 → s.imageFault o = none
  | _ => True

/-- What does not change when a word enters a queue: every other warp, workgroup and core, the hub and the context, and the
warp's own accesses. -/
def Beside (s t : State) : Prop :=
  t.ws = s.ws ∧ t.gs = s.gs ∧ t.cs = s.cs ∧ t.hub = s.hub ∧ t.ctx = s.ctx ∧ t.others = s.others ∧ t.saved = s.saved ∧ t.w.pend = s.w.pend
    ∧ t.w.parked = s.w.parked ∧ t.w.waits = s.w.waits ∧ { t.g with ch := s.g.ch } = s.g

/-- The word issues: its operation stands last in its queue, its flag is set, its class counts it, its destinations are held; RUSE
takes the records that it reads as they stand (R557). -/
def EngineWord.Enters (a : EngineWord) (f : FmtA) (x : Upper) (s : State) (k : Option Nat) : Prop :=
  ∃ t aux, exec (a.word f x) s = .next t
    ∧ (let o := { a.op f x s with logi := k, aux := aux, stores := if a.code = 0x17A then s.snapNow else [] }
       a.queue t = a.queue s ++ [o]
        ∧ t.w.outs = s.w.outs ++ [{ outOf s o (regsFrom f.dst (a.lane x)) (regsFrom f.dst a.uni) with glob := a.glob x }])
    ∧ t.c.log = s.c.log ++ (k.toList.map fun n => (n, s.nextId))
    ∧ Moved s t 16 ∧ SameRegisters s t ∧ SameBytes s t ∧ t.nextId = s.nextId + 1 ∧ Beside s t

/-- Every lane of the executing set parks at the word, with a record of the fault (R289, R455, R461); a matrix operation keeps its
place in its queue (R329). -/
def EngineWord.ParksWhole (a : EngineWord) (f : FmtA) (x : Upper) (s : State) (e : EFault) : Prop :=
  ∃ t, exec (a.word f x) s = .next t
    ∧ (if a.cls = .mtx then (a.queue t).length = (a.queue s).length + 1
          ∧ ∃ p ∈ a.queue t, p.id = s.nextId ∧ p.st = .parked ∧ p.park = s.execSet f.cond
       else a.queue t = a.queue s)
    ∧ (∀ l ∈ lanesOf (s.execSet f.cond), (s.lane l).st = .ready → l < s.w.lanes.length →
        (t.lane l).st = .parked ∧ (t.lane l).pc = s.pc)
    ∧ (s.ctx.isSome = true → ∃ c u, t.ctx = some c ∧ u ∈ c.unsettled ∧ u.kind = e.1 ∧ u.va = e.2.2)
    ∧ SameRegisters s t ∧ SameBytes s t

/-- The fault of a copy's or a matrix word's checks at issue. -/
def EngineWord.fault (a : EngineWord) (f : FmtA) (x : Upper) (s : State) : Option EFault :=
  let o := a.op f x s
  if a.cls = .copy then s.copyFault o (s.copyPtr o) else if a.cls = .mtx then s.mtxFault o else none

/-! ### Words that wait among the warp's words -/

/-- A long-latency word that waits for a condition: its flag is set and its uniform destinations are held (R34, R43, R45). -/
def Waits (s t : State) (o : Op) (wdst : List Nat) : Prop :=
  t.w.waits = s.w.waits ++ [o] ∧ t.w.outs = s.w.outs ++ [outOf s o [] wdst] ∧ Moved s t 16 ∧ SameRegisters s t ∧ SameBytes s t
    ∧ t.nextId = s.nextId + 1

/-- Nothing of the workgroup waits for a channel, for a launch or for a graph. -/
def NoWaits (s : State) : Prop := ∀ w ∈ s.warps, w.waits = []

/-- The byte count of SB in a word on channel state: a multiple of 4, at most 2^24, and at most the size (R293). -/
def CountFits (f : FmtA) (x : Upper) (s : State) : Prop :=
  let n := (s.usrc32 f f.sb).toNat
  (s.chan (chOf x)).dfn = true ∧ n % 4 = 0 ∧ n ≤ 2 ^ 24 ∧ n ≤ (s.chan (chOf x)).size

/-- The base and the size of CHDEF are legal (R293). -/
def DefFits (f : FmtA) (s : State) : Prop :=
  let b := (s.usrc32 f f.sa).toNat
  let n := (s.usrc32 f f.sb).toNat
  (n = 0 ∨ ∃ k < 9, n = 256 * 2 ^ k) ∧ b % 256 = 0 ∧ b + n ≤ s.g.size

/-- A channel that no input operation is on and that no engine operation names (R294). -/
def Idle (s : State) (k : Nat) : Prop :=
  (s.chan k).ins = [] ∧ (s.chan k).outs = [] ∧ ∀ p ∈ s.c.ops, p.wg = s.g.id → p.chanNamed ≠ some k

/-- The channel that CHDEF makes: all pointers 0 (R294). -/
def defined (f : FmtA) (s : State) : Chan :=
  let n := (s.usrc32 f f.sb).toNat
  if n = 0 then {} else { dfn := true, lsz := Nat.log2 (n / 256), base := (s.usrc32 f f.sa).toNat }

/-- The pointer that CHWP reads (R297). -/
def pointerOf (x : Upper) (c : Chan) : Word := if modeOf x = 0 then c.wp else if modeOf x = 1 then c.cp else c.pp

/-! ### Holds and order words (R264 to R276) -/

/-- A hold word: its kind, its barrier or class, its count and its threshold. -/
structure HoldForm where
  word : FmtA → Upper → Instr
  code : Nat
  kind : HoldKind
  bnum : Upper → Nat
  exp  : Upper → Nat := fun _ => 0
  thr  : Upper → Nat := fun _ => 0

/-- SEL and E of EXT (R268). -/
def extSel (x : Upper) : Nat := x.ext.toNat % 16
def extCount (x : Upper) : Nat := x.ext.toNat / 16 % 64
def groupSel (x : Upper) : Nat := x.gsel.toNat

noncomputable def holdForms : List HoldForm := [
  { word := .barWg, code := 0x129, kind := .barWg, bnum := extSel, exp := extCount },
  { word := .barWait, code := 0x12B, kind := .barWait, bnum := extSel },
  { word := .gbar, code := 0x12C, kind := .gbar, bnum := groupSel },
  { word := .gbarWait, code := 0x12E, kind := .gbarWait, bnum := groupSel },
  { word := .gcoll, code := 0x12F, kind := .gcoll, bnum := groupSel },
  { word := .waitc, code := 0x132, kind := .waitc, bnum := extSel, thr := extCount }]

/-- The lanes held so far stand at the same barrier (R264). -/
def HoldForm.Agrees (h : HoldForm) (x : Upper) (y : Sync) : Prop :=
  y.hold = 0 ∨ (y.kind = h.kind ∧ y.bnum = h.bnum x ∧ y.exp = h.exp x ∧ y.thr = h.thr x)

/-- HOLD with the lanes of a word added, and what its wait needs (R264, R277, R279). -/
def HoldForm.held (h : HoldForm) (f : FmtA) (x : Upper) (s : State) : Sync :=
  let o := s.mkOp h.code f x [1, 0, 0] (s.execSet f.cond)
  { s.w.sync with
    hold := s.w.sync.hold ||| s.execSet f.cond, kind := h.kind, bnum := h.bnum x, exp := h.exp x, thr := h.thr x
    ord := x.ord.toNat, scope := x.scope.toNat, ids := s.w.sync.ids ++ [s.nextId], pc := s.pc, mid := some o.mid
    src := f.sa, dst := f.dst.toNat, gop := x.ext.toNat % 16, rm := f.md.toNat / 4 % 4 }

/-- The wait goes on: for WAITC its counters are above the threshold; elsewhere some lane of the warp is still to arrive. -/
def HoldForm.StillWaits (h : HoldForm) (f : FmtA) (x : Upper) (s : State) : Prop :=
  if h.kind = .waitc then s.w.waitcHolds (h.bnum x) (h.thr x) = false
  else s.w.liveLanes &&& ~~~(s.w.sync.hold ||| s.execSet f.cond) ≠ 0

/-- A word that orders the warp's accesses and makes none, with the ORD and SCOPE that it acts with. -/
structure OrderForm where
  word : FmtA → Upper → Instr
  code : Nat
  up   : State → Upper → Upper := fun _ x => x
  /-- Its own checks pass (R264, R265, R293, R295). -/
  ok   : FmtA → Upper → State → Prop := fun _ _ _ => True
  /-- What it does when its turn comes, to the state before the word and to the one after the word has issued. -/
  did  : FmtA → Upper → State → State → State → Prop

/-- The reservations of CHPROD.rsv that the warp has not published, oldest first. -/
def unpublished (s : State) (k : Nat) : List Resv := (s.chan k).outs.filter fun r => r.byPub && r.warp == s.w.id && !r.complete

noncomputable def orderForms : List OrderForm := [
  { word := .fence, code := 0x128
    did := fun _ x s u t =>
      t = ((u.releaseIf x.ord.toNat x.scope.toNat).acquireIf x.ord.toNat x.scope.toNat).complete s.nextId },
  { word := .barArrive, code := 0x12A
    ok := fun _ x s =>
      let r := s.g.bars.get {} (extSel x)
      r.arr &&& s.w.bit = 0 ∧ (r.set = true → r.exp = extCount x)
    did := fun _ x s _ t =>
      let r := s.g.bars.get {} (extSel x)
      let r1 : BarRec := { r with arr := r.arr ||| s.w.bit, set := true, exp := extCount x }
      t.g.bars.get {} (extSel x) = (if s.phaseDone r1 = true then { ph := !r.ph } else r1) ∧ SameRegisters s t },
  { word := .gbarArrive, code := 0x12D
    ok := fun _ x s => (s.g.bars.get {} (16 + groupSel x)).arr &&& s.w.bit = 0
    did := fun _ x s _ t =>
      let r := s.g.bars.get {} (16 + groupSel x)
      t.g.bars.get {} (16 + groupSel x) = { r with arr := r.arr ||| s.w.bit } ∧ SameRegisters s t },
  { word := .chprodPub, code := 0x142
    ok := fun _ x s => (s.chan (chOf x)).dfn = true ∧ s.w.pubs (chOf x) < (unpublished s (chOf x)).length
    did := fun _ x s _ t => ∀ r, (unpublished s (chOf x)).head? = some r →
      ∀ q ∈ (t.chan (chOf x)).outs, q.op = r.op → q.p = r.p → q.complete = true },
  { word := .evsig, code := 0x18E, up := fun s x => { x with ord := 2, scope := BitVec.ofNat 3 (lrCscope s.g.lrec) }
    did := fun _ _ _ _ t => t.g.event = true }]

/-- The word as the operand log holds it. -/
def OrderForm.op (o : OrderForm) (f : FmtA) (x : Upper) (s : State) : Op := s.mkOp o.code f (o.up s x) [] (s.execSet f.cond)

/-- It follows every access of the warp: a fence, or what releases (R246, R274, R458). -/
def OrderForm.follows (o : OrderForm) (x : Upper) (s : State) : Bool :=
  decide (o.code = 0x128) || decide ((o.up s x).ord = 2) || decide ((o.up s x).ord = 3)

/-- Its turn has come when it issues: nothing that it follows is to come, parked accesses and replayed ones included (R458).
CHPROD.pub follows writes of scratch and earlier publications (R295), an arrival that releases nothing earlier arrivals (R267),
and a release of scope 5 or wider also the writes that memory channels hold (R485) and the bytes whose way a relock holds (R509). -/
def OrderForm.Ready (o : OrderForm) (x : Upper) (s : State) : Prop :=
  if o.code = 0x142 then
    (∀ p ∈ s.w.pend, p.code ≠ 0x142 ∧ p.writesScratch = false) ∧ ∀ p ∈ s.w.owed s.nextId, p.writesScratch = false
  else if o.follows x s = false then ∀ p ∈ s.w.pend, p.code ≠ 0x129 ∧ p.code ≠ 0x12A ∧ p.code ≠ 0x12D
  else s.w.pend = [] ∧ s.w.owed s.nextId = []
    ∧ (relOf (o.up s x).ord.toNat = true → s.releaseWaits s.g.die s.g.core = true → s.scopeOf (o.up s x).scope.toNat < 5)

/-- The machine has performed every word that only orders whose turn had come (R274, R458). -/
def Drained (s : State) : Prop := s.nextOrder [] s.w.pend = none

/-! ### Words of the hub that act once (R447, R451 to R453) -/

/-- The record of a node workgroup, and the workgroup's place in its launch. -/
def nodeQuad (s : State) : Nat × Nat × Nat × Nat :=
  match s.g.node with
  | some n => (lrChend s.g.lrec, s.g.nrec, s.g.rsz, n)
  | none => (0, 0, 0, 0)
def placeQuad (s : State) : Nat × Nat × Nat × Nat :=
  let i := s.g.index
  let dx := lrDimx s.g.lrec
  let dy := lrDimy s.g.lrec
  if s.g.node.isSome then (i, 0, 0, 0) else (i % dx, i / dx % dy, i / (dx * dy), lrNwg s.g.lrec)

/-- A quad of numbers written. -/
def putNats (s : State) (d : Nat) (q : Nat × Nat × Nat × Nat) : State :=
  putQuad s d (loWord q.1) (loWord q.2.1) (loWord q.2.2.1) (loWord q.2.2.2)

/-- What LQUERY says of a number (R452): the state and reason, workgroups started, events, workgroups. -/
def queryQuad (k : Ctx) (num : Nat) : Nat × Nat × Nat × Nat :=
  match k.launches.find? (fun l => l.num == num), k.graphs.find? (fun g => g.num == num) with
  | some l, _ => (l.state * 2 ^ 28 + l.reason, l.started.length, l.eventCount, lrNwg l.lrec)
  | none, some g => (g.state * 2 ^ 28 + g.reason, (g.nodes.map (·.started)).sum, (g.nodes.map (·.ended)).sum, 0)
  | none, none => (if k.wasIssued num then 6 * 2 ^ 28 else 0, 0, 0, 0)

/-- A graph that GRAPH.ABORT stops: every record in its queues is discarded, unless it is complete (R450). -/
def abortedGraph (g : Graph) : Graph :=
  if g.complete then g else { g with abt := true, nodes := g.nodes.map fun n => { n with queue := [], spill := [], due := 0 } }
def abortedIn (num : Nat) (k : Ctx) : Ctx :=
  { k with graphs := k.graphs.map fun g => if g.num = num then abortedGraph g else g }

noncomputable def hubWords : List DieWord := [
  { word := .nodeRec, act := fun f s => putNats s f.dst.toNat (nodeQuad s) },
  { word := .wgid, act := fun f s => putNats s f.dst.toNat (placeQuad s) },
  { word := .lrq, act := fun f s => putU s f.dst.toNat (s.g.lrec.extractLsb' (32 * (saNat f s % 64)) 32) },
  { word := .lquery, act := fun f s =>
      match s.ctx with
      | some k => putNats s f.dst.toNat (queryQuad k (saNat f s))
      | none => s },
  { word := .lcancel, act := fun f s => s.cancel (saNat f s) },
  { word := .graphAbort, act := fun f s => s.updCtx (abortedIn (saNat f s)) }]

/-- A submission as the hub keeps it until it accepts it (R444, R450). -/
def submitOf (f : FmtA) (x : Upper) (s : State) (o : Op) (pred : Option Nat) (graph : Bool) : Submit :=
  { op := o.id, addr := effAddr 0 (o.base 0) x.offset, pred := pred, graph := graph
    input := if graph then (s.usrc64 f f.sb).toNat else 0, count := if graph then (s.usrc32 f f.sc).toNat else 0 }

/-- The submission is with the hub, and its word waits with its destination held. -/
def Submitted (s t : State) (f : FmtA) (o : Op) (sub : Submit) : Prop :=
  Waits s t o (regsFrom f.dst 1) ∧ t.ctx = s.ctx.map fun k => { k with submits := k.submits ++ [sub] }

/-- The words that wait for a launch or a graph. -/
noncomputable def hubWaits : List ((FmtA → Upper → Instr) × Nat) := [(.evwait, 0x18D), (.graphWait, 0x190)]

/-- The graph of the workgroup and the size of a record of its node n (R446). -/
def NodeSize (s : State) (n rsz : Nat) : Prop :=
  ∃ g d, s.g.node.isSome = true ∧ s.graphOf s.g.launch = some g ∧ g.nodes[n]? = some d ∧ rsz = neRsz d.ent

/-! ### Words of the die class that answer each lane (R515, R520) -/

/-- The distance in hops of two die numbers, 15 naming the hub: a number that names nothing gives all ones. -/
def hopsOf (s : State) (a b : Nat) : Word :=
  let die (x : Nat) : Bool := decide (x < s.ndie)
  if die a && die b then
    (if s.phys a = s.phys b then 0 else if s.phys a + s.phys b = 3 then 2 else 1)
  else if a = 15 ∧ b = 15 then 0
  else if (die a = true ∧ b = 15) ∨ (a = 15 ∧ die b = true) then 1
  else 0xFFFFFFFF

/-- The owner of a pixel, whether the issuing die holds a copy, and the quadrant; bit 31 for no pixel of the image. -/
def pixelWord (s : State) (x y : Nat) : Word :=
  match s.geom with
  | some g =>
    if x < g.w ∧ y < g.h then BitVec.ofNat 32 (g.owner x y + flagBit (g.inHalo s.g.die x y) 16 + 256 * g.quadrant x y)
    else 0x80000000
  | none => 0x80000000

noncomputable def dieLaneWords : List ((FmtA → Upper → Instr) × (FmtA → State → Nat → Word)) := [
  (.dhop, fun f s l => hopsOf s (s.src32 f f.sa l).toNat (s.src32 f f.sb l).toNat),
  (.dquad, fun f s l => pixelWord s ((s.src32 f f.sa l).toNat % 65536) ((s.src32 f f.sa l).toNat / 65536))]

/-- The quad of DTIME (R518): the time and the die's cycles at one instant; the hub has no cycles, and a number that names
nothing gives all ones. -/
def timeQuad (s : State) (d : Nat) : Word × Word × Word × Word :=
  let n := (s.die d).ncyc / 2520
  if d = 15 then (loWord s.time, hiWordOf s.time, 0, 0)
  else if d < s.ndie then (loWord s.time, hiWordOf s.time, loWord n, hiWordOf n)
  else (0xFFFFFFFF, 0xFFFFFFFF, 0xFFFFFFFF, 0xFFFFFFFF)

/-- DTIME asks the hub, or a die of the context, by a packet (R504, R518). -/
def timeAsked (s : State) (d : Nat) : State := if d = 15 then asked s 0xC else if d < s.ndie then asked s d else s

/-- The words of 128 bits that have no effect where no lane executes (R43). -/
noncomputable def longWords : List (FmtA → Upper → Instr) :=
  accessWords.map (·.word) ++ quietWords.map (·.1) ++ engineWords.map (·.word) ++ holdForms.map (·.word)
    ++ orderForms.map (·.word)
    ++ [.chopen, .chclose, .chdef, .chrst, .chprodRsv, .chcons, .chwp, .chwaitData, .chwaitRoom, .carve, .dtime, .launch,
        .launchDep, .nodeEnq, .nodeEnqn, .evwait, .graphStart, .graphWait]

end Sys2Proof.Slice0
end

