-- ==== Sys2Proof/Certificates/Slice0/EventTerms.lean ====
section
/-! DEFINITION. When the steps that the package's own parts take are enabled, and what they leave, for the statements about
events. -/

namespace Sys2Proof.Slice0

open Sys2Proof.Machine

/-! ### Operations -/

/-- An operation, with its warp and its core in focus, and nothing of the package waiting for a channel or the hub. -/
def InFocus (s : State) (id : Nat) (o : Op) (s0 : State) : Prop := s.focusOp id = some (o, s0) ∧ o.id = id ∧ NoWaits s0

/-- The operation stands in a list of the core. -/
def InQueue (q : List Op) (o : Op) : Prop := ∃ p ∈ q, p.id = o.id

/-- The operation is done: it stands in no queue of the core, and what counted it counts it as done (R34, R467). -/
def Ended (t : State) (o : Op) : Prop :=
  (∀ p ∈ t.c.ops, p.id ≠ o.id) ∧ ∀ y ∈ t.w.outs, y.id = o.id → y.done = true ∧ y.vdst = [] ∧ y.wdst = []

/-- Scratch bytes from an offset on hold those given; every other byte is unchanged. -/
def WritesScratch (s t : State) (a : Nat) (bs : List Byte) : Prop :=
  ∀ x, t.g.scratch.get 0 x = if a ≤ x ∧ x < a + bs.length then (bs[x - a]?).getD 0 else s.g.scratch.get 0 x

/-- The chunk that a copy takes next, with its translations (R289): its place, its length, the pages of its SA side and of its
destination, and the machine after the walks. -/
structure CopyTurn (s0 : State) (o : Op) where
  pos : Nat
  len : Nat
  xs  : List Xl
  ys  : List Xl
  s1  : State
  s2  : State
  next  : (s0.chunks o)[o.chunk]? = some (pos, len)
  turn  : InQueue s0.c.copyq o ∧ o.code ≠ 0x14A ∧ s0.copyTurn o = true ∧ o.inFlight = false
  free  : s0.chunkHeld o pos len = false
  first : checkPieces s0 .read (o.chunkReads pos) = (s1, some (.ok xs))
  then_ : checkPieces s1 .write (o.chunkWrites pos len) = (s2, some (.ok ys))
  good  : s2.bad = []

/-- The bytes of a part, at position a (R298, R299): the pattern, the scratch or channel bytes, or what the engine reads. -/
def partBytes (u : State) (o : Op) (xl : List Xl) (a m : Nat) : List Byte :=
  if o.code = 0x14B then (List.range m).map fun i => patternByte (o.val32 1 0) (a + i)
  else if o.code = 0x147 then (List.range m).map fun i => u.g.scratch.get 0 (u.sAt o o.ptr (a + i))
  else u.engineRead o.kept xl (o.gAt a) m

/-- A part of a copy's chunk has moved (R284, R298, R299): where the copy then stands, and the bytes that it has written in scratch
or in its channel, or in global memory as an engine writes it. `u` is the machine that the part reads. -/
def PartMoves (s0 u t : State) (o : Op) (xl : List Xl) (pos len moved : Nat) : Prop :=
  let a := pos + moved
  let m := o.partLen a (len - moved)
  (∀ q ∈ t.c.copyq, q.id = o.id → if len ≤ moved + m then q.chunk = o.chunk + 1 else q.chunk = o.chunk ∧ q.moved = moved + m)
  ∧ (o.code = 0x146 ∨ o.code = 0x149 ∨ (o.code = 0x14B ∧ o.x.space ≠ 0) → ∀ x, t.g.scratch.get 0 x =
      lastWrite ((partBytes u o xl a m).zipIdx.map fun p => (u.sAt o o.ptr (a + p.2), p.1)) x (s0.g.scratch.get 0 x))
  ∧ (o.code = 0x147 ∨ (o.code = 0x14B ∧ o.x.space = 0) →
      SameMemories (u.engineWrite o xl (o.gAt a) o.x.evp.toNat (partBytes u o xl a m)) t)
  ∧ (o.code = 0x148 →
      SameMemories ((u.engineFill xl (o.gAt a) m o.x.evp.toNat).engineWrite o xl (o.gDst a) o.x.evp.toNat (partBytes u o xl a m)) t)

/-- The arrivals that the hub knows at a group's barrier, and the values that came with them (R266, R277). -/
def hubArrivals (k : Ctx) (launch group : Nat) : List Nat × List (Nat × Word) :=
  ((k.gbars.find? fun b => b.launch == launch && b.group == group).map fun b => (b.arrived, b.values)).getD ([], [])

/-- Every phase end of a group reaches a member (R266, R277): PH of its slot inverts and ARR is 0, the waits at the slot end, and a
collective's result is written. -/
def MemberReleased (s t : State) (h : Wg) (j : Nat) (members : List Nat) (vals : List (Nat × Word)) : Prop :=
  (∃ q, t.wgOf h.id = some q ∧ q.bars.get {} (16 + j) = { ph := !(h.bars.get {} (16 + j)).ph })
    ∧ ∀ w ∈ s.warps, w.wg = h.id → w.shadow = none → w.sync.hold ≠ 0 →
        w.sync.kind = .gbar ∨ w.sync.kind = .gbarWait ∨ w.sync.kind = .gcoll → w.sync.bnum = j → w.sync.arrived = true →
        ∃ y, t.warpOf w.id = some y ∧ y.sync = {}
          ∧ (w.sync.kind = .gcoll → y.u.get 0 w.sync.dst = gcollResult w.sync.gop (Rm.ofCode w.sync.rm) members vals)

/-! ### The matrix engine -/

/-- A matrix operation whose next step may be taken. -/
def MtxTurn (s0 : State) (o : Op) : Prop :=
  InQueue s0.c.mtxq o ∧ s0.mtxTurn o = true ∧ s0.mtxHeld o = false ∧ o.chunk < o.mtxSteps ∧ s0.bad = []

/-! ### The ray unit -/

/-- Words without a traversal or a walk: RAYQ, RAYC, RAYXF, SOBOL, RND and RNDF. -/
def plainRay (code : Nat) : Bool := [0x164, 0x165, 0x166, 0x169, 0x16A, 0x16B].contains code

/-! ### The reservoir -/

/-- A record word whose lanes may all be performed, each at a legal address of the image (R375, R382). -/
def RsvTurn (s0 : State) (o : Op) (g : Geom) : Prop :=
  InQueue s0.c.rsvq o ∧ s0.rsvReady o = o.e ∧ o.e ≠ 0 ∧ o.pcm = 0 ∧ s0.bad = [] ∧ s0.geom = some g ∧ s0.dies.length = 4
    ∧ ∀ l ∈ lanesOf o.e, ∀ a ∈ o.rsvAs l, rsvFault s0.geom a = none

/-- The record at the address of a lane. -/
def recordOf (s : State) (g : Geom) (o : Op) (l : Nat) : BitVec 256 :=
  let a := rsvAddr (o.rsvA l)
  s.rsvAt g a.lyr a.x a.y

/-! ### Loess -/

/-- Loess has a quad in flight for the operation at the head of the die's queue. -/
def AtWork (s : State) (die : Nat) (o : Op) (s0 : State) (q : Loess) : Prop :=
  s.loessHead die = some (o, s0) ∧ (s0.die die).loess = some q ∧ s0.dies.length = 4

/-- Places of the evaluations that a batch takes: the first sixteen that are ready (R396). -/
def batchPlaces (q : Loess) : List Nat := q.batch.map (·.1)

/-! ### Radiance -/

/-- An operation of a query unit that may act. -/
def RadTurn (s : State) (id : Nat) (o : Op) (s0 : State) : Prop := InFocus s id o s0 ∧ s0.radAt o = true

/-! ### The package -/

/-- The held writes of a die that carry a byte of a page are those of that page (R485). -/
def HeldInPages (d : Die) (frame : Nat) : Prop :=
  frame % 4096 = 0 ∧ ∀ h ∈ d.held, ∀ b ∈ h.bytes, frame ≤ b.1 → b.1 < frame + 4096 → h.addr = frame

/-- A start that has failed (R526): FAILS has grown to at most 3, REASON says why, and the hub is reset, or enters minimal mode with
the third failure. -/
def FailedStart (s t : State) (reason : BitVec 8) : Prop :=
  t.hub.fails = (if s.hub.fails < 3 then s.hub.fails + 1 else 3) ∧ t.hub.reason = reason
    ∧ t.hub.state = if 2 ≤ s.hub.fails.toNat then 5 else 0

/-- The dirty bytes that the dies hold of a 64-byte line of the host, and a place of the line in a cached line (R524). -/
def snooped (s : State) (a : Nat) : List (Nat × Byte) :=
  s.dies.flatMap fun d => (d.guest.filter fun l => s.hostOf l == some (a / 128 * 128)).flatMap fun l =>
    (l.dirtyBytes.filter fun p => decide (a % 128 ≤ p.1) && decide (p.1 < a % 128 + 64)).map fun p => (a / 128 * 128 + p.1, p.2)
def Uncopied (s : State) (a : Nat) (ls : List Line) : Prop :=
  ∀ l ∈ ls, s.hostOf l = some (a / 128 * 128) → ∀ i, a % 128 ≤ i → i < a % 128 + 64 → l.hasByte i = false

/-- Every device memory, the memories of the host and of peers, and the scratch of every workgroup, wherever its context stands, are
in canonical form, and the dies stand at their places. -/
def PackageForm (s : State) : Prop :=
  s.diesWf = true ∧ s.memWf = true ∧ ∀ v ∈ s.others ++ s.saved, ∀ g ∈ v.wgs, Memory.wf g.scratch = true

end Sys2Proof.Slice0
end

