-- ==== Sys2Proof/Certificates/Slice0/FloatTable.lean ====
section
/-! DEFINITION. The floating-point, special-function and conversion class, PAIR and the cross-lane class in the terms of R51, R52,
R68 to R76, R165 to R196, for the statements. -/

namespace Sys2Proof.Slice0

open Sys2Proof.Machine

/-- A floating-point word: the words of its destination in a lane, the flags that the lane raises, and its codes. -/
structure FloatWord where
  word  : FmtA → Instr
  words : FmtA → State → Nat → List Word
  flags : FmtA → State → Nat → Flags
  codes : FmtA → State → Nat → Codes

/-- N, Z, C and V of comparing two encodings: equal zeros, and V where a NaN takes part (R167). -/
def comparison (fm : Fmt) (a b : Nat) : Codes :=
  match cmpV (fval fm a) (fval fm b) with
  | some .lt => { n := true, z := false, c := false, v := false }
  | some .eq => { n := false, z := true, c := true, v := false }
  | some .gt => { n := false, z := false, c := true, v := false }
  | none => { n := false, z := false, c := true, v := true }

/-- A word with one result: its codes compare the result with +0. -/
def resultOp (i : FmtA → Instr) (fm : Fmt) (r : FmtA → State → Nat → FRes) : FloatWord where
  word := i
  words f s l := [BitVec.ofNat 32 (r f s l).bits]
  flags f s l := (r f s l).fl
  codes f s l := comparison fm (r f s l).bits 0

/-- Rounding mode of a word, and its operands: NEG inverts the sign of SB, NC that of SC (R69, R71, R164, R165). -/
def modeOf (f : FmtA) : Rm := Rm.ofCode (f.md.toNat % 4)
def fA (f : FmtA) (s : State) (fm : Fmt) (l : Nat) : Nat := s.srcF f fm f.sa l
def flipped (fm : Fmt) (on : Bool) (x : Nat) : Nat := if on then x ^^^ fm.signBit else x
def fB (f : FmtA) (s : State) (fm : Fmt) (l : Nat) : Nat := flipped fm f.neg (s.srcF f fm f.sb l)
def fC (f : FmtA) (s : State) (fm : Fmt) (l : Nat) : Nat := flipped fm (f.md.getLsbD 2) (s.srcF f fm f.sc l)
/-- Elements of packed operands (R165, R169). -/
def hA (f : FmtA) (s : State) (fm : Fmt) (l : Nat) : Nat := s.srcH f fm f.sa l
def flipBoth (on : Bool) (x : Nat) : Nat := if on then x ^^^ 0x80008000 else x
def hB (f : FmtA) (s : State) (fm : Fmt) (l : Nat) : Nat := flipBoth f.neg (s.srcH f fm f.sb l)
def hC (f : FmtA) (s : State) (fm : Fmt) (l : Nat) : Nat := flipBoth (f.md.getLsbD 2) (s.srcH f fm f.sc l)

/-- Operations of two and three operands of a format. -/
def op2 (g : Fmt → Rm → Nat → Nat → FRes) (fm : Fmt) (f : FmtA) (s : State) (l : Nat) : FRes :=
  g fm (modeOf f) (fA f s fm l) (fB f s fm l)
def op1 (g : Fmt → Rm → Nat → FRes) (fm : Fmt) (f : FmtA) (s : State) (l : Nat) : FRes := g fm (modeOf f) (fA f s fm l)
def fma3 (fm : Fmt) (f : FmtA) (s : State) (l : Nat) : FRes := fFma fm (modeOf f) (fA f s fm l) (fB f s fm l) (fC f s fm l)

/-- Both elements of a packed pair: the low one in the low half, the flags of both (R169). -/
def pairOf (g : Nat → FRes) : FRes :=
  { bits := (g 0).bits % 2 ^ 16 + (g 1).bits % 2 ^ 16 * 2 ^ 16, fl := (g 0).fl ||| (g 1).fl }
def elem (x i : Nat) : Nat := x / 2 ^ (16 * i) % 2 ^ 16
def packed2 (g : Fmt → Rm → Nat → Nat → FRes) (fm : Fmt) (f : FmtA) (s : State) (l : Nat) : FRes :=
  pairOf fun i => g fm (modeOf f) (elem (hA f s fm l) i) (elem (hB f s fm l) i)
def packed3 (fm : Fmt) (f : FmtA) (s : State) (l : Nat) : FRes :=
  pairOf fun i => fFma fm (modeOf f) (elem (hA f s fm l) i) (elem (hB f s fm l) i) (elem (hC f s fm l) i)

/-- Arithmetic, compares with a result, rounding and special functions (R168 to R179). -/
noncomputable def floatArithmetic : List FloatWord := [
  resultOp .faddF32 f32 (op2 fAdd f32), resultOp .faddF16 f16 (op2 fAdd f16), resultOp .faddBf16 bf16 (op2 fAdd bf16),
  resultOp .fmulF32 f32 (op2 fMul f32), resultOp .fmulF16 f16 (op2 fMul f16), resultOp .fmulBf16 bf16 (op2 fMul bf16),
  resultOp .ffmaF32 f32 (fma3 f32), resultOp .ffmaF16 f16 (fma3 f16), resultOp .ffmaBf16 bf16 (fma3 bf16),
  resultOp .fminF32 f32 (op2 (fun m _ => fMin m) f32), resultOp .fminF16 f16 (op2 (fun m _ => fMin m) f16),
  resultOp .fminBf16 bf16 (op2 (fun m _ => fMin m) bf16), resultOp .fmaxF32 f32 (op2 (fun m _ => fMax m) f32),
  resultOp .fmaxF16 f16 (op2 (fun m _ => fMax m) f16), resultOp .fmaxBf16 bf16 (op2 (fun m _ => fMax m) bf16),
  resultOp .fclassF32 f32 (op1 (fun m _ a => { bits := fClass m a }) f32),
  resultOp .fclassF16 f16 (op1 (fun m _ a => { bits := fClass m a }) f16),
  resultOp .fclassBf16 bf16 (op1 (fun m _ a => { bits := fClass m a }) bf16),
  resultOp .frndF32 f32 (op1 fRnd f32), resultOp .frndF16 f16 (op1 fRnd f16), resultOp .frndBf16 bf16 (op1 fRnd bf16),
  resultOp .fldexpF32 f32 fun f s l => fLdexp f32 (modeOf f) (fA f s f32 l) (s.src32 f f.sb l).toInt,
  resultOp .fcpysF32 f32 fun f s l => { bits := fA f s f32 l % 2 ^ 31 + fB f s f32 l / 2 ^ 31 * 2 ^ 31 },
  resultOp .fmed3F32 f32 fun f s l =>
    let a := fA f s f32 l
    let b := s.srcF f f32 f.sb l
    let c := s.srcF f f32 f.sc l
    { bits := (fMax f32 (fMin f32 a b).bits (fMin f32 (fMax f32 a b).bits c).bits).bits, fl := snanFl f32 [a, b, c] },
  resultOp .fdot2Bf16 f32 fun f s l => fDot2 (modeOf f) (hA f s bf16 l) (hB f s bf16 l) (fC f s f32 l),
  resultOp .hadd2F16 f32 (packed2 fAdd f16), resultOp .hadd2Bf16 f32 (packed2 fAdd bf16),
  resultOp .hmul2F16 f32 (packed2 fMul f16), resultOp .hmul2Bf16 f32 (packed2 fMul bf16),
  resultOp .hfma2F16 f32 (packed3 f16), resultOp .hfma2Bf16 f32 (packed3 bf16),
  resultOp .frcpF32 f32 (op1 fRcp f32), resultOp .frsqF32 f32 (op1 fRsq f32), resultOp .fsqrtF32 f32 (op1 fSqrt f32),
  resultOp .fdivF32 f32 fun f s l => fDiv f32 (modeOf f) (fA f s f32 l) (s.srcF f f32 f.sb l),
  resultOp .fexp2F32 f32 (op1 fExp2 f32), resultOp .flog2F32 f32 (op1 fLog2 f32), resultOp .fsinF32 f32 (op1 fSin f32),
  resultOp .fcosF32 f32 (op1 fCos f32), resultOp .fexp2F16 f16 (op1 fExp2 f16)]

/-- A conversion between formats (R180). -/
def cvtOp (i : FmtA → Instr) (src dst : Fmt) : FloatWord :=
  resultOp i dst fun f s l => fCvt src dst (modeOf f) (s.srcF f src f.sa l)

/-- Both sources converted and packed (R181). -/
def cvtBoth (i : FmtA → Instr) (dst : Fmt) : FloatWord :=
  resultOp i f32 fun f s l => pairOf fun k => fCvt f32 dst (modeOf f) (s.srcF f f32 (if k = 0 then f.sa else f.sb) l)

/-- An FP32 value rounded to an n-bit integer, clamped with NV where it does not fit (R182). -/
def toIntOp (i : FmtA → Instr) (n : Nat) (signed : Bool) : FloatWord where
  word := i
  words f s l :=
    let x := (toInt n signed (modeOf f) (fval f32 (fA f s f32 l))).bits
    if n = 32 then [BitVec.ofNat 32 x] else [BitVec.ofNat 32 x, BitVec.ofNat 32 (x / 2 ^ 32)]
  flags f s l := (toInt n signed (modeOf f) (fval f32 (fA f s f32 l))).fl
  codes f s l :=
    let r := toInt n signed (modeOf f) (fval f32 (fA f s f32 l))
    { c := false, z := decide (r.bits % 2 ^ n = 0), n := r.bits.testBit (n - 1), v := r.fl.getLsbD 4 }

/-- An integer converted to FP32, rounded once (R183). -/
def fromIntOp (i : FmtA → Instr) (x : FmtA → State → Nat → Int) : FloatWord :=
  resultOp i f32 fun f s l => roundV f32 (modeOf f) false (.fin (decide (x f s l < 0)) (x f s l).natAbs 0)

/-- The format slot that MOD names (R84, R421). -/
def slotFor (f : FmtA) (s : State) : Word64 := s.g.lrec.extractLsb' (256 + 64 * (f.md.toNat / 8 % 8)) 64

/-- A Q4 code decoded under its scale (R184): NaN for the NaN scale. -/
def decodeQ4 (fm : Fmt) (f : FmtA) (s : State) (l : Nat) : FRes :=
  let code := (s.src32 f f.sa l).toNat / 2 ^ (4 * ((s.src32 f f.sc l).toNat % 8)) % 16
  match q4Scaled (slotFor f s) (f.md.toNat / 64) ((s.src32 f f.sb l).toNat % 1024) code with
  | .nan => { bits := fm.nan, fl := flNV }
  | v => roundV fm (modeOf f) (slotSat (slotFor f s)) v

/-- Conversions (R180 to R186). -/
noncomputable def conversions : List FloatWord := [
  cvtOp .cvtF16F32 f32 f16, cvtOp .cvtBf16F32 f32 bf16, cvtOp .cvtF32F16 f16 f32, cvtOp .cvtF32Bf16 bf16 f32,
  cvtOp .cvtBf16F16 f16 bf16, cvtOp .cvtF16Bf16 bf16 f16, cvtBoth .cvtF16x2F32 f16, cvtBoth .cvtBf16x2F32 bf16,
  toIntOp .cvtS32F32 32 true, toIntOp .cvtN32F32 32 false, toIntOp .cvtS64F32 64 true, toIntOp .cvtN64F32 64 false,
  fromIntOp .cvtF32S32 fun f s l => (s.src32 f f.sa l).toInt, fromIntOp .cvtF32N32 fun f s l => (s.src32 f f.sa l).toNat,
  fromIntOp .cvtF32S64 fun f s l => (s.src64 f f.sa l).toInt, fromIntOp .cvtF32N64 fun f s l => (s.src64 f f.sa l).toNat,
  resultOp .qdecBf16 bf16 (decodeQ4 bf16), resultOp .qdecF32 f32 (decodeQ4 f32),
  resultOp .qencBf16 f32 fun f s l =>
    q4Encode (slotFor f s) ((s.src32 f f.sb l).toNat % 1024) (modeOf f) (fval bf16 (fA f s bf16 l)),
  resultOp .qencF32 f32 fun f s l =>
    q4Encode (slotFor f s) ((s.src32 f f.sb l).toNat % 1024) (modeOf f) (fval f32 (fA f s f32 l)),
  resultOp .qscl f32 fun f s l => q4MakeScale (slotFor f s) (s.src32 f f.sb l).toNat (fval f32 (fA f s f32 l))]

/-- Flag i is raised by the word: some executing lane raises it (R74, R75). -/
def raised (f : FmtA) (s : State) (fl : Nat → Flags) : Flags := unionFlags (s.execSet f.cond) fl

/-- The sticky flags after a word: a warp that runs ahead sets none (R75, R77). -/
def stickyAfter (s : State) (up : Flags) : Flags := if s.w.ra = none then s.w.sticky ||| up else s.w.sticky

/-- No trap follows: the warp runs ahead, or no flag that is raised is enabled (R76, R77). -/
def NoFloatTrap (s : State) (up : Flags) : Prop := s.w.ra ≠ none ∨ up &&& s.ten = 0

/-- A floating-point word completes: destination, codes and sticky flags, and nothing else (R75). -/
def FloatWord.Completes (o : FloatWord) (f : FmtA) (s : State) : Prop :=
  ∃ t, exec (o.word f) s = .next t
    ∧ WritesLanes s t (s.execSet f.cond) f.dst.toNat (o.words f s)
    ∧ WritesCodes s t f.wcc (s.execSet f.cond) (o.codes f s)
    ∧ t.w.sticky = stickyAfter s (raised f s (o.flags f s)) ∧ t.w.u = s.w.u ∧ t.w.m = s.w.m
    ∧ Moved s t (fmtLen f) ∧ Kept s t

/-- A floating-point word that raises an enabled flag takes its effect, and then the trap (R76, R463). -/
def FloatWord.Traps (o : FloatWord) (f : FmtA) (s : State) (thv : Word64) : Prop :=
  let e := s.execSet f.cond
  let up := raised f s (o.flags f s)
  ∃ t, exec (o.word f) s = .next t
    ∧ WritesLanes s t e f.dst.toNat (o.words f s) ∧ WritesCodes s t f.wcc e (o.codes f s)
    ∧ t.w.sticky = s.w.sticky ||| up ∧ t.w.u = s.w.u ∧ t.w.m = s.w.m
    ∧ t.w.th = { amask := s.m0, fmask := laneSet fun l => inSet e l && decide (o.flags f s l &&& s.ten ≠ 0), cause := 4,
                 epc := s.pc.setWidth 56, info := infoWord 0 0 (up &&& s.ten) }
    ∧ t.w.shadow = some { lanes := resumed s (nextWord s.pc (fmtLen f)) (placeAfter s), rcb := s.w.rcb, sync := s.w.sync }
    ∧ t.w.lanes = List.replicate 32 { st := .ready, pc := thv } ∧ t.w.run = none ∧ t.w.inHandler = true

/-- The float compares (R167, R173): a signalling NaN raises NV. -/
noncomputable def compareWords : List ((FmtA → Instr) × (FmtA → Instr) × Fmt) := [
  (.fcmpF32, .fsetmF32, f32), (.fcmpF16, .fsetmF16, f16), (.fcmpBf16, .fsetmBf16, bf16)]

/-- The compare of a lane, and the flags that it raises. -/
def laneCompare (fm : Fmt) (f : FmtA) (s : State) (l : Nat) : Codes := comparison fm (fA f s fm l) (fB f s fm l)
def laneNv (fm : Fmt) (f : FmtA) (s : State) (l : Nat) : Flags :=
  if isSnan fm (fA f s fm l) || isSnan fm (fB f s fm l) then flNV else 0

/-- A mask destination: lanes of E take the bits given, the others keep theirs; m0 is not written (R187). -/
def WritesMask (s t : State) (d : Nat) (e x : LaneMask) : Prop :=
  ∀ k, k ≠ 0 → t.m k = if k = d ∧ e ≠ 0 then x else s.m k

/-- A compare code of MOD on codes (R139). -/
def codeHolds (f : FmtA) (k : Codes) : Bool := condHolds (.ofCode (BitVec.ofNat 4 (f.md.toNat / 4 % 16))) k.c k.z k.n k.v

/-! ### PAIR -/

/-- Operands of a half in lane l (R51): SB from either file. -/
def halfA (c : Compact) (s : State) (l : Nat) : Nat := (s.v c.sa.toNat l).toNat
def halfB (c : Compact) (s : State) (l : Nat) : Nat := if c.kb then (s.u c.sb.toNat).toNat else (s.v c.sb.toNat l).toNat
def halfC (c : Compact) (s : State) (l : Nat) : Nat := (s.v c.sc.toNat l).toNat
def halfResult (c : Compact) (s : State) (l : Nat) : FRes := pairRes c (halfA c s l) (halfB c s l) (halfC c s l)

/-! ### Cross-lane words -/

/-- The lane from which a shuffle of a form takes lane l's value, in segments of w lanes (R190, R192). -/
inductive ShuffleForm where
  | idx | xor | up | down
  deriving DecidableEq, Repr

def ShuffleForm.source (k : ShuffleForm) (w l d : Nat) : Option Nat :=
  let base := l / w * w
  match k with
  | .idx => some (base + d % w)
  | .xor => some (base + Nat.xor (l % w) (d % w))
  | .up => if d ≤ l % w then some (l - d) else none
  | .down => if l % w + d < w then some (l + d) else none

noncomputable def shuffles : List ((FmtA → Instr) × ShuffleForm) := [
  (.shflIdx, .idx), (.shflXor, .xor), (.shflUp, .up), (.shflDown, .down)]

/-- The source lane of a shuffle, where it executes. -/
def shuffleFrom (k : ShuffleForm) (f : FmtA) (s : State) (l : Nat) : Option Nat :=
  (k.source (32 / 2 ^ (f.md.toNat % 8)) l ((s.src32 f f.sb l).toNat % 32)).filter fun j => inSet (s.execSet f.cond) j

def shuffled (k : ShuffleForm) (f : FmtA) (s : State) (l : Nat) : Word := s.src32 f f.sa ((shuffleFrom k f s l).getD l)

/-- The lanes whose SA is not 0. -/
def trueLanes (f : FmtA) (s : State) : LaneMask := laneSet fun l => inSet (s.execSet f.cond) l && s.src32 f f.sa l != 0

/-- All executing lanes read the same SA. -/
def allSame (f : FmtA) (s : State) : Bool :=
  (lanesOf (s.execSet f.cond)).all fun l => (lanesOf (s.execSet f.cond)).all fun k => s.src32 f f.sa l == s.src32 f f.sa k

/-- The masks that the votes write (R193). -/
noncomputable def votes : List ((FmtA → Instr) × (FmtA → State → LaneMask)) := [
  (.voteAny, fun f s => if trueLanes f s = 0 then 0 else s.execSet f.cond),
  (.voteAll, fun f s => if trueLanes f s = s.execSet f.cond then s.execSet f.cond else 0),
  (.voteBallot, trueLanes),
  (.voteEq, fun f s => if allSame f s then s.execSet f.cond else 0)]

/-- The values of the executing lanes. -/
def laneVals (f : FmtA) (s : State) : List Word := (lanesOf (s.execSet f.cond)).map fun l => s.src32 f f.sa l

/-- A sum clamped with SAT, as unsigned or signed words say (R194, R195). -/
def clampSum (f : FmtA) (x : Int) : Word :=
  let u := f.md.getLsbD 2
  let lo : Int := if u then 0 else -(2 ^ 31)
  let hi : Int := if u then 2 ^ 32 - 1 else 2 ^ 31 - 1
  BitVec.ofInt 32 (if f.md.getLsbD 4 then max lo (min hi x) else x)

def asInt (f : FmtA) (x : Word) : Int := if f.md.getLsbD 2 then x.toNat else x.toInt

/-- Reductions whose result does not depend on the order (R194). -/
noncomputable def reductions : List ((FmtA → Instr) × (FmtA → State → Word)) := [
  (.wredIadd, fun f s => clampSum f ((laneVals f s).map (asInt f)).sum),
  (.wredAnd, fun f s => (laneVals f s).foldl (· &&& ·) 0xFFFFFFFF),
  (.wredOr, fun f s => (laneVals f s).foldl (· ||| ·) 0),
  (.wredXor, fun f s => (laneVals f s).foldl (· ^^^ ·) 0)]

/-- A reduction's result goes to every executing lane, or with UD once to a uniform register (R194). -/
def PutsReduced (f : FmtA) (s t : State) (x : Word) : Prop :=
  if f.md.getLsbD 6 = true then t.w.v = s.w.v ∧ WritesUniform s t f.dst.toNat (if s.execSet f.cond = 0 then [] else [x])
  else t.w.u = s.w.u ∧ WritesLanes s t (s.execSet f.cond) f.dst.toNat fun _ => [x]

/-- A register word's frame: masks, codes and flags as before. -/
def NoFlags (s t : State) : Prop := t.w.m = s.w.m ∧ SameFlags s t ∧ ∀ l, t.codes l = s.codes l

/-- The executing lanes up to lane l, or with EX those below it (R195). -/
def scanLanes (f : FmtA) (s : State) (l : Nat) : List Nat :=
  (lanesOf (s.execSet f.cond)).filter fun k => if f.md.getLsbD 5 then decide (k < l) else decide (k ≤ l)

/-- A fold of FADD over values in order, with the flags of every addition (R195). -/
def fsum (rm : Rm) : List Nat → FRes
  | [] => { bits := 0 }
  | x :: xs => xs.foldl (fun a b => let c := fAdd f32 rm a.bits b
                                    { bits := c.bits, fl := a.fl ||| c.fl }) { bits := x }

/-- The tree of R194 over 2^k lanes from `lo`: halves combined, an empty half skipped; with the flags of every combination. -/
def treeOf (e : LaneMask) (x : Nat → Nat) (g : Nat → Nat → FRes) (lo : Nat) : Nat → Option FRes
  | 0 => if inSet e lo then some { bits := x lo } else none
  | k + 1 =>
    match treeOf e x g lo k, treeOf e x g (lo + 2 ^ k) k with
    | some a, some b => let c := g a.bits b.bits
                        some { bits := c.bits, fl := a.fl ||| b.fl ||| c.fl }
    | some a, none => some a
    | none, y => y

/-- A reduction of floats (R194): what combines two values, whether it is one with MOD's F alone, and the flags of one value that
nothing combines. -/
structure FloatReduction where
  word  : FmtA → Instr
  comb  : FmtA → Nat → Nat → FRes
  withF : Bool
  alone : Nat → Flags

noncomputable def floatReductions : List FloatReduction := [
  { word := .wredFadd, comb := fun f => fAdd f32 (modeOf f), withF := false, alone := fun _ => 0 },
  { word := .wredMin, comb := fun _ => fMin f32, withF := true, alone := fun x => snanFl f32 [x] },
  { word := .wredMax, comb := fun _ => fMax f32, withF := true, alone := fun x => snanFl f32 [x] }]

/-- Its result over the executing lanes, and the flags that it raises. -/
def FloatReduction.res (p : FloatReduction) (f : FmtA) (s : State) : FRes :=
  (treeOf (s.execSet f.cond) (fA f s f32) (p.comb f) 0 5).getD { bits := 0 }
def FloatReduction.up (p : FloatReduction) (f : FmtA) (s : State) : Flags :=
  match lanesOf (s.execSet f.cond) with
  | [l] => p.alone (fA f s f32 l)
  | _ => (p.res f s).fl

/-- The flags of WSCAN.fadd: those of every addition over the executing lanes (R195). -/
def scanFlags (f : FmtA) (s : State) : Flags := (fsum (modeOf f) ((lanesOf (s.execSet f.cond)).map (fA f s f32))).fl

/-- A trap of an enabled flag after the word: the sticky flags hold what was raised, and the handler is entered (R76, R463). -/
def FlagTrap (f : FmtA) (s t : State) (thv : Word64) (up : Flags) : Prop :=
  t.w.sticky = s.w.sticky ||| up ∧ t.w.th.cause = 4 ∧ t.w.th.amask = s.m0 ∧ t.w.th.epc = s.pc.setWidth 56
    ∧ t.w.th.info = infoWord 0 0 (up &&& s.ten)
    ∧ t.w.shadow = some { lanes := resumed s (nextWord s.pc (fmtLen f)) (placeAfter s), rcb := s.w.rcb, sync := s.w.sync }
    ∧ t.w.lanes = List.replicate 32 { st := .ready, pc := thv } ∧ t.w.run = none ∧ t.w.inHandler = true

/-- A source of MLOP (R196): a lane field of 0 reads as zero. -/
def maskSource (f : FmtA) (s : State) (o : Src) : Word :=
  match o with
  | .lane _ => 0
  | o => s.usrc32 f o

/-- The sign bit of a format where a value is negative. -/
def signOf (fm : Fmt) (neg : Bool) : Nat := if neg then fm.signBit else 0

/-- The encoding between `down` and the next one that a mode gives a magnitude of at least the one and less than the other, of a
sign (R71): `low` where it is below the middle between them, `tie` where it is there, `exact` where it is the lower one's. -/
def roundedTo (rm : Rm) (neg low tie exact : Bool) (down : Nat) : Nat :=
  match rm with
  | .rne => if low || (tie && down % 2 == 0) then down else down + 1
  | .rtz => down
  | .rdn => if neg && !exact then down + 1 else down
  | .rup => if !neg && !exact then down + 1 else down

/-- What overflow gives (R72): infinity or the largest finite value. -/
def overflowTo (fm : Fmt) (rm : Rm) (neg : Bool) : Nat :=
  match rm with
  | .rne => fm.infBits
  | .rtz => fm.infBits - 1
  | .rdn => if neg then fm.infBits else fm.infBits - 1
  | .rup => if neg then fm.infBits - 1 else fm.infBits

/-- The magnitude of an encoding of a format, as a rational; that of infinity is the next step past the greatest (R65, R66). -/
noncomputable def magnitude (fm : Fmt) (x : Nat) : ℚ :=
  let ex := x / 2 ^ (fm.p - 1)
  let fr := x % 2 ^ (fm.p - 1)
  (if ex = 0 then (fr : ℚ) else (2 ^ (fm.p - 1) + fr : ℚ)) * (2 : ℚ) ^ ((max ex 1 : Int) - fm.bias - fm.p + 1)

end Sys2Proof.Slice0
end

