-- ==== Sys2Proof/Certificates/Slice0/IntegerTable.lean ====
section
/-! DEFINITION. The integer class in the terms of R78, R79 and R133 to R159, for the statements: the exact value of each word over
the readings of its operands, the words written and the codes, on bit vectors and integers. -/

namespace Sys2Proof.Slice0

open Sys2Proof.Machine

/-- A bit vector read as signed, or as unsigned where `u`. -/
def rd (u : Bool) {n : Nat} (x : BitVec n) : Int := if u then x.toNat else x.toInt

/-- Least and greatest value of the n-bit type. -/
def least (u : Bool) (n : Nat) : Int := if u then 0 else -(2 ^ (n - 1))
def greatest (u : Bool) (n : Nat) : Int := if u then 2 ^ n - 1 else 2 ^ (n - 1) - 1

/-- The range test of R133. -/
def outside (u : Bool) (n : Nat) (x : Int) : Bool := decide (x < least u n) || decide (greatest u n < x)

/-- The value written for an exact one: wrapped, or clamped with .sat (R78). -/
def fit (u sat : Bool) (n : Nat) (x : Int) : BitVec n :=
  BitVec.ofInt n (if sat then max (least u n) (min (greatest u n) x) else x)

/-- N and Z of a pattern, with C and V as given (R133). -/
def nz {n : Nat} (x : BitVec n) (c v : Bool) : Codes := { c := c, z := decide (x = 0), n := x.msb, v := v }

/-- A pair as two words, the low one first (R67). -/
def halves (x : Word64) : List Word := [x.setWidth 32, x.extractLsb' 32 32]

/-- What a word of the class does in a lane: the words of its destination, and the codes where they are written. -/
structure LaneOp where
  word  : FmtA → Instr
  res   : FmtA → State → Nat → List Word
  codes : FmtA → State → Nat → Codes

section
variable (f : FmtA) (s : State) (l : Nat)

/-- The operands of a lane. -/
def a32 : Word := s.src32 f f.sa l
def b32 : Word := s.src32 f f.sb l
def c32 : Word := s.src32 f f.sc l
def a64 : Word64 := s.src64 f f.sa l
def b64 : Word64 := s.src64 f f.sb l
def c64 : Word64 := s.src64 f f.sc l
/-- U, SAT and X of MOD (R136). -/
def uBit : Bool := f.md.getLsbD 1
def satBit : Bool := f.md.getLsbD 0
def xField : Nat := (f.md.extractLsb' 2 4).toNat
def old : Codes := s.codes l
end

/-- The sum or difference of R140. -/
def sum {n : Nat} (sub u : Bool) (a b : BitVec n) : Int := if sub then rd u a - rd u b else rd u a + rd u b
def sumCodes {n : Nat} (sub u : Bool) (a b : BitVec n) : Codes :=
  nz (BitVec.ofInt n (sum sub u a b)) (if sub then decide (b.toNat ≤ a.toNat) else decide (2 ^ n ≤ a.toNat + b.toNat))
    (outside u n (sum sub u a b))

/-- IADD and ISUB, of 32 and 64 bits: NEG exchanges them (R140). -/
def addOp (mk : FmtA → Instr) (sub : Bool) : LaneOp where
  word := mk
  res f s l := [fit (uBit f) (satBit f) 32 (sum (sub != f.neg) (uBit f) (a32 f s l) (b32 f s l))]
  codes f s l := sumCodes (sub != f.neg) (uBit f) (a32 f s l) (b32 f s l)
def addOp64 (mk : FmtA → Instr) (sub : Bool) : LaneOp where
  word := mk
  res f s l := halves (fit (uBit f) (satBit f) 64 (sum (sub != f.neg) (uBit f) (a64 f s l) (b64 f s l)))
  codes f s l := sumCodes (sub != f.neg) (uBit f) (a64 f s l) (b64 f s l)

/-- IADDC and ISUBB (R141). -/
def one (b : Bool) : Nat := if b then 1 else 0
def addcX (f : FmtA) (s : State) (l : Nat) : Int := rd (uBit f) (a32 f s l) + rd (uBit f) (b32 f s l) + one (old s l).c
def subbX (f : FmtA) (s : State) (l : Nat) : Int := rd (uBit f) (a32 f s l) - rd (uBit f) (b32 f s l) - (1 - one (old s l).c)

/-- IADD3 (R142). -/
def add3X (u neg : Bool) (f : FmtA) (s : State) (l : Nat) : Int :=
  rd u (a32 f s l) + (if neg then -rd u (b32 f s l) else rd u (b32 f s l)) + rd u (c32 f s l)

/-- The exact product of R144, of a and −b with NEG. -/
def prodX (u neg : Bool) (f : FmtA) (s : State) (l : Nat) : Int :=
  rd u (a32 f s l) * (if neg then -rd u (b32 f s l) else rd u (b32 f s l))

/-- A word with an exact value, and C as given (R133). -/
def exactOp (mk : FmtA → Instr) (u : FmtA → Bool) (x : FmtA → State → Nat → Int) (sat : FmtA → Bool)
    (c : FmtA → State → Nat → Bool) : LaneOp where
  word := mk
  res f s l := [fit (u f) (sat f) 32 (x f s l)]
  codes f s l := nz (BitVec.ofInt 32 (x f s l)) (c f s l) (outside (u f) 32 (x f s l))

/-- A word whose codes describe the value written, C and V as given. -/
def valueOp (mk : FmtA → Instr) (x : FmtA → State → Nat → Word) (c v : FmtA → State → Nat → Bool := fun _ _ _ => false) :
    LaneOp where
  word := mk
  res f s l := [x f s l]
  codes f s l := nz (x f s l) (c f s l) (v f s l)
def valueOp64 (mk : FmtA → Instr) (x : FmtA → State → Nat → Word64) (c : FmtA → State → Nat → Bool := fun _ _ _ => false) :
    LaneOp where
  word := mk
  res f s l := halves (x f s l)
  codes f s l := nz (x f s l) (c f s l) false

/-- A word that writes no codes. -/
def plainOp (mk : FmtA → Instr) (x : FmtA → State → Nat → Word) : LaneOp where
  word := mk
  res f s l := [x f s l]
  codes _ s l := old s l
def plainOp64 (mk : FmtA → Instr) (x : FmtA → State → Nat → Word64) : LaneOp where
  word := mk
  res f s l := halves (x f s l)
  codes _ s l := old s l

/-- The high word of a product. -/
def hiWord (x : Int) : Word := (BitVec.ofInt 64 x).extractLsb' 32 32

/-- Division by R79: the quotient, the remainder and V. -/
def quot (u sat : Bool) (a b : Word) : Word :=
  if b = 0 then (if u = true ∨ a.slt 0 = false then (if u then 0xFFFFFFFF else 0x7FFFFFFF) else 0x80000000)
  else if u = false ∧ a = 0x80000000 ∧ b = 0xFFFFFFFF then (if sat then 0x7FFFFFFF else 0x80000000)
  else BitVec.ofInt 32 ((rd u a).tdiv (rd u b))
def remd (u : Bool) (a b : Word) : Word :=
  if b = 0 then a
  else if u = false ∧ a = 0x80000000 ∧ b = 0xFFFFFFFF then 0
  else BitVec.ofInt 32 ((rd u a).tmod (rd u b))
def divV (u : Bool) (a b : Word) : Bool :=
  decide (b = 0) || (!u && decide (a = 0x80000000) && decide (b = 0xFFFFFFFF))

/-- The add, subtract, multiply and divide words (R140 to R147). -/
def arithmetic : List LaneOp := [
  addOp .iadd false, addOp .isub true, addOp64 .iadd64 false, addOp64 .isub64 true,
  exactOp .iaddc uBit addcX (fun _ => false) fun f s l =>
    decide (2 ^ 32 ≤ (a32 f s l).toNat + (b32 f s l).toNat + one (old s l).c),
  exactOp .isubb uBit subbX (fun _ => false) fun f s l =>
    decide ((b32 f s l).toNat + 1 - one (old s l).c ≤ (a32 f s l).toNat),
  exactOp .iadd3 uBit (fun f s l => add3X (uBit f) f.neg f s l) satBit fun f s l => outside true 32 (add3X true f.neg f s l),
  plainOp64 .lea fun f s l =>
    a64 f s l + BitVec.ofInt 64 (rd (uBit f) (b32 f s l) * 2 ^ xField f),
  exactOp .imulLo uBit (fun f s l => prodX (uBit f) f.neg f s l) satBit fun _ _ _ => false,
  valueOp .imulHi fun f s l => hiWord (prodX (uBit f) false f s l),
  valueOp64 .imulWide fun f s l => BitVec.ofInt 64 (prodX (uBit f) false f s l),
  exactOp .imadLo uBit (fun f s l => prodX (uBit f) f.neg f s l + rd (uBit f) (c32 f s l)) satBit fun _ _ _ => false,
  valueOp .imadHi fun f s l => hiWord (prodX (uBit f) false f s l) + c32 f s l,
  { word := .imadWide
    res := fun f s l => halves (fit (uBit f) (satBit f) 64 (prodX (uBit f) false f s l + rd (uBit f) (c64 f s l)))
    codes := fun f s l =>
      let x := prodX (uBit f) false f s l + rd (uBit f) (c64 f s l)
      nz (BitVec.ofInt 64 x) false (outside (uBit f) 64 x) },
  valueOp .idiv (fun f s l => quot (uBit f) (satBit f) (a32 f s l) (b32 f s l)) (fun _ _ _ => false)
    fun f s l => divV (uBit f) (a32 f s l) (b32 f s l),
  valueOp .irem (fun f s l => remd (uBit f) (a32 f s l) (b32 f s l)) (fun _ _ _ => false)
    fun f s l => divV (uBit f) (a32 f s l) (b32 f s l),
  exactOp .iabs (fun _ => false) (fun f s l => |(a32 f s l).toInt|) satBit fun _ _ _ => false,
  exactOp .ineg (fun _ => false) (fun f s l => -(a32 f s l).toInt) satBit fun _ _ _ => false,
  valueOp .imin fun f s l => if rd (uBit f) (b32 f s l) < rd (uBit f) (a32 f s l) then b32 f s l else a32 f s l,
  valueOp .imax fun f s l => if rd (uBit f) (a32 f s l) < rd (uBit f) (b32 f s l) then b32 f s l else a32 f s l,
  valueOp64 .imin64 fun f s l => if rd (uBit f) (b64 f s l) < rd (uBit f) (a64 f s l) then b64 f s l else a64 f s l,
  valueOp64 .imax64 fun f s l => if rd (uBit f) (a64 f s l) < rd (uBit f) (b64 f s l) then b64 f s l else a64 f s l]

/-- Byte i of a word. -/
def byteI (x : Word) (i : Nat) : BitVec 8 := x.extractLsb' (8 * i) 8
def sumBytes (g : Nat → Int) : Int := g 0 + g 1 + g 2 + g 3

/-- The value of a lane where the compare code holds on its codes, else the other (R139, R150). -/
def selOf {n : Nat} (f : FmtA) (s : State) (l : Nat) (a b : BitVec n) : BitVec n :=
  let k := old s l
  if condHolds (.ofCode (BitVec.ofNat 4 (xField f))) k.c k.z k.n k.v then a else b

/-- Selects, moves, address fields and byte sums (R150 to R154). -/
def moves : List LaneOp := [
  plainOp .sel fun f s l => selOf f s l (a32 f s l) (b32 f s l),
  plainOp64 .sel64 fun f s l => selOf f s l (a64 f s l) (b64 f s l),
  plainOp .mov fun f s l => a32 f s l,
  plainOp64 .mov64 fun f s l => a64 f s l,
  { word := .vadie
    res := fun f s l =>
      if f.md.getLsbD 4 then [BitVec.ofNat 32 ((s.owner (a64 f s l).toNat).getD 0xFFFFFFFF)]
      else halves ((0 : BitVec 8) ++ (b32 f s l).extractLsb' 0 4 ++ (a64 f s l).extractLsb' 0 52)
    codes := fun _ s l => old s l },
  exactOp .idp4 (fun _ => false) (fun f s l => (c32 f s l).toInt + sumBytes fun i =>
    rd (uBit f) (byteI (a32 f s l) i) * rd (f.md.getLsbD 4) (byteI (b32 f s l) i)) satBit fun _ _ _ => false,
  exactOp .sad (fun _ => true) (fun f s l => (c32 f s l).toNat + sumBytes fun i =>
    |rd (uBit f) (byteI (a32 f s l) i) - rd (uBit f) (byteI (b32 f s l) i)|) satBit fun _ _ _ => false]

/-- The bit last shifted out (R156). -/
def lastOut {n : Nat} (a : BitVec n) (k j : Nat) (far : Bool) : Bool := if k = 0 then false else if k ≤ n then a.getLsbD j else far
def amount (f : FmtA) (s : State) (l : Nat) : Nat := (b32 f s l).toNat

/-- Position and width of a field (R157). -/
def pOf (ctl : Word) : Nat := min (ctl.extractLsb' 0 8).toNat 32
def wOf (ctl : Word) : Nat := min (ctl.extractLsb' 8 8).toNat (32 - pOf ctl)

/-- The field of a, extended as U says (R157). -/
def fieldOf (u : Bool) (a ctl : Word) : Word :=
  if wOf ctl = 0 then 0
  else if u then (a.extractLsb' (pOf ctl) (wOf ctl)).setWidth 32 else (a.extractLsb' (pOf ctl) (wOf ctl)).signExtend 32

/-- Bit functions (R155, R157, R158): the word whose bit j is given. -/
def ofBits (p : Nat → Bool) : Word := BitVec.ofFnLE fun j : Fin 32 => p j
def insertField (a b ctl : Word) : Word :=
  ofBits fun j => if pOf ctl ≤ j ∧ j < pOf ctl + wOf ctl then b.getLsbD (j - pOf ctl) else a.getLsbD j

/-- The three-input function (R155). -/
def table3 (t : BitVec 8) (a b c : Word) : Word :=
  ofBits fun j => t.getLsbD (4 * one (a.getLsbD j) + 2 * one (b.getLsbD j) + one (c.getLsbD j))

/-- Byte i of BPERM (R159). -/
def permByte (a b c : Word) (i : Nat) : BitVec 8 :=
  let j := (c.extractLsb' (4 * i) 3).toNat
  let x := if j < 4 then byteI a j else byteI b (j - 4)
  if c.getLsbD (4 * i + 3) then (if x.msb then 0xFF else 0) else x

/-- Logic, shifts and bit fields (R155 to R159). -/
def bitwise : List LaneOp := [
  valueOp .and fun f s l => a32 f s l &&& b32 f s l,
  valueOp .or fun f s l => a32 f s l ||| b32 f s l,
  valueOp .xor fun f s l => a32 f s l ^^^ b32 f s l,
  valueOp .andn fun f s l => a32 f s l &&& ~~~(b32 f s l),
  valueOp .lop3 fun f s l => table3 f.md (a32 f s l) (b32 f s l) (c32 f s l),
  valueOp .shl (fun f s l => a32 f s l <<< amount f s l) fun f s l =>
    lastOut (a32 f s l) (amount f s l) (32 - amount f s l) false,
  valueOp .shr (fun f s l => a32 f s l >>> amount f s l) fun f s l =>
    lastOut (a32 f s l) (amount f s l) (amount f s l - 1) false,
  valueOp .sar (fun f s l => (a32 f s l).sshiftRight (amount f s l)) fun f s l =>
    lastOut (a32 f s l) (amount f s l) (amount f s l - 1) (a32 f s l).msb,
  valueOp .rot fun f s l =>
    if f.md.getLsbD 4 then (a32 f s l).rotateRight (amount f s l % 32) else (a32 f s l).rotateLeft (amount f s l % 32),
  valueOp64 .shl64 (fun f s l => a64 f s l <<< amount f s l) fun f s l =>
    lastOut (a64 f s l) (amount f s l) (64 - amount f s l) false,
  valueOp64 .shr64 (fun f s l => a64 f s l >>> amount f s l) fun f s l =>
    lastOut (a64 f s l) (amount f s l) (amount f s l - 1) false,
  valueOp64 .sar64 (fun f s l => (a64 f s l).sshiftRight (amount f s l)) fun f s l =>
    lastOut (a64 f s l) (amount f s l) (amount f s l - 1) (a64 f s l).msb,
  valueOp .bfx fun f s l => fieldOf (uBit f) (a32 f s l) (b32 f s l),
  valueOp .bfi fun f s l => insertField (a32 f s l) (b32 f s l) (c32 f s l),
  valueOp .popc fun f s l => BitVec.ofNat 32 ((List.range 32).countP fun j => (a32 f s l).getLsbD j),
  valueOp .clz fun f s l => BitVec.ofNat 32 (((List.range 32).find? fun j => (a32 f s l).getLsbD (31 - j)).getD 32),
  valueOp .ctz fun f s l => BitVec.ofNat 32 (((List.range 32).find? fun j => (a32 f s l).getLsbD j).getD 32),
  valueOp .brev fun f s l => ofBits fun j => (a32 f s l).getLsbD (31 - j),
  plainOp .bperm fun f s l =>
    permByte (a32 f s l) (b32 f s l) (c32 f s l) 3 ++ permByte (a32 f s l) (b32 f s l) (c32 f s l) 2
      ++ permByte (a32 f s l) (b32 f s l) (c32 f s l) 1 ++ permByte (a32 f s l) (b32 f s l) (c32 f s l) 0]

/-- A word of the class completes: its destination and its codes in the executing lanes, and nothing else (R133, R134). -/
def LaneOp.Completes (o : LaneOp) (f : FmtA) (s : State) : Prop :=
  ∃ t, exec (o.word f) s = .next t ∧ WritesLanes s t (s.execSet f.cond) f.dst.toNat (o.res f s)
    ∧ WritesCodes s t f.wcc (s.execSet f.cond) (o.codes f s) ∧ t.w.u = s.w.u ∧ t.w.m = s.w.m ∧ SameFlags s t
    ∧ Moved s t (fmtLen f) ∧ Kept s t

end Sys2Proof.Slice0
end

