-- ==== Sys2Proof/Certificates/Slice0/ResultTable.lean ====
section
/-! DEFINITION. The results of matrix, ray and reservoir operations (R304, R318 to R328, R336, R337, R340 to R343, R357 to R364,
R383 to R389), for the statement about the engines' steps. -/

namespace Sys2Proof.Slice0

open Sys2Proof.Machine

/-! ### The matrix engine -/

/-- The operation has taken one step more. -/
def Stepped (t : State) (o : Op) : Prop := ∀ q ∈ t.c.mtxq, q.id = o.id → q.chunk = o.chunk + 1

/-- The machine in which a load takes a column: its first column begins the plane (R318, R319). -/
def loadBegun (s0 : State) (o : Op) : State :=
  if o.chunk = 0 then
    s0.updMtx fun m => if o.code = 0x150 then m.beginLoad (slotFmtOf (s0.fslot (mtxSlot o.x)) 1) (mtxC0 o.x) (mtxNc o.x) else m.makeQ4
  else s0

/-- Element k of a 16-bit column, scaled as its slot says (R318). -/
def element (slot : Word64) (bs : List Byte) (k : Nat) : FVal :=
  if slotSS slot 1 = 2 ∧ slotTen slot 1 = 255 then .nan
  else (fval (if slotFmtOf slot 1 = 2 then f16 else bf16) (leNat [(bs[2 * k]?).getD 0, (bs[2 * k + 1]?).getD 0])).scale
    (if slotSS slot 1 = 2 then (slotTen slot 1 : Int) - 127 else 0)

/-- The form in which a 16-bit weight is held under a block's exponent (R302, R318). -/
def heldAs (emax : Int) (v : FVal) : BitVec 15 :=
  match v with
  | .fin sg _ _ => elemFinite sg (alignMag 12 emax v)
  | .inf sg => elemInf sg
  | .nan => elemNan

/-- Scale j of a column's array (R319). -/
def scaleWord (bs : List Byte) (j : Nat) : Nat := leNat ((bs.drop (4 * (j / 3))).take 4) / 2 ^ (10 * (j % 3)) % 1024

/-- A column of the load plane, as its bytes give it; the first column of WLD sets the plane's tag and clears what lies outside the
window (R318), and that of WSCL makes the plane Q4 (R319). -/
def ColumnLoaded (s0 t : State) (o : Op) (bs : List Byte) : Prop :=
  let slot := s0.fslot (mtxSlot o.x)
  let p := s0.c.mtx.load
  let n := 32 * mtxC0 o.x + o.chunk
  let m := t.c.mtx
  let outside (j : Nat) : Prop := j < 32 * mtxC0 o.x ∨ 32 * (mtxC0 o.x + mtxNc o.x) ≤ j
  Stepped t o ∧ m.plane = s0.c.mtx.plane
  ∧ (o.code = 0x150 → slotFmtOf slot 1 = 4 →
      (∀ k < 256, m.cells.get 0 (cellKey p k n) = BitVec.ofNat 4 (((bs[k / 2]?).getD 0).toNat / 16 ^ (k % 2)))
      ∧ (∀ b < 8, m.blocks.get 0 (blkKey p b n) = wldBlock slot)
      ∧ (o.chunk = 0 → ∀ k < 256, ∀ j < 512, outside j → m.cells.get 0 (cellKey p k j) = 0))
  ∧ (o.code = 0x150 → slotFmtOf slot 1 ≠ 4 →
      (∀ b < 8, let emax := alignMax ((List.range 32).map fun i => element slot bs (32 * b + i))
        m.blocks.get 0 (blkKey p b n) = blkMake 0 (some emax)
        ∧ ∀ i < 32, m.elems.get 0 (elemKey p (32 * b + i) n) = heldAs emax (element slot bs (32 * b + i)))
      ∧ (o.chunk = 0 → n < 128 → ∀ k < 256, ∀ j < 128, outside j → m.elems.get 0 (elemKey p k j) = 0))
  ∧ (o.code = 0x150 → o.chunk = 0 → m.tagOf p = tagOfFmt (slotFmtOf slot 1))
  ∧ (o.code = 0x158 →
      (∀ b < 8, m.blocks.get 0 (blkKey p b n)
          = blkMake (q4Type slot 1 (scaleWord bs (mtxMode o.x + b))) (scaleK slot 1 (scaleWord bs (mtxMode o.x + b))))
      ∧ (o.chunk = 0 → m.tagOf p = tagQ4)
      ∧ (s0.c.mtx.tagOf p = tagQ4 → m.cells = s0.c.mtx.cells))

/-- The accumulator that row i of a pass over the values `as` leaves in column j of its window, with its flags (R304): the column's
term, or the sum with what it held. -/
def accumulated (s0 : State) (o : Op) (as : List FVal) (i j : Nat) : FRes :=
  let sat := slotSat (s0.fslot (mtxSlot o.x))
  let term := segTerm sat as ((List.range 256).map fun k => s0.c.mtx.weight k (32 * mtxC0 o.x + j))
  if mtxMode o.x % 2 = 1 then term
  else
    let q := accAdd sat (s0.sWord (o.accb + i * o.cpitch + 4 * j)) term.bits
    { q with fl := q.fl ||| term.fl }

/-- A row of a pass: its accumulators in scratch, and its flags in the status (R304, R305). -/
def RowPassed (s0 t : State) (o : Op) (as : List FVal) : Prop :=
  Stepped t o
  ∧ WritesScratch s0 t (o.accb + o.chunk * o.cpitch)
      ((List.range (32 * mtxNc o.x)).flatMap fun j => leBytes 4 (accumulated s0 o as o.chunk j).bits)
  ∧ t.c.mtx = (List.range (32 * mtxNc o.x)).foldl (fun m j =>
      let r := accumulated s0 o as o.chunk j
      m.orStat r.fl (isNan f32 r.bits)) s0.c.mtx

/-- The values of row r of a block row: each tile's where it lies, and zero between them (R323). -/
def tileRow (s0 : State) (o : Op) (tiles : List (Nat × List Nat)) (r : Nat) : List FVal :=
  s0.aValues o fun k => some (match tiles.find? fun q => q.1 == k / 32 with
    | some q => (q.2[32 * r + k % 32]?).getD 0
    | none => 0)

/-- The 32 rows of a block row are passed, and no other byte of scratch is changed (R323). -/
def BlockRowPassed (s0 t : State) (o : Op) (row : Nat) (tiles : List (Nat × List Nat)) : Prop :=
  let at_ (r : Nat) : Nat := o.accb + (32 * row + r) * o.cpitch
  (∀ r < 32, ∀ j < 32 * mtxNc o.x, ∀ i < 4,
      t.g.scratch.get 0 (at_ r + 4 * j + i)
        = ((leBytes 4 (accumulated s0 o (tileRow s0 o tiles r) (32 * row + r) j).bits)[i]?).getD 0)
  ∧ ∀ x, (∀ r < 32, ¬(at_ r ≤ x ∧ x < at_ r + 128 * mtxNc o.x)) → t.g.scratch.get 0 x = s0.g.scratch.get 0 x

/-- The output element that MACR forms of an accumulator (R326). -/
def converted (s0 : State) (o : Op) (j : Nat) : FRes :=
  let slot := s0.fslot (mtxSlot o.x)
  let fm := if slotFmtOf slot 2 = 1 then f32 else if slotFmtOf slot 2 = 2 then f16 else bf16
  let v := fval f32 (s0.sWord (o.accb + o.chunk * o.cpitch + 4 * j))
  if slotSS slot 2 = 2 then
    (if slotTen slot 2 = 255 then .nan fm else roundV fm .rne (slotSat slot) (v.scale (127 - (slotTen slot 2 : Int))))
  else roundV fm .rne (slotSat slot) v

/-- The bytes of a row of MACR. -/
def convertedRow (s0 : State) (o : Op) : List Byte :=
  (List.range (32 * mtxNc o.x)).flatMap fun j => leBytes (outSize (slotFmtOf (s0.fslot (mtxSlot o.x)) 2)) (converted s0 o j).bits

/-- The fields of an entry of MSPASS (R323). -/
def entryRow (e : Word128) : Nat := (e.extractLsb' 64 16).toNat
def entryKb (e : Word128) : Nat := (e.extractLsb' 80 3).toNat

/-- What the operations of the matrix engine leave: loads and scales a column at a time (R318, R319), passes a row or an entry at a
time (R321 to R323), outputs (R326), prefetched entries (R324) and the words that act once (R320, R327, R328). -/
def MatrixResults (s : State) : Prop :=
  ∀ id o s0, InFocus s id o s0 → MtxTurn s0 o →
    let run (P : State → Prop) : Prop := ∃ t, exec (.matrixOperationStart id) s = .next t ∧ P t
    (mtxLoad o.code = true →
      (o.x.space ≠ 2 → (∀ p ∈ pagesOf (o.colAddr o.chunk) (s0.colBytes o), s0.heldAt p .read = false) →
        s0.warpFirst o (o.colAddr o.chunk) (s0.colBytes o) = false → ∀ s1 xs,
        checkPieces (loadBegun s0 o) .read (pagesOf (o.colAddr o.chunk) (s0.colBytes o)) = (s1, some (.ok xs)) → s1.bad = [] →
        run fun t => ColumnLoaded s0 t o (s1.engineRead o.kept xs (o.colAddr o.chunk) (s0.colBytes o)))
      ∧ (o.x.space = 2 → ∀ s1 bs k, (loadBegun s0 o).takeInput o (s0.mtxCount o) = some (s1, bs) → o.chanNamed = some k →
        run fun t => ColumnLoaded s0 t o bs ∧ (t.chan k).cp = (s0.chan k).cp + BitVec.ofNat 32 (s0.mtxCount o)))
    ∧ (o.code = 0x151 → run fun t => t.c.mtx = { s0.c.mtx with plane := 1 - s0.c.mtx.plane })
    ∧ (o.code = 0x152 → run fun t => RowPassed s0 t o (s0.aRow o fun k => o.aoff + o.chunk * o.apitch + 2 * k))
    ∧ (o.code = 0x153 → ∀ s1 bs k, s0.takeInput o (64 * o.kblk) = some (s1, bs) → o.chanNamed = some k →
        run fun t => RowPassed s0 t o (s0.aValues o fun k =>
            if k < 32 * o.kblk then some (leNat [(bs[2 * k]?).getD 0, (bs[2 * k + 1]?).getD 0]) else none)
          ∧ (t.chan k).cp = (s0.chan k).cp + BitVec.ofNat 32 (64 * o.kblk))
    ∧ (o.code = 0x154 →
        let row := (o.aux[0]?).getD 0 - 1
        let tiles := tilesOf 8 (o.aux.drop 2)
        (o.chunk = o.pb 6 → tiles ≠ [] → 128 * mtxNc o.x ≤ o.cpitch → run fun t => BlockRowPassed s0 t o row tiles)
        ∧ ∀ s1 e, o.chunk < o.pb 6 → s0.mspEntry o = (s1, some (.ok e), none) →
            (badEntry o.nrow o.aux e = true → run fun t => Stepped t o ∧ t.g.scratch = s0.g.scratch
              ∧ t.c.mtx = { s1.c.mtx with
                  mstat := s1.c.mtx.mstat ||| 0x40
                  bidx := if s1.c.mtx.bidx = 0xFFFFFFFF then BitVec.ofNat 32 o.chunk else s1.c.mtx.bidx })
            ∧ (badEntry o.nrow o.aux e = false → (o.aux[0]?).getD 0 ≠ entryRow e + 1 → 2 < o.aux.length → tiles ≠ [] →
                128 * mtxNc o.x ≤ o.cpitch → run fun t => BlockRowPassed s0 t o row tiles
                  ∧ ∀ q ∈ t.c.mtxq, q.id = id → q.chunk = o.chunk ∧ q.aux = o.aux.take 2)
            ∧ (badEntry o.nrow o.aux e = false → (o.aux[0]?).getD 0 = entryRow e + 1 ∨ o.aux.length ≤ 2 →
                (e.getLsbD 88 = true → run fun t => Stepped t o ∧ t.g.scratch = s0.g.scratch
                  ∧ t.c.mtx = { s1.c.mtx with mstat := s1.c.mtx.mstat ||| 0x20 })
                ∧ ∀ s2 bs, e.getLsbD 88 = false → s1.takeInput o 2048 = some (s2, bs) → s1.bad = [] →
                    run fun t => Stepped t o ∧ t.g.scratch = s0.g.scratch
                      ∧ ∀ q ∈ t.c.mtxq, q.id = id → q.aux = [entryRow e + 1, entryKb e]
                          ++ (if (o.aux[0]?).getD 0 = entryRow e + 1 then o.aux.drop 2 else [])
                          ++ entryKb e :: (List.range 1024).map fun i => leNat [(bs[2 * i]?).getD 0, (bs[2 * i + 1]?).getD 0]))
    ∧ (o.code = 0x155 → run fun t => Stepped t o
        ∧ WritesScratch s0 t (o.accb + o.chunk * o.cpitch) (List.replicate (128 * mtxNc o.x) 0))
    ∧ (o.code = 0x156 →
        (o.chanNamed = none → run fun t => Stepped t o ∧ WritesScratch s0 t (o.aoff + o.chunk * o.apitch) (convertedRow s0 o))
        ∧ ∀ k, o.chanNamed = some k → let p := (o.aux[o.chunk]?).getD 0
            (∃ r ∈ (s0.chan k).outs, r.op = o.id ∧ r.p = p ∧ r.fired = true) → run fun t => Stepped t o
              ∧ ∀ x, t.g.scratch.get 0 x = lastWrite ((convertedRow s0 o).zipIdx.map fun b => ((s0.chan k).offset (p + b.2), b.1)) x
                  (s0.g.scratch.get 0 x))
    ∧ (o.code = 0x157 → o.chunk < (o.val32 1 0).toNat → let a := (o.gAddr + 16 * o.chunk) % 2 ^ 64
        s0.heldAt a .quiet = false → s0.warpFirst o a 16 = false → ∀ s1,
        (∀ xs, checkPieces s0 .quiet (pagesOf a 16) = (s1, some (.ok xs)) → s1.bad = [] →
          ((∀ x ∈ xs, Kind.read.permitted x.leaf = true) → run fun t => Stepped t o ∧ t.c.mtx.ebuf =
            ((a, BitVec.ofNat 128 (leNat (s1.engineRead o.kept xs a 16))) :: s1.c.mtx.ebuf.filter fun q => q.1 != a).take 256)
          ∧ ((∃ x ∈ xs, Kind.read.permitted x.leaf = false) → run fun t => Stepped t o ∧ t.c.mtx = s1.c.mtx))
        ∧ ∀ e, checkPieces s0 .quiet (pagesOf a 16) = (s1, some (.error e)) → run fun t => Stepped t o ∧ t.c.mtx = s1.c.mtx)
    ∧ (o.code = 0x159 → run fun t => t.c.mtx = { s0.c.mtx with plane := mtxMode o.x % 2 })
    ∧ (o.code = 0x15A → run fun t => t.c.mtx = if mtxMode o.x = 1 then { s0.c.mtx.clear with ebuf := [] } else { s0.c.mtx with ebuf := [] })
    ∧ (o.code = 0x15B → run fun t =>
        WritesUniform s0 t o.f.dst.toNat [s0.c.mtx.statWord.setWidth 32, s0.c.mtx.statWord.extractLsb' 32 32]
        ∧ t.c.mtx = if mtxMode o.x = 1 then { s0.c.mtx with bidx := 0xFFFFFFFF, mstat := s0.c.mtx.mstat &&& ~~~0x7F } else s0.c.mtx)

/-! ### The ray unit -/

/-- The value of a ratio. -/
def ratOf (q : Ratio) : ℚ := (q.num : ℚ) / q.den

/-- The triangle test finds the point where the ray's line meets the triangle's plane, and passes exactly where it lies in the
triangle (R337). -/
def TriangleTestIsExact : Prop :=
  ∀ (o d : V3) (ws : List Word),
    let v0 := v3At ws 0
    let v1 := v3At ws 3
    let v2 := v3At ws 6
    let meets (t u v : ℚ) : Prop :=
      (o.1 : ℚ) + t * d.1 = v0.1 + u * (v1.1 - v0.1) + v * (v2.1 - v0.1)
      ∧ (o.2.1 : ℚ) + t * d.2.1 = v0.2.1 + u * (v1.2.1 - v0.2.1) + v * (v2.2.1 - v0.2.1)
      ∧ (o.2.2 : ℚ) + t * d.2.2 = v0.2.2 + u * (v1.2.2 - v0.2.2) + v * (v2.2.2 - v0.2.2)
      ∧ 0 ≤ u ∧ 0 ≤ v ∧ u + v ≤ 1
    let n := (v1.sub v0).cross (v2.sub v0)
    (∀ q, triTest o d ws = some q → n.dot d ≠ 0 ∧ meets (ratOf q.t) (ratOf q.u) (ratOf q.v) ∧ q.front = decide (n.dot d < 0))
    ∧ (triTest o d ws = none → n.dot d ≠ 0 → ∀ t u v, ¬ meets t u v)

/-- The slab test gives the interval of distances at which the ray lies in a box, and fails where there is none (R336). -/
def SlabTestIsExact : Prop :=
  ∀ (os ds los his : List Int) (t0 t1 : Ratio), 0 < t0.den → 0 < t1.den → los.length = 3 → his.length = 3 →
    let at_ (xs : List Int) (a : Nat) : Int := (xs[a]?).getD 0
    (∀ a < 3, at_ los a ≤ at_ his a) →
    let fin (n : Int) : XRatio := .fin { num := n, den := 1 }
    let within (q : ℚ) : Prop := ratOf t0 ≤ q ∧ q ≤ ratOf t1
      ∧ ∀ a < 3, (at_ los a : ℚ) ≤ at_ os a + q * at_ ds a ∧ (at_ os a : ℚ) + q * at_ ds a ≤ at_ his a
    let r := slab os ds (.fin t0) (.fin t1) (los.map fin) (his.map fin)
    (r = none → ∀ q, ¬ within q)
    ∧ ∀ te tx, r = some (te, tx) → te.k = 0 ∧ tx.k = 0 ∧ ∀ q, within q ↔ ratOf te.q ≤ q ∧ q ≤ ratOf tx.q

/-- An operation of one lane completes: the lane's registers and its traversal record are those given. -/
def RayEnds (s : State) (id : Nat) (o : Op) (s0 : State) (l : Nat) (rec_ : Trav) (ws : List Word) : Prop :=
  ∃ t, exec (.rayOperationComplete id) s = .next t ∧ Ended t o ∧ WritesLanes s0 t o.e o.f.dst.toNat (fun _ => ws) ∧ t.trav l = rec_

/-- A traversal from a record on, as far as it comes: its end, its pause or a malformed item gives the lane its registers (R340,
R341, R343). -/
def TravComes (s : State) (id : Nat) (o : Op) (s0 : State) (l : Nat) (q : Trav) : Prop :=
  let r := s0.travRun (o.begin l) s0.spills travFuel { q with st := 1 }
  let p : Trav := { r.2.2 with st := 2, seq := nextSeq r.2.2.seq }
  (∀ x, r.2.1 = .done x → RayEnds s id o s0 l { r.2.2 with st := 3, leaf := none, stack := [], cand := none } r.2.2.final)
  ∧ (∀ x h, r.2.1 = .pause x → r.2.2.cand = some h → RayEnds s id o s0 l p (p.report 2 h))
  ∧ ∀ c, r.2.1 = .malformed c → RayEnds s id o s0 l { seq := r.2.2.seq } (statOnly 4 c)

/-- The record with which TRACE and TRACE.OCC begin (R340, R342, R357). -/
def traceStart (s0 : State) (o : Op) (l : Nat) : Trav :=
  { seq := nextSeq (s0.trav l).seq, st := 1, ray := (List.range 8).map fun i => o.reg 0 i l
    flags := if o.code = 0x162 then o.val32 1 l ||| 0x1000 else o.val32 1 l, root := join2 (o.reg 2 0 l) (o.reg 2 1 l) }

/-- What TRACE, TRACE.CONT, TRACE.OCC, TRACE.END, LTWALK and LTPDF give a lane (R342, R343, R357 to R359, R363, R364). -/
def RayResults (s : State) : Prop :=
  ∀ id o s0 l, InFocus s id o s0 → InQueue s0.c.rayq o → s0.rayReady o = o.e → lanesOf o.e = [l] → o.pcm = 0 → o.begun l = false →
    let t := s0.trav l
    let ends := RayEnds s id o s0 l
    (o.code = 0x160 ∨ o.code = 0x162 → let q := traceStart s0 o l
      let still := ∀ i ∈ [4, 5, 6], units (nth0 q.ray i) = 0
      ((badRay q.ray || badFlags (o.val32 1 l)) = true → ends { seq := q.seq } (statOnly 3 0))
      ∧ ((badRay q.ray || badFlags (o.val32 1 l)) = false →
        (still ∨ q.tmin.le q.tmax = false → ends { q with st := 3 } [0, nth0 q.ray 7, 0, 0, 0, 0, 0, 0])
        ∧ (¬ still → q.tmin.le q.tmax = true →
            TravComes s id o s0 l { q with stack := [{ ref := q.root, te := q.tmin.q, inInst := false }] })))
    ∧ (o.code = 0x161 → let d := (o.val32 1 l).toNat % 4
      let q : Trav := { t with hit := if d = 1 ∨ d = 2 then t.cand else t.hit, cand := none, st := 1 }
      let stops := d = 2 ∨ d = 3 ∨ (d = 1 ∧ t.flags.getLsbD 12 = true)
      ((o.val32 0 l).toNat ≠ t.seq ∨ t.st ≠ 2 → ends t (statOnly 5 0))
      ∧ ((o.val32 0 l).toNat = t.seq → t.st = 2 →
        (stops → ends { q with st := 3, leaf := none, stack := [] } q.final) ∧ (¬ stops → TravComes s id o s0 l q)))
    ∧ (o.code = 0x163 → ends (if t.current (o.val32 0 l) = true then { seq := t.seq } else t) [])
    ∧ (o.code = 0x167 ∨ o.code = 0x168 → ∀ s1 ws, s0.lightLane o l = (s1, some (.ok ws)) → ends t ws)
    ∧ (o.code = 0x167 → let base := (join2 (o.reg 2 0 l) (o.reg 2 1 l)).toNat
      ∀ s1 ws, s0.lightNode o base 0 = (s1, some (.ok ws)) → (∀ i < 3, isFinite (o.reg 0 i l) = true) → base % 32 = 0 →
        nodeBad ws = false → (nth0 ws 7).getLsbD 0 = true → ends t [nth0 ws 5, 0x3F800000, 0, 0])

/-! ### The reservoir -/

/-- What RSVMRG, RSVNRM, RSVHALO and RSVSWAP leave (R385 to R387, R389). -/
def ReservoirResults (s : State) : Prop :=
  ∀ id o s0 g,
    (∀ l, InFocus s id o s0 → RsvTurn s0 o g → lanesOf o.e = [l] →
      let r := Rec.ofBits (recordOf s0 g o l)
      (o.code = 0x173 → let b := rsvAddr (o.reg 1 0 l).toNat
        let u := r.merge (Rec.ofBits (s0.rsvRead g s0.g.die b.lyr b.x b.y)) (clean (o.reg 1 1 l)) ((o.val32 2 l).toNat / 256)
          (capOf (o.x.ext.toNat % 2 ^ 16))
        ∃ t, exec (.reservoirOperationComplete id) s = .next t ∧ Ended t o ∧ recordOf t g o l = u.1.toBits
          ∧ t.v o.f.dst.toNat l = BitVec.ofNat 32 ((if u.2 then 1 else 0) + (if unclean (o.reg 1 1 l) then 2 else 0)))
      ∧ (o.code = 0x174 → ∃ t, exec (.reservoirOperationComplete id) s = .next t ∧ Ended t o
          ∧ recordOf t g o l = r.normalise.toBits ∧ t.v o.f.dst.toNat l = r.weight)
      ∧ (o.code = 0x175 → ∃ t, exec (.reservoirOperationComplete id) s = .next t ∧ Ended t o ∧ recordOf t g o l = 0)
      ∧ (o.code = 0x176 → (∀ v < g.nd, s0.phys v < 4 ∧ ∀ w < g.nd, s0.phys v = s0.phys w → v = w) →
          let a := rsvAddr (o.rsvA l)
          ∃ t, exec (.reservoirOperationComplete id) s = .next t ∧ Ended t o ∧ (∀ v < g.nd, (t.die v).rsv = (s0.die v).rsv)
            ∧ (g.owner a.x a.y = s0.g.die → ∀ p ∈ g.tile a.x a.y, g.owner p.1 p.2 = s0.g.die → ∀ v < g.nd,
                g.inHalo v p.1 p.2 = true →
                (t.die v).halo.get 0 (rsvKey (s0.physLayer g a.lyr) p.1 p.2) = s0.rsvAt g a.lyr p.1 p.2)
            ∧ (g.owner a.x a.y ≠ s0.g.die → ∀ v < g.nd, (t.die v).halo = (s0.die v).halo)))
    ∧ (InFocus s id o s0 → InQueue s0.c.rsvq o → s0.rsvReady o ≠ 0 → s0.geom = some g → o.code = 0x177 →
        let rot := (s0.rot + g.l - 1) % g.l
        ∃ t k, exec (.reservoirOperationComplete id) s = .next t ∧ Ended t o ∧ t.ctx = some k ∧ k.rot = BitVec.ofNat 32 rot
          ∧ ∀ v < s0.ndie, ∀ key,
              (t.die v).rsv.get 0 key = (if rsvMode o.x = 1 ∧ key / (4096 * 8192) = rot then 0 else (s0.die v).rsv.get 0 key)
              ∧ (t.die v).halo.get 0 key = (if rsvMode o.x = 1 ∧ key / (4096 * 8192) = rot then 0 else (s0.die v).halo.get 0 key))

end Sys2Proof.Slice0
end

