-- ==== Sys2Proof/Certificates/Slice0/Obligations.lean ====
section
/-! DEFINITION. The statements for the provers. -/

open Sys2Proof Sys2Proof.Machine Sys2Proof.Slice0

/-! ### Control and system words -/

/-- NOP of every length, and a word that acts for its executing lanes where none executes, only move on; BKPT halts the warp for
a debugger (R43, R131, R478, R488, R489, R493). -/
def Obligations.WordsWithoutEffectMoveOn : Prop :=
  (∀ n s, ∃ t, exec (.nop n) s = .next t
    ∧ Becomes s t (match n with
      | .w64 => 8
      | .w96 => 12
      | .w128 => 16))
  ∧ ∀ f s,
    (s.execSet f.cond = 0 → ∀ i ∈ [Instr.trap f, .bkpt f, .reth f, .ctxend f], ∃ t, exec i s = .next t ∧ Becomes s t (fmtLen f))
    ∧ (s.execSet f.cond = 0 → ∀ x, ∀ i ∈ longWords, ∃ t, exec (i f x) s = .next t ∧ Becomes s t 16)
    ∧ (zeroLanes f s = 0 → ∃ t, exec (.asrt f) s = .next t ∧ Becomes s t (fmtLen f))
    ∧ (s.execSet f.cond ≠ 0 → debuggerHere s = true →
        ∃ u, exec (.bkpt f) s = .next (onWarp u fun w => { w with halted := true }) ∧ Becomes s u (fmtLen f))

/-- Transfers move the lanes that take them to their targets and the others past the word (R114 to R119). -/
def Obligations.TransfersMoveTheirLanes : Prop :=
  ∀ o ∈ transfers, ∀ f s r, Issuing s r → o.Fetches f s → (∀ l, inSet (o.take f s) l = true → o.HeaderAt f s l = true) →
    o.Completes f s r

/-- A transfer with a target that can be fetched and holds no clause header takes the trap of R114 at the word. -/
def Obligations.TransferToNoHeaderTraps : Prop :=
  ∀ o ∈ transfers, ∀ f s r thv, Issuing s r → CanTrap s thv → o.Fetches f s →
    (∃ l, inSet (o.take f s) l = true ∧ o.HeaderAt f s l = false) →
    exec (o.word f) s = .next (inHandler (o.checks f s).1 thv 3 (infoWord 0 9)
      (laneSet fun l => inSet (o.take f s) l && !(o.HeaderAt f s l)) (resumed s r.pc (some { hdr := r.hdr, left := r.left })))

/-- A read writes its value to each executing lane, or with U once to a uniform register (R128 to R130, R491, R492, R494). -/
def Obligations.ReadsWriteTheirValue : Prop := ∀ o ∈ reads, ∀ f s, o.Completes f s

/-- A word that acts once does so where a lane executes, and else has no effect (R125 to R127, R488, R491 to R500). -/
def Obligations.OnceWordsActOnce : Prop :=
  ∀ o ∈ onceWords, ∀ f s, ActsOnce (o.word f) (fmtLen f) f.cond s (o.act f s)

/-- Words of the die class, and of the hub's that act once, do so for the word (R443, R447, R451 to R453, R514 to R519); DHOP and
DQUAD answer each lane (R515, R520). -/
def Obligations.DieAndHubWordsAct : Prop :=
  (∀ o ∈ dieWords ++ hubWords, ∀ f x s, ActsOnce (o.word f x) 16 f.cond s (o.act f s))
  ∧ ∀ p ∈ dieLaneWords, ∀ f x s, ∃ t, exec (p.1 f x) s = .next t
      ∧ WritesLanes s t (s.execSet f.cond) f.dst.toNat (fun l => [p.2 f s l]) ∧ t.w.u = s.w.u ∧ t.w.m = s.w.m
      ∧ SameFlags s t ∧ (∀ l, t.codes l = s.codes l) ∧ Moved s t 16 ∧ Kept s t

/-- DBGMSG sends a message for each executing lane where a debugger is attached, and else nothing (R495); HCALL and HCALLW enter
a mailbox that has room, and HCALLW waits with its destination held (R497). -/
def Obligations.MessagesAndHostCalls : Prop :=
  ∀ f s,
    (∃ t, exec (.dbgmsg f) s = .next t ∧ Becomes
      (if debuggerHere s = true then { s with hub := takeMessages s.hub (messages f s) } else s) t (fmtLen f))
    ∧ (s.mailboxFull = false →
        ActsOnce (.hcall f) (fmtLen f) f.cond s (posted s (callOf f s none))
        ∧ ActsOnce (.hcallw f) (fmtLen f) f.cond s (hcallwState f s))

/-- TRAP, BKPT without a debugger and a failing ASRT enter the handler, resuming after the word (R462 to R464, R489, R493);
RETH gives back what the trap shadow holds, and outside a handler takes the trap of cause 0x0E, the misuse of a system word
(R462, R490). -/
def Obligations.TrapWordsAndReturn : Prop :=
  ∀ f s thv,
    (CanTrap s thv →
      (s.execSet f.cond ≠ 0 → exec (.trap f) s = .next (trapNext s thv 1 (saNat f s) (fmtLen f) (s.execSet f.cond)))
      ∧ (s.execSet f.cond ≠ 0 → debuggerHere s = false →
          exec (.bkpt f) s = .next (trapNext s thv 2 0 (fmtLen f) (s.execSet f.cond)))
      ∧ (zeroLanes f s ≠ 0 →
          exec (.asrt f) s = .next (trapNext s thv 7 (s.usrc32 f f.sb).toNat (fmtLen f) (zeroLanes f s)))
      ∧ ∀ r, s.w.run = some r → s.execSet f.cond ≠ 0 →
          exec (.reth f) s = .next (trapAt s r thv 14 0x80 (s.execSet f.cond)))
    ∧ ∀ h, s.execSet f.cond ≠ 0 → s.w.inHandler = true → s.w.shadow = some h → CleanReturn s h →
        exec (.reth f) s = .next (returned f s h)

/-- CTXEND ends the context with a record: no warp is left, and no engine holds an operation (R496). -/
def Obligations.CtxendEndsContext : Prop :=
  ∀ f s k, s.execSet f.cond ≠ 0 → s.ctx = some k → ∃ t k', exec (.ctxend f) s = .next t
    ∧ t.ctx = some k' ∧ k'.ended = true ∧ k'.launches = [] ∧ k'.graphs = [] ∧ k'.mailbox = [] ∧ k'.fqSeq = k.fqSeq + 1
    ∧ t.w = Warp.idle ∧ t.ws = [] ∧ t.gs = [] ∧ (∀ c ∈ t.c :: t.cs, c.ops = [] ∧ c.log = []) ∧ (∀ d ∈ t.dies, d.ops = [])
    ∧ t.others = s.others ∧ t.saved = s.saved ∧ t.hub = { s.hub with lost := t.hub.lost } ∧ (s.bad = [] → t.hub.lost = s.hub.lost)

/-- EXIT ends its lanes, takes them out of every barrier, and ends the warp with its last lane (R120, R121). -/
def Obligations.ExitEndsItsLanes : Prop :=
  ∀ f s r, Issuing s r → PhaseAgrees s →
    ∃ t, exec (.exit f) s = .next t ∧ LanesEnd f s t r ∧ (Alone s → ExitAlone s t)

/-- RCB.ARM adds its lanes to EXP (R122), and RCB.CLR takes its lanes out of the barrier, which may release it (R96, R124). -/
def Obligations.BarrierArmAndClear : Prop :=
  ∀ f s, s.w.ra = none → let b := f.dst.toNat
    let q := s.w.rcb.get {} b
    let e := s.execSet f.cond
    (∃ t, exec (.rcbArm f) s = .next t
      ∧ Becomes (onWarp s fun w => { w with rcb := w.rcb.set {} b { q with exp := q.exp ||| e } }) t (fmtLen f))
    ∧ ∃ t, exec (.rcbClr f) s = .next t
      ∧ Becomes (onWarp s fun w => ({ w with rcb := w.rcb.set {} b { arr := q.arr &&& ~~~e, exp := q.exp &&& ~~~e } } :
          Warp).releaseRcb b) t (fmtLen f)

/-- RCB.WAIT holds the lanes that the barrier expects until all of them have arrived or exited (R96, R123). -/
def Obligations.BarrierWaitReleasesTogether : Prop :=
  ∀ f s r, Issuing s r → ∃ t, exec (.rcbWait f) s = .next t ∧ WaitDone f s t r

/-! ### Integer, float and cross-lane words -/

/-- The add, subtract, multiply, divide and compare-select words compute on exact integers and narrow at the end (R133 to R148). -/
def Obligations.IntegerArithmeticIsExact : Prop := ∀ o ∈ arithmetic, ∀ f s, o.Completes f s

/-- Selects, moves, address fields and byte sums (R150 to R154); compares write the codes of SUB or a mask of the lanes where a
compare code holds, and MOVW the lowest executing lane's value once (R148, R149, R152; for the lane's own index that is the
model's choice, log entry 51). -/
def Obligations.IntegerMovesAndCompares : Prop :=
  (∀ o ∈ moves, ∀ f s, o.Completes f s)
  ∧ ∀ f s, let e := s.execSet f.cond
    (∃ t, exec (.icmp f) s = .next t ∧ WritesCodes s t true e (fun l => sumCodes true (uBit f) (a32 f s l) (b32 f s l))
      ∧ Becomes s { t with w := { t.w with ccC := s.w.ccC, ccZ := s.w.ccZ, ccN := s.w.ccN, ccV := s.w.ccV } } (fmtLen f))
    ∧ (∃ t, exec (.icmp64 f) s = .next t ∧ WritesCodes s t true e (fun l => sumCodes true (uBit f) (a64 f s l) (b64 f s l))
      ∧ Becomes s { t with w := { t.w with ccC := s.w.ccC, ccZ := s.w.ccZ, ccN := s.w.ccN, ccV := s.w.ccV } } (fmtLen f))
    ∧ (∃ t, exec (.isetm f) s = .next t
      ∧ WritesMask s t f.dst.toNat e
          (laneSet fun l => inSet e l && codeHolds f (sumCodes true (uBit f) (a32 f s l) (b32 f s l)))
      ∧ Becomes s (onWarp t fun w => { w with m := s.w.m }) (fmtLen f))
    ∧ ∃ t, exec (.movw f) s = .next t
      ∧ WritesUniform s t f.dst.toNat ((lowestLane e).toList.map fun l => s.src32 f f.sa l)
      ∧ Becomes s (onWarp t fun w => { w with u := s.w.u }) (fmtLen f)

/-- Logic, shifts and bit fields (R155 to R159). -/
def Obligations.BitwiseWordsCompute : Prop := ∀ o ∈ bitwise, ∀ f s, o.Completes f s

/-- Floating-point arithmetic and conversions write their results, codes and sticky flags where no enabled flag is raised (R75,
R76, R168 to R186). -/
def Obligations.FloatWordsComplete : Prop :=
  ∀ o ∈ floatArithmetic ++ conversions, ∀ f s, NoFloatTrap s (raised f s (o.flags f s)) → o.Completes f s

/-- A word that raises an enabled flag has its effect and then traps, the lanes resuming after it (R76, R462 to R464). -/
def Obligations.EnabledFlagTraps : Prop :=
  ∀ o ∈ floatArithmetic ++ conversions, ∀ f s thv, CanTrap s thv → s.w.ra = none →
    raised f s (o.flags f s) &&& s.ten ≠ 0 → o.Traps f s thv

/-- FCMP writes the codes of its compare, and FSETM a mask of the lanes where a compare code holds (R167, R173). -/
def Obligations.FloatComparesWriteCodes : Prop :=
  ∀ c ∈ compareWords, ∀ f s, let e := s.execSet f.cond
    let up := raised f s (laneNv c.2.2 f s)
    NoFloatTrap s up →
    (∃ t, exec (c.1 f) s = .next t ∧ WritesCodes s t true e (laneCompare c.2.2 f s) ∧ t.w.sticky = stickyAfter s up
      ∧ t.w.v = s.w.v ∧ t.w.u = s.w.u ∧ t.w.m = s.w.m ∧ Moved s t (fmtLen f) ∧ Kept s t)
    ∧ ∃ t, exec (c.2.1 f) s = .next t
      ∧ WritesMask s t f.dst.toNat e (laneSet fun l => inSet e l && codeHolds f (laneCompare c.2.2 f s l))
      ∧ t.w.sticky = stickyAfter s up ∧ (∀ l, t.codes l = s.codes l) ∧ t.w.v = s.w.v ∧ t.w.u = s.w.u ∧ Moved s t (fmtLen f)
      ∧ Kept s t

/-- PAIR reads both halves' operands before either result is written, in every lane of m0 (R50 to R52). -/
def Obligations.PairReadsBeforeItWrites : Prop :=
  ∀ x y s, NoFloatTrap s (unionFlags s.m0 fun l => (halfResult x s l).fl ||| (halfResult y s l).fl) →
    ∃ t, exec (.pair x y) s = .next t ∧ t.w.u = s.w.u ∧ t.w.m = s.w.m ∧ (∀ l, t.codes l = s.codes l)
      ∧ t.w.sticky = stickyAfter s (unionFlags s.m0 fun l => (halfResult x s l).fl ||| (halfResult y s l).fl)
      ∧ Moved s t 12 ∧ Kept s t
      ∧ ∀ q l, l < 32 → t.v q l =
          if inSet s.m0 l = true ∧ q = y.dst.toNat then BitVec.ofNat 32 (halfResult y s l).bits
          else if inSet s.m0 l = true ∧ q = x.dst.toNat then BitVec.ofNat 32 (halfResult x s l).bits else s.v q l

/-- A NaN operand gives the canonical NaN, and a signalling one raises NV, in addition, multiplication, the fused multiply-add,
division and the dot product; in minimum and maximum a signalling one raises NV (R66, R68, R168 to R172). -/
def Obligations.NanOperandsGiveCanonicalNan : Prop :=
  ∀ fm ∈ [f32, f16, bf16], ∀ rm a b c,
    ((isNan fm a || isNan fm b) = true → (fAdd fm rm a b).bits = fm.nan ∧ (fMul fm rm a b).bits = fm.nan
        ∧ (fDiv fm rm a b).bits = fm.nan)
    ∧ ((isNan fm a || isNan fm b || isNan fm c) = true → (fFma fm rm a b c).bits = fm.nan)
    ∧ ((isSnan fm a || isSnan fm b) = true → (fAdd fm rm a b).fl.getLsbD 4 = true ∧ (fMul fm rm a b).fl.getLsbD 4 = true
        ∧ (fDiv fm rm a b).fl.getLsbD 4 = true ∧ (fMin fm a b).fl.getLsbD 4 = true ∧ (fMax fm a b).fl.getLsbD 4 = true)
    ∧ ((isSnan fm a || isSnan fm b || isSnan fm c) = true → (fFma fm rm a b c).fl.getLsbD 4 = true)
    ∧ ((isNan f32 c || [elem a 0, elem a 1, elem b 0, elem b 1].any (isNan bf16)) = true → (fDot2 rm a b c).bits = f32.nan)
    ∧ ((isSnan f32 c || [elem a 0, elem a 1, elem b 0, elem b 1].any (isSnan bf16)) = true → (fDot2 rm a b c).fl.getLsbD 4 = true)

/-- Rounding gives, for either sign, the encoding that the mode names: the nearest one, on a tie that with an even last bit, or the
one on the side of the mode (R71); and beyond the largest finite value what R72 lists. -/
def Obligations.RoundingFollowsMode : Prop :=
  ∀ fm ∈ [f32, f16, bf16], ∀ (m : Nat) (e : Int) (neg : Bool), m ≠ 0 →
    let q : ℚ := m * (2 : ℚ) ^ e
    (q < magnitude fm fm.infBits → ∃ down < fm.infBits, magnitude fm down ≤ q ∧ q < magnitude fm (down + 1)
      ∧ ∀ rm, (roundF fm rm false neg m e).bits = signOf fm neg
          + roundedTo rm neg (decide (2 * q < magnitude fm down + magnitude fm (down + 1)))
              (decide (2 * q = magnitude fm down + magnitude fm (down + 1))) (decide (q = magnitude fm down)) down)
    ∧ (magnitude fm fm.infBits ≤ q → ∀ rm, (roundF fm rm false neg m e).bits = signOf fm neg + overflowTo fm rm neg
        ∧ (roundF fm rm true neg m e).bits = signOf fm neg + (fm.infBits - 1)
        ∧ (roundF fm rm false neg m e).fl = flOF ||| flNX)

/-- Shuffles take the value of an executing source lane of the segment, or keep the lane's own; C says which (R190 to R192). -/
def Obligations.ShufflesTakeSourceLane : Prop :=
  ∀ p ∈ shuffles, ∀ f s, f.md.toNat % 8 ≤ 5 → ∃ t, exec (p.1 f) s = .next t
    ∧ WritesLanes s t (s.execSet f.cond) f.dst.toNat (fun l => [shuffled p.2 f s l])
    ∧ WritesCodes s t f.wcc (s.execSet f.cond) (fun l => nz (shuffled p.2 f s l) (shuffleFrom p.2 f s l).isSome false)
    ∧ t.w.u = s.w.u ∧ t.w.m = s.w.m ∧ SameFlags s t ∧ Moved s t (fmtLen f) ∧ Kept s t

/-- Votes write a whole mask once, and MLOP a function of three masks; Z of a vote says that the mask is 0 (R188, R193, R196). -/
def Obligations.VotesAndMaskLogic : Prop :=
  ∀ f s, let e := s.execSet f.cond
    (∀ p ∈ votes, ∃ t, exec (p.1 f) s = .next t ∧ WritesMask s t f.dst.toNat e (p.2 f s)
      ∧ WritesCodes s t f.wcc e (fun _ => { c := false, z := decide (p.2 f s = 0), n := false, v := false })
      ∧ t.w.v = s.w.v ∧ t.w.u = s.w.u ∧ SameFlags s t ∧ Moved s t (fmtLen f) ∧ Kept s t)
    ∧ ∃ t, exec (.mlop f) s = .next t
      ∧ WritesMask s t f.dst.toNat e (table3 f.md (maskSource f s f.sa) (maskSource f s f.sb) (maskSource f s f.sc))
      ∧ Becomes s (onWarp t fun w => { w with m := s.w.m }) (fmtLen f)

/-- Integer reductions and prefix sums over the executing lanes, exact before they narrow (R195); WRED.min and WRED.max of
integers give the least and the greatest value (R194). -/
def Obligations.ReductionsCombineLanes : Prop :=
  ∀ f s,
    (∀ p ∈ reductions, ∃ t, exec (p.1 f) s = .next t ∧ PutsReduced f s t (p.2 f s) ∧ NoFlags s t ∧ Moved s t (fmtLen f) ∧ Kept s t)
    ∧ ∃ t, exec (.wscanIadd f) s = .next t
      ∧ WritesLanes s t (s.execSet f.cond) f.dst.toNat
          (fun l => [clampSum f (((scanLanes f s l).map fun k => asInt f (s.src32 f f.sa k)).sum)])
      ∧ t.w.u = s.w.u ∧ t.w.m = s.w.m ∧ SameFlags s t ∧ Moved s t (fmtLen f) ∧ Kept s t
    ∧ (f.md.getLsbD 3 = false → s.execSet f.cond ≠ 0 →
      (∃ t x, exec (.wredMin f) s = .next t ∧ PutsReduced f s t x ∧ x ∈ laneVals f s ∧ (∀ y ∈ laneVals f s, asInt f x ≤ asInt f y)
        ∧ NoFlags s t ∧ Moved s t (fmtLen f) ∧ Kept s t)
      ∧ ∃ t x, exec (.wredMax f) s = .next t ∧ PutsReduced f s t x ∧ x ∈ laneVals f s ∧ (∀ y ∈ laneVals f s, asInt f y ≤ asInt f x)
        ∧ NoFlags s t ∧ Moved s t (fmtLen f) ∧ Kept s t)

/-- Float reductions combine in the tree of R194, and WSCAN.fadd in lane order (R195); the flags that are raised become sticky, and
one that is enabled traps after the word (R75, R76). An immediate of these words is its integer as a float, and the flags of
WSCAN.fadd.excl include those of the last step: the model's readings (log entries 26 and 51). -/
def Obligations.FloatReductionsFollowTree : Prop :=
  ∀ f s,
    (∀ p ∈ floatReductions, (p.withF = true → f.md.getLsbD 3 = true) →
      (NoFloatTrap s (p.up f s) → ∃ t, exec (p.word f) s = .next t ∧ PutsReduced f s t (BitVec.ofNat 32 (p.res f s).bits)
        ∧ t.w.sticky = stickyAfter s (p.up f s) ∧ t.w.m = s.w.m ∧ (∀ l, t.codes l = s.codes l) ∧ Moved s t (fmtLen f) ∧ Kept s t)
      ∧ ∀ thv, CanTrap s thv → s.w.ra = none → p.up f s &&& s.ten ≠ 0 →
          ∃ t, exec (p.word f) s = .next t ∧ PutsReduced f s t (BitVec.ofNat 32 (p.res f s).bits) ∧ FlagTrap f s t thv (p.up f s))
    ∧ let scan (l : Nat) : List Word := [BitVec.ofNat 32 (fsum (modeOf f) ((scanLanes f s l).map (fA f s f32))).bits]
      (NoFloatTrap s (scanFlags f s) → ∃ t, exec (.wscanFadd f) s = .next t
        ∧ WritesLanes s t (s.execSet f.cond) f.dst.toNat scan ∧ t.w.sticky = stickyAfter s (scanFlags f s)
        ∧ t.w.u = s.w.u ∧ t.w.m = s.w.m ∧ (∀ l, t.codes l = s.codes l) ∧ Moved s t (fmtLen f) ∧ Kept s t)
      ∧ ∀ thv, CanTrap s thv → s.w.ra = none → scanFlags f s &&& s.ten ≠ 0 →
          ∃ t, exec (.wscanFadd f) s = .next t ∧ WritesLanes s t (s.execSet f.cond) f.dst.toNat scan
            ∧ FlagTrap f s t thv (scanFlags f s)

/-! ### Memory and atomics -/

/-- The operand log holds what each source of the word reads, for every lane (R48, R456). -/
def Obligations.LogHoldsOperands : Prop :=
  ∀ (s : State) code f x (wid : List Nat) e j l, j < 3 → l < 32 →
    let o := s.mkOp code f x wid e
    (1 ≤ (wid[j]?).getD 0 → o.val32 j l = s.src32 f (srcOf f j) l)
    ∧ (2 ≤ (wid[j]?).getD 0 → (∀ k, srcOf f j ≠ .mask k) → srcOf f j ≠ .laneIdx → o.val64 j l = s.src64 f (srcOf f j) l)

/-- A word of the memory or atomic class whose translations are at hand issues ready to be performed (R43, R218, R456). -/
def Obligations.AccessWordsIssueReady : Prop :=
  ∀ a ∈ accessWords, ∀ f x s k, s.execSet f.cond ≠ 0 → s.freeLog = some k → NoCarve s →
    EachPart (a.op f x s k) (PartOk s (a.op f x s k)) → AtHand s (a.op f x s k) →
    a.IssuesReady f x s k ∧ (a.op f x s k).width = a.bytes f

/-- One without its translations issues and waits for a walk (R202, R456); with the operand log full it is refused issue (R456). -/
def Obligations.AccessWordsAwaitWalk : Prop :=
  ∀ a ∈ accessWords, ∀ f x s, s.execSet f.cond ≠ 0 →
    (∀ k, s.freeLog = some k → EachPart (a.op f x s k) (PartOk s (a.op f x s k)) →
      EachPart (a.op f x s k) (Uncached s (a.op f x s k)) → (∃ l ∈ (a.op f x s k).askers, (a.op f x s k).parts l ≠ []) →
      a.IssuesWaiting f x s k)
    ∧ (s.freeLog = none → exec (a.word f x) s = .next { s with g := s.g.count 9 1 })

/-- Lanes whose scratch access is out of range or misaligned park at the word with a record, the others go on (R218, R219, R455). -/
def Obligations.ScratchFaultsParkLanes : Prop :=
  ∀ a ∈ accessWords, ∀ f x s k, onceCode a.code = false → a.code ≠ 0xFB → x.space ≠ 0 → s.freeLog = some k → NoCarve s →
    (∃ l ∈ lanesOf (s.execSet f.cond), scratchBad s (a.op f x s k) l = true) → a.Parks f x s k

/-- Prefetches, cache control and TLBQ take their place among the warp's accesses without a check (R234 to R237). -/
def Obligations.QuietWordsIssue : Prop :=
  ∀ a ∈ quietWords, ∀ f x s k, s.execSet f.cond ≠ 0 → s.freeLog = some k → ∃ t, exec (a.1 f x) s = .next t
    ∧ IssuesAs s t { s.mkOp a.2.1 f x [baseWidth x, a.2.2.1, 0] (s.execSet f.cond) with st := .running }
        (regsFrom f.dst a.2.2.2) []

/-- TRANSLATION_WALK_COMPLETE decides the checks of an access that waits: with no fault it may be performed (R202, R456); one that
is translated afresh first takes an entry of the operand log again. PROMOTION_REQUEST: of the entries that a .racq access meets in
the tables of its bytes' homes, the first has its release carried out at scope 5 on the releasing core, and is cleared (R252). -/
def Obligations.WalksReleaseAccess : Prop :=
  PromotionWritesBack ∧ ∀ s s0 o, s.findOp o.id = some o → s.focus o.warp = some s0 →
    (let o1 := { o with logi := o.logi.or s0.freeLog }
     let s1 := if o.logi.isSome = true then s0 else s0.takeLog (s0.freeLog.getD 0) o.id
     let c := s1.checkOp o1 true
     o ∈ s0.w.pend → o.st = .queued → s0.onLinks o.id = false → orderOnly o.code = false → o1.logi.isSome = true → c.wait = false →
      (∃ t, exec (.translationWalkComplete o.id) s = .next t)
      ∧ (c.faults = [] → (∀ p ∈ s0.w.pend, orderOnly p.code = false) →
        ∃ t p, exec (.translationWalkComplete o.id) s = .next t ∧ p ∈ t.w.pend ∧ p.id = o.id ∧ p.st = .running
          ∧ p.xl = c.xl ∧ p.e = o.e ∧ SameRegisters s0 t))
    ∧ (o.x.racq = true → o.st = .running → ∀ l p r, l ∈ o.askers → p ∈ o.parts l →
        s0.racqEntry s0.g.die s0.g.core (o.loc p.1) = some r →
        (∀ k ∈ o.askers, ∀ q ∈ o.parts k, (s0.racqEntry s0.g.die s0.g.core (o.loc q.1)).isSome = true →
          s0.racqEntry s0.g.die s0.g.core (o.loc q.1) = some r ∧ (o.loc q.1).own = (o.loc p.1).own) →
        s0.promoteWaits (o.loc p.1).own r = false →
        exec (.promotionRequest o.id) s = .next (((s0.promote r).dropEntry (o.loc p.1).own r).count 0x0D))
    ∧ (o.x.racq = true → o.st = .running → (∃ l ∈ o.askers, ∃ p ∈ o.parts l,
          (s0.racqEntry s0.g.die s0.g.core (o.loc p.1)).isSome = true) →
        (∀ own r, r ∈ (s0.die own).rel → s0.promoteWaits own r = false) → s0.w.id ≠ 0 → s0.ctx.isSome = true →
        ∃ own r t, exec (.promotionRequest o.id) s = .next t ∧ r ∈ (s0.die own).rel ∧ r ∉ (t.die own).rel
          ∧ t = ((s0.promote r).dropEntry own r).count 0x0D ∧ t.w.pend = s0.w.pend ∧ SameRegisters s0 t)

/-- LOAD_DATA_ARRIVAL performs a load whose turn has come: its destination holds the bytes read, in each lane or once (R223, R228,
R229). Of a load of global memory the data of some lanes may arrive first: these are written, and the others wait still. -/
def Obligations.LoadsReturnMemory : Prop :=
  ∀ s s0 o, s.focusOp o.id = some (o, s0) → Performs s0 o → loadCode o.code = true → o.e ≠ 0 →
    (s0.loadPart o = o.e → ∃ t, exec (.loadDataArrival o.id) s = .next t ∧ Finished s0 t o ∧ t.g.scratch = s0.g.scratch
      ∧ if uniformLoad o = true then
          t.w.v = s0.w.v ∧ WritesUniform s0 t o.f.dst.toNat (exactly (loadRegs o) (loaded (released s0 o) o 0))
        else t.w.u = s0.w.u
          ∧ WritesLanes s0 t o.e o.f.dst.toNat (fun l => exactly (loadRegs o) (loaded (released s0 o) o l)))
    ∧ (s0.loadPart o ≠ o.e → ∃ t, exec (.loadDataArrival o.id) s = .next t ∧ t.g.scratch = s0.g.scratch ∧ t.w.u = s0.w.u
      ∧ WritesLanes s0 t (s0.loadPart o) o.f.dst.toNat (fun l => exactly (loadRegs o) (loaded (released s0 o) o l))
      ∧ t.w.outs = s0.w.outs ∧ ∃ p ∈ t.w.pend, p.id = o.id ∧ p.e = o.e &&& ~~~(s0.loadPart o) ∧ p.st = o.st)

/-- LOAD_DATA_ARRIVAL performs an atomic lane by lane in ascending order, each lane's destination taking the old value that it finds
(R271, R272); of host or peer memory the hub reads the words first, and the write is a step of its own (R262). -/
def Obligations.AtomicsReturnOldValues : Prop :=
  ∀ s s0 o, s.focusOp o.id = some (o, s0) → Performs s0 o → atomCode o.code = true → (s0.chunksShort o).1 = 0 →
    (¬ HubDone s0 o → exec (.loadDataArrival o.id) s = .next ((released s0 o).hubLoad o))
    ∧ (HubDone s0 o → ∃ t, exec (.loadDataArrival o.id) s = .next t ∧ Finished s0 t o ∧ t.w.u = s0.w.u
      ∧ (o.x.space = 0 → WritesLanes s0 t o.e o.f.dst.toNat fun l => oldWords o (oldAt o (released s0 o) l))
      ∧ (o.x.space ≠ 0 →
          let r := atomRun o (lanesOf o.e) s0.g.scratch
          t.g.scratch = r.2 ∧ WritesLanes s0 t o.e o.f.dst.toNat fun l =>
            oldWords o (((r.1.find? fun p => p.1 == l).map (·.2)).getD 0)))

/-- STORE_REACHES_POINT performs a store, reduction or cache control of scratch or global memory: each scratch byte is the
latest one stored there, or as before, and no register changes (R198, R224, R236, R272, R273). In global memory a store, a
reduction or an atomic changes its bytes one by one in lane order, each at its point, and no other byte reads otherwise
afterwards (R224, R230, R232, R243, R271); that last is said where no line has to leave a cache for it. -/
def Obligations.StoresWriteTheirBytes : Prop :=
  OtherBytesStand ∧ (∀ s s0 o, GlobalBytesInOrder s s0 o) ∧ ∀ s s0 o, s.focusOp o.id = some (o, s0) → Performs s0 o → s0.tagHeld o = false → (s0.chunksShort o).1 = 0 →
    (storeCode o.code || redCode o.code || cctlCode o.code) = true → HubDone s0 o →
    ∃ t, exec (.storeReachesPoint o.id) s = .next t ∧ Finished s0 t o ∧ SameVU s0 t
      ∧ (storeCode o.code = true → o.x.space ≠ 0 →
          ∀ a, t.g.scratch.get 0 a = lastWrite (storeList o) a (s0.g.scratch.get 0 a))
      ∧ (storeCode o.code = false → redCode o.code = true → o.x.space ≠ 0 →
          t.g.scratch = (atomRun o (lanesOf o.e) s0.g.scratch).2)
      ∧ (o.x.space = 0 ∨ cctlCode o.code = true → t.g.scratch = s0.g.scratch)

/-- A load reads what the same core has stored last at the place, whatever the scope of either (R243). -/
def Obligations.OwnWritesAreRead : Prop :=
  ∀ (s : State) p q die core a b evp, 0 < s.guestWays die → s.phys die < s.dies.length →
    (a.own < 4 → s.phys a.own < s.dies.length) → (a.own = die → p ≠ .guest ∧ q ≠ .guest) →
    HoldsDirty (s.l1Line die core a.va) (a.va % 128) → HoldsDirty (s.guestLine die a.va) (a.va % 128) →
    (s.storeByte p die core a b evp false).loadByte q die core a = b

/-! ### Synchronisation -/

/-- A hold word holds its lanes until the barrier, the group or the counters let them go, at one barrier for the warp (R264,
R275 to R277, R279). Where lanes join one hold by words that differ in ORD, SCOPE, GOP, DST or SA, those of the last word stand: the
model's choice (log entry 44). -/
def Obligations.HoldWordsHoldTheirLanes : Prop :=
  ∀ h ∈ holdForms, ∀ f x s, s.execSet f.cond ≠ 0 →
    (h.Agrees x s.w.sync → h.StillWaits f x s → Drained s → ∃ t, exec (h.word f x) s = .next t ∧ t.w.sync = h.held f x s
      ∧ t.w.outs = s.w.outs ++ [outOf s (s.mkOp h.code f x [1, 0, 0] (s.execSet f.cond)) [] []]
      ∧ Moved s t 16 ∧ SameRegisters s t ∧ SameBytes s t ∧ t.nextId = s.nextId + 1)
    ∧ ∀ r thv, CanTrap s thv → s.w.run = some r → ¬ h.Agrees x s.w.sync →
        exec (h.word f x) s = .next (trapAt s r thv 6 0 (s.execSet f.cond))

/-- The warp's arrival at a workgroup barrier is recorded once its last lane is held, and completes the phase when it is the last
one: PH inverts, ARR and SET become 0, and the hold ends (R265). BAR.wait ends at once where the phase that the warp arrived in
has completed, and GBAR records the arrival in its group's slot (R266). -/
def Obligations.BarrierPhaseCompletes : Prop :=
  ∀ h ∈ holdForms, ∀ f x s, s.execSet f.cond ≠ 0 → s.w.sync = {} → s.w.liveLanes &&& ~~~(s.execSet f.cond) = 0 →
    s.w.wg = s.g.id → s.w.idx < 32 → s.w.pend = [] → s.w.parked = [] →
    s.releaseWaits s.g.die s.g.core = false →
    let r := s.g.bars.get {} (h.bnum x)
    let r1 : BarRec := { r with arr := r.arr ||| s.w.bit, set := true, exp := h.exp x }
    let arrived : Sync := { h.held f x s with arrived := true }
    (h.kind = .barWg → (r.set = true → r.exp = h.exp x) → ∃ t, exec (h.word f x) s = .next t
      ∧ Moved s t 16 ∧ SameRegisters s t
      ∧ (s.phaseDone r1 = true → t.g.bars.get {} (h.bnum x) = { ph := !r.ph } ∧ t.w.sync = {})
      ∧ (s.phaseDone r1 = false → t.g.bars.get {} (h.bnum x) = r1 ∧ t.w.sync = arrived))
    ∧ (h.kind = .barWait ∨ h.kind = .gbarWait → ∃ t, exec (h.word f x) s = .next t ∧ Moved s t 16 ∧ SameRegisters s t
      ∧ t.g.bars = s.g.bars
      ∧ t.w.sync = if (if h.kind = .barWait then r else s.g.bars.get {} (16 + h.bnum x)).arr &&& s.w.bit = 0 then {} else arrived)
    ∧ (h.kind = .gbar ∨ h.kind = .gcoll → ∃ t, exec (h.word f x) s = .next t ∧ Moved s t 16 ∧ SameRegisters s t
      ∧ t.w.sync = (if h.kind = .gcoll then { arrived with value := s.memberSrc f.sa } else arrived)
      ∧ (let q := s.g.bars.get {} (16 + h.bnum x)
         t.g.bars.get {} (16 + h.bnum x) = { q with arr := q.arr ||| s.w.bit }))

/-- FENCE, BAR.arrive, GBAR.arrive, CHPROD.pub and EVSIG issue and move on in every state: each acts at once where nothing that
it follows is to come, and else waits behind it in the warp's order (R246, R267, R274 to R276, R295, R448, R458). -/
def Obligations.OrderWordsTakeTheirTurn : Prop :=
  ∀ o ∈ orderForms, ∀ f x s, s.execSet f.cond ≠ 0 → o.ok f x s → Drained s → ∃ t u, exec (o.word f x) s = .next t
    ∧ Moved s u 16 ∧ SameRegisters s u ∧ SameBytes s u ∧ u.w.pend = s.w.pend
    ∧ u.w.outs = s.w.outs ++ [outOf s (o.op f x s) [] []]
    ∧ (¬ o.Ready x s → t = onWarp u fun w => { w with pend := w.pend ++ [o.op f x s] })
    ∧ (o.Ready x s → (∀ p ∈ t.w.pend, p.id ≠ s.nextId) ∧ o.did f x s u t ∧ ∀ y ∈ t.w.outs, y.id = s.nextId → y.done = true)

/-! ### Engines, channels and the hub -/

/-- A word of an engine's class enters the queue of its engine with its operands, its flag set, its class counted and its
destinations held; no register and no byte changes (R34, R43, R288, R310, R346, R376, R391, R408, R456). -/
def Obligations.EngineWordsEnterQueues : Prop :=
  ∀ a ∈ engineWords, ∀ f x s, s.execSet f.cond ≠ 0 → a.trap f x s = none → ¬ a.Full s → a.Clean f x s →
    s.phys s.g.die < s.dies.length →
    (a.log x = true → ∀ k, s.freeLog = some k → a.Enters f x s (some k)) ∧ (a.log x = false → a.Enters f x s none)

/-- A full queue, or a full operand log, refuses the word issue and nothing happens but the count (R288, R456); a fault of the
checks at issue parks every lane at the word with a record (R289, R455). -/
def Obligations.EngineWordsHeldBack : Prop :=
  ∀ a ∈ engineWords, ∀ f x s, s.execSet f.cond ≠ 0 → a.trap f x s = none →
    (a.Full s → exec (a.word f x) s = .next s)
    ∧ (¬ a.Full s → a.log x = true → s.freeLog = none → exec (a.word f x) s = .next { s with g := s.g.count 9 1 })
    ∧ (¬ a.Full s → s.freeLog.isSome = true → ∀ e, a.fault f x s = some e → a.ParksWhole f x s e)

/-- A parameter that R293, R317, R388 or R446 excludes, or CARVE beside another workgroup, takes the word's trap, at the word and
without any effect of it (R238, R293, R317, R388, R446, R462). -/
def Obligations.BadParametersTrap : Prop :=
  ∀ f x s r thv, s.w.run = some r → CanTrap s thv → s.execSet f.cond ≠ 0 →
    let e := s.execSet f.cond
    (∀ a ∈ engineWords, ∀ c reason, a.trap f x s = some (c, reason) →
      exec (a.word f x) s = .next (trapAt s r thv c reason e))
    ∧ ((s.chan (chOf x)).dfn = false → ∀ i ∈ [Instr.chrst f x, .chprodRsv f x, .chprodPub f x, .chcons f x, .chwp f x,
        .chwaitData f x, .chwaitRoom f x], exec i s = .next (trapAt s r thv 8 0x40 e))
    ∧ (¬ DefFits f s → exec (.chdef f x) s = .next (trapAt s r thv 8 0x43 e))
    ∧ (s.g.node = none → ∀ i ∈ [Instr.nodeEnq f x, .nodeEnqn f x], exec i s = .next (trapAt s r thv 11 0x70 e))
    ∧ ((∃ g ∈ s.gs, g.id ≠ 0 ∧ g.id ≠ s.g.id ∧ g.die = s.g.die ∧ g.core = s.g.core) →
        exec (.carve f x) s = .next (trapAt s r thv 12 0 e))

/-- CALRET on the micro-core ends its evaluations with their values (R398); a warp of a core that issues it takes the
illegal-instruction trap with reason 0x11 (R381). -/
def Obligations.CalretReturnsOrTraps : Prop :=
  ∀ f x s r, s.w.run = some r →
    (s.c.num = microCore → ∃ t, exec (.calret f x) s = .next t
      ∧ t.w.ret.map (·.1) = s.w.ret.map (·.1) ++ lanesOf (s.execSet f.cond)
      ∧ (∀ l ∈ lanesOf (s.execSet f.cond), l < s.w.lanes.length → (t.lane l).st = .exited)
      ∧ (∀ l ∈ lanesOf (s.execSet f.cond), ∃ p ∈ t.w.ret, p.1 = l ∧ p.2.1 = s.src32 f f.sa l))
    ∧ ∀ thv, CanTrap s thv → s.c.num ≠ microCore → exec (.calret f x) s = .next (trapAt s r thv 3 0x11 s.m0)

/-- The words on channel state (R283, R285, R294 to R297): a definition takes effect on an idle channel, a reservation takes its
place at PP, an input its place in order; CHWP answers at once and CHWAIT when its condition holds. -/
def Obligations.ChannelWordsActInOrder : Prop :=
  ∀ f x s, s.execSet f.cond ≠ 0 → NoWaits s → s.w.wg = s.g.id → let k := chOf x
    let c := s.chan k
    let n := (s.usrc32 f f.sb).toNat
    let op (code : Nat) (wid : List Nat) : Op := s.mkOp code f x wid (s.execSet f.cond)
    (DefFits f s → Idle s k → ∃ t, exec (.chdef f x) s = .next t ∧ t.chan k = defined f s ∧ t.w.waits = []
      ∧ Moved s t 16 ∧ SameRegisters s t)
    ∧ (c.dfn = true → Idle s k → ∃ t, exec (.chrst f x) s = .next t
      ∧ t.chan k = { dfn := true, lsz := c.lsz, base := c.base } ∧ t.w.waits = [] ∧ Moved s t 16 ∧ SameRegisters s t)
    ∧ (CountFits f x s → ∃ t, exec (.chprodRsv f x) s = .next t ∧ Waits s t (op 0x142 [0, 1, 0]) (regsFrom f.dst 1)
      ∧ t.chan k = { c with
          pp := c.pp + BitVec.ofNat 32 n
          outs := c.outs ++ [{ op := s.nextId, warp := s.w.id, p := c.pp.toNat, n := n, byPub := true }] })
    ∧ (CountFits f x s → ∃ t, exec (.chcons f x) s = .next t ∧ Waits s t (op 0x143 [0, 1, 0]) []
      ∧ t.chan k = { c with ins := c.ins ++ [{ op := s.nextId, n := n }] })
    ∧ (c.dfn = true → ∃ t, exec (.chwp f x) s = .next t ∧ Becomes (putU s f.dst.toNat (pointerOf x c)) t 16)
    ∧ (CountFits f x s → ∀ i ∈ [Instr.chwaitData f x, .chwaitRoom f x], ∃ t o, exec i s = .next t
      ∧ Waits s t o (regsFrom f.dst 1) ∧ t.chan k = c ∧ o.id = s.nextId
      ∧ o.aux = if (if modeOf x = 0 then n ≤ (c.wp - c.cp).toNat else (c.pp - c.cp).toNat + n ≤ c.size) then
          [(if modeOf x = 0 then c.wp else c.pp).toNat] else [])

/-- CHOPEN, CHCLOSE and a CARVE that changes the split wait for what stands before them (R217, R238, R278); DTIME answers at once
where its die does not relock, and else waits (R518). -/
def Obligations.WordsThatWaitForTheirEffect : Prop :=
  ∀ f x s, s.execSet f.cond ≠ 0 →
    let op (code : Nat) (wid : List Nat) : Op := s.mkOp code f x wid (s.execSet f.cond)
    (∃ t, exec (.chopen f x) s = .next t ∧ Waits s t (op 0x130 [1, 0, 0]) [])
    ∧ (∃ t, exec (.chclose f x) s = .next t ∧ Waits s t (op 0x131 []) [])
    ∧ (s.coreShared = false → let n := min (max (saNat f s) 2) 16
        (n ≠ s.c.ways → ∃ t, exec (.carve f x) s = .next t
          ∧ Waits s t { op 0xF9 [1, 0, 0] with aux := [n] } [] ∧ t.w.carving = true)
        ∧ (n = s.c.ways → ∃ t, exec (.carve f x) s = .next t ∧ Moved s t 16 ∧ SameRegisters s t ∧ t.w.waits = s.w.waits
          ∧ t.c.ways = s.c.ways))
    ∧ (let d := saNat f s
       (d < s.ndie → d ≠ 15 → ((s.die d).relock.isSome || s.routeHeld s.g.die d) = true → ∃ t, exec (.dtime f x) s = .next t
          ∧ Waits s t (op 0x1C3 [1, 0, 0]) (regsFrom f.dst 4))
        ∧ (s.ndie ≤ d ∨ d = 15 ∨ ((s.die d).relock = none ∧ s.routeHeld s.g.die d = false) → ∃ t, exec (.dtime f x) s = .next t
          ∧ Becomes (timeAsked (putQuad s f.dst.toNat (timeQuad s d).1 (timeQuad s d).2.1 (timeQuad s d).2.2.1 (timeQuad s d).2.2.2) d)
              t 16))

/-- LAUNCH, LAUNCH.dep and GRAPH.START hand a submission to the hub and wait for its number (R425, R444, R450); EVWAIT and
GRAPH.WAIT wait, or are answered at once where their wait has ended (R449, R450); NODE.ENQ and NODE.ENQN join the warp's accesses,
and one of no record has no effect (R445). -/
def Obligations.HubWordsSubmitAndWait : Prop :=
  ∀ f x s, s.execSet f.cond ≠ 0 →
    let op (code : Nat) (wid : List Nat) : Op := s.mkOp code f x wid (s.execSet f.cond)
    let sub (o : Op) (pred : Option Nat) (graph : Bool) : Submit := submitOf f x s o pred graph
    (∃ t, exec (.launch f x) s = .next t ∧ Submitted s t f (op 0x188 [2, 1, 1]) (sub (op 0x188 [2, 1, 1]) none false))
    ∧ (∃ t, exec (.launchDep f x) s = .next t
        ∧ Submitted s t f (op 0x189 [2, 1, 1]) (sub (op 0x189 [2, 1, 1]) (some (s.usrc32 f f.sb).toNat) false))
    ∧ (∃ t, exec (.graphStart f x) s = .next t ∧ Submitted s t f (op 0x18F [2, 2, 1]) (sub (op 0x18F [2, 2, 1]) none true))
    ∧ (∀ p ∈ hubWaits, (s.ctx.bind fun k => k.waitEnd (op p.2 [1, 1, 0])) = none → ∃ t, exec (p.1 f x) s = .next t
        ∧ Waits s t (op p.2 [1, 1, 0]) (regsFrom f.dst 1))
    ∧ (∀ p ∈ hubWaits, ∀ a q, (s.ctx.bind fun k => k.waitEnd (op p.2 [1, 1, 0])) = some (a, q) →
        ∃ t, exec (p.1 f x) s = .next t ∧ WritesUniform s t f.dst.toNat [a] ∧ t.w.v = s.w.v ∧ Moved s t 16
          ∧ ∀ y ∈ t.w.waits, y ∈ s.w.waits)
    ∧ (∀ rsz k, NodeSize s (s.usrc32 f f.sb).toNat rsz → s.freeLog = some k →
        let o : Op := { op 0x18A [baseWidth x, 1, 0] with logi := some k, aux := [0, rsz, 0] }
        let q : Op := { op 0x18B [baseWidth x, 1, 1] with logi := some k, aux := [0, rsz, 0] }
        (NoCarve s → EachPart o (PartOk s o) → AtHand s o → ∃ t xl, exec (.nodeEnq f x) s = .next t
          ∧ IssuesAs s t { o with st := .running, pcm := s.execSet f.cond, xl := xl, logi := none } [] [])
        ∧ (s.usrc32 f f.sc ≠ 0 → ∃ t, exec (.nodeEnqn f x) s = .next t ∧ IssuesAs s t { q with st := .running } [] [])
        ∧ (s.usrc32 f f.sc = 0 → ∃ t, exec (.nodeEnqn f x) s = .next t ∧ Becomes s t 16))

/-! ### Events: what the parts of the package do -/

/-- The scheduler (R45, R57, R100 to R106, R110, R121, R126, R253): clauses start, illegal words trap, warps are exchanged,
promoted, woken and released, runahead begins and ends, and empty cores are gated. -/
def Obligations.SchedulerSteps : Prop :=
  ∀ s,
    (∀ h d, s.w.run = none → s.w.ended = false → s.w.halted = false → s.w.sleep = none → s.preempted = false →
      s.w.carving = false → s.w.sched.active = true → s.w.ra = none → s.w.pick = some d → d.ent.mid = none →
      s.headerHere d = some h → s.w.waitClear h = true → s.swapFirst h = none →
      ∃ t, exec (.clauseStart h) s = .next t ∧ SameRegisters s t ∧ t.w.lanes = s.w.lanes
        ∧ t.w.run = some { hdr := d.pc, pc := nextWord d.pc 8, left := h.count, flag0 := h.flag0, flag1 := h.flag1, mask := d.set })
    ∧ (∀ n r thv, s.w.run = some r → s.w.ra = none → CanTrap s thv →
        exec (.illegalInstruction n) s = .next (trapAt s r thv 3 n s.m0))
    ∧ (∀ n, s.w.ra ≠ none → exec (.illegalInstruction n) s = .next (onWarp s fun w => { w with ra := none }))
    ∧ (∀ warp s0 d, s.focus warp = some s0 → s0.w.sleep = some d → d ≤ s0.time →
        exec (.sleepWake warp) s = .next (onWarp s0 fun w => { w with sleep := none }))
    ∧ (∀ warp s0, s.focus warp = some s0 → 4096 ≤ s0.w.sched.pass → s0.w.sched.prom = false →
        ∃ t, exec (.starvationPromotion warp) s = .next t ∧ SameRegisters s0 t
          ∧ t.w.sched = { s0.w.sched with prom := true, promAt := s0.n })
    ∧ (∀ into s0 b, into ≠ 0 → s.focus into = some s0 → b.id = into → bestWarp (s0.pendingReady s0.g.die s0.g.core) = some b →
        ((s0.warpsOn s0.g.die s0.g.core).countP (·.sched.active) < 8 → ∃ t, exec (.warpExchange 0 into) s = .next t
          ∧ t.w.sched = { s0.w.sched with active := true } ∧ SameRegisters s0 t)
        ∧ ∀ out q, out ≠ 0 → out ≠ into → s0.focus out = some q → q.w.sched.active = true → q.blocked = true →
            q.w.ra = none ∨ q.w.sched.prio ≤ b.sched.prio →
            ∃ t x, exec (.warpExchange out into) s = .next t ∧ t.w.sched = { s0.w.sched with active := true }
              ∧ t.warpOf out = some x ∧ x.sched.active = false ∧ x.ra = none ∧ SameRegisters s0 t)
    ∧ (∀ warp s0 o, s.focus warp = some s0 → s0.w.ra = none → s0.w.sched.active = true → s0.w.halted = false →
        s0.w.sleep = none → s0.w.ended = false → s0.preempted = false → s0.w.win ≤ s0.spareWindows →
        s0.pendingReady s0.g.die s0.g.core = [] → s0.blocker = some o →
        ∃ t r, exec (.runaheadEntry warp) s = .next t ∧ t.w.ra = some r ∧ r.blocker = o.id ∧ r.v = s0.w.v ∧ r.u = s0.w.u
          ∧ r.m = s0.w.m ∧ r.lanes = s0.w.lanes ∧ r.run = s0.w.run ∧ SameRegisters s0 t ∧ t.w.run = s0.w.run)
    ∧ (∀ warp s0 r, s.focus warp = some s0 → s0.w.ra = some r →
        (∀ o ∈ s0.w.pend, o.id ≠ r.blocker) ∨ s0.preempted = true ∨ s0.w.halted = true →
        exec (.runaheadExit warp) s = .next (onWarp s0 fun w => { w with ra := none }))
    ∧ (∀ warp s0, s.focus warp = some s0 → warp ≠ 0 →
        (s0.quiet s0.w = true → ∃ t, exec (.warpResourceRelease warp) s = .next t ∧ t.w = Warp.idle ∧ t.ws = s0.ws)
        ∧ (s0.quiet s0.w = false → s0.w.clear = true → s0.w.released = false →
            exec (.warpResourceRelease warp) s = .next (onWarp s0 fun w =>
              { w with released := true, ra := none, sched := { w.sched with active := false } })))
    ∧ (∀ core v, s.dies.length = 4 → core / 160 < 4 → s.virt (core / 160) = some v → s.ctx.isSome = true →
        (∀ t ∈ s.views, ∀ d, t.virt (core / 160) = some d → t.wgsOn d (core % 160) = []) →
        (s.dieAt (core / 160)).gated.contains (core % 160) = false →
        ∃ t, exec (.corePowerGating core true) s = .next t ∧ core % 160 ∈ (t.dieAt (core / 160)).gated
          ∧ (t.core v (core % 160)).l1 = [] ∧ (t.core v (core % 160)).tlb = [])
    ∧ (∀ core, s.dies.length = 4 → core / 160 < 4 → (s.dieAt (core / 160)).gated.contains (core % 160) = true →
        ∃ t, exec (.corePowerGating core false) s = .next t ∧ core % 160 ∉ (t.dieAt (core / 160)).gated)

/-- Channels, group barriers and the copy engine (R217, R266, R277, R278, R283 to R285, R289, R295, R297 to R300): reservations
fire, writing their position, and inputs; a group's phase ends with its last arrival; chunks move their bytes, in scratch, in a
channel or in global memory, part by part; and operations complete. -/
def Obligations.ChannelAndCopySteps : Prop :=
  ∀ s,
    (∀ wg ch s0 r, s.focusWg wg = some s0 → (s0.chan ch).outs.find? (fun r => !r.fired) = some r → (s0.chan ch).mayFire r = true →
      ∃ t, exec (.channelReservationFire wg ch) s = .next t
        ∧ (∀ q ∈ (t.chan ch).outs, q.op = r.op → q.p = r.p → q.fired = true)
        ∧ ∀ o, r.byPub = true → s0.findOp r.op = some o → (s0.warpOf o.warp).isSome = true →
            (∀ v ∈ s0.warps, ∀ p ∈ v.waits, p.code ≠ 0x140 ∧ p.code ≠ 0x141 ∧ p.code ≠ 0x145) →
            ∃ x, t.warpOf o.warp = some x ∧ x.u.get 0 o.f.dst.toNat = BitVec.ofNat 32 r.p ∧ ∀ p ∈ x.waits, p.id ≠ o.id)
    ∧ (∀ wg ch s0 i is o w, s.focusWg wg = some s0 → (s0.chan ch).ins = i :: is → s0.findOp i.op = some o →
        i.n ≤ (s0.chan ch).fill → s0.warpOf o.warp = some w →
        (o.code = 0x143 → w.scratchBefore o.id = false → (∀ v ∈ s0.warps, ∀ p ∈ v.waits, p.code ≠ 0x140 ∧ p.code ≠ 0x141) →
          ∃ t, exec (.channelInputFire wg ch) s = .next t
            ∧ t.chan ch = { s0.chan ch with ins := is, cp := (s0.chan ch).cp + BitVec.ofNat 32 i.n })
        ∧ (o.code = 0x147 → (o.aux[1]?).getD 0 = 0 →
          exec (.channelInputFire wg ch) s = .next (s0.putOp { o with aux := [(s0.chan ch).cp.toNat, 1] })))
    ∧ (∀ id o s0 v, s.focusOp id = some (o, s0) → o.code = 0x145 → o.aux = [v] →
        ∃ t, exec (.chwaitConditionMet id) s = .next t ∧ WritesUniform s0 t o.f.dst.toNat [BitVec.ofNat 32 v]
          ∧ ∀ p ∈ t.w.waits, p.id ≠ o.id)
    ∧ (∀ warp s0 o, s.focus warp = some s0 → s0.w.waits.find? (fun o => o.code == 0x130 || o.code == 0x131) = some o →
        s0.taggedBefore (o.x.ext.toNat % 8) = false →
        ∃ t, exec (.chopenTakeEffect warp) s = .next t ∧ SameRegisters s0 t ∧ (∀ p ∈ t.w.waits, p.id ≠ o.id)
          ∧ t.g.oc.get {} (o.x.ext.toNat % 8) =
              if o.code = 0x130 then
                { opened := true, loc := decide (s0.ndie ≤ (o.val32 0 0).toNat) || decide ((o.val32 0 0).toNat = s0.g.die)
                  die := (o.val32 0 0).toNat % 4 }
              else { s0.g.oc.get {} (o.x.ext.toNat % 8) with opened := false })
    ∧ (∀ warp s0 o n, s.focus warp = some s0 → s0.w.waits.find? (fun o => o.code == 0xF9) = some o → o.aux = [n] →
        let l := s0.c.ways
        (l < n → s0.scratchUsers o.id ((16 - n) * 32768) = false) →
        ∃ t, exec (.carveApply warp) s = .next t ∧ t.c.ways = n ∧ t.w.carving = false ∧ SameRegisters s0 t
          ∧ (n = l → t.g.size = s0.g.size ∧ t.g.scratch = s0.g.scratch)
          ∧ (n < l → ∀ x ∈ t.c.l1, x.way < n)
          ∧ (n ≠ l → t.g.size = (if l < n then min s0.g.size ((16 - n) * 32768) else (16 - n) * 32768)
            ∧ ∀ a, t.g.scratch.get 0 a = if a < (16 - (if l < n then n else l)) * 32768 then s0.g.scratch.get 0 a else 0))
    ∧ (∀ id o s0 (k : CopyTurn s0 o), InFocus s id o s0 →
        ∃ t, exec (.copyChunkStart id) s = .next t
          ∧ PartMoves s0 k.s2 t o (k.xs ++ k.ys) k.pos k.len 0 ∧ ∀ q ∈ t.c.copyq, q.id = id → q.st = .running)
    ∧ (∀ id o s0 pos len, InFocus s id o s0 → InQueue s0.c.copyq o → o.code ≠ 0x14A → s0.copyTurn o = true → o.inFlight = true →
        (s0.chunks o)[o.chunk]? = some (pos, len) → s0.bad = [] →
        ∃ t, exec (.copyChunkStart id) s = .next t ∧ PartMoves s0 s0 t o o.xl pos len o.moved)
    ∧ (∀ id o s0, InFocus s id o s0 → InQueue s0.c.copyq o → o.st = .running → o.copyLen ≠ 0 →
        (s0.chunks o).length ≤ o.chunk → ∃ t, exec (.copyOperationComplete id) s = .next t ∧ Ended t o)
    ∧ (∀ id o s0, InFocus s id o s0 → InQueue s0.c.copyq o → o.code = 0x14A → o.copyLen ≠ 0 → s0.copyTurn o = true →
        o.chunk = 0 → (modeOf o.x = 0 ∨ s0.bad = []) →
        ∃ t, exec (.bxformStart id) s = .next t
          ∧ WritesScratch s0 t o.sAddr ((List.range o.copyLen).map (bxByte (modeOf o.x) fun j =>
              s0.g.scratch.get 0 (o.sAddr + j))))
    ∧ (∀ wg slot g, s.wgOf wg = some g → s.groupArrives g slot = true →
        let group := (g.groups[slot]?).getD 0
        ∃ t k, exec (.groupBarrierArrival wg slot) s = .next t ∧ t.ctx = some k
          ∧ ∀ l c, s.launchOf g.launch = some l → s.ctx = some c →
              let members := (l.groups[group]?).getD []
              let came := (hubArrivals c g.launch group).1 ++ [g.index]
              let vals := (hubArrivals c g.launch group).2 ++ [(g.index, s.memberValue g slot)]
              ((∃ m ∈ members, m ∉ came ∧ s.memberEnded l m = false) → hubArrivals k g.launch group = (came, vals))
              ∧ ((∀ m ∈ members, m ∈ came ∨ s.memberEnded l m = true) → ((s.g :: s.gs).map (·.id)).Nodup →
                  (s.warps.map (·.id)).Nodup →
                  (∀ b ∈ k.gbars, ¬(b.launch = g.launch ∧ b.group = group))
                  ∧ ∀ h ∈ s.g :: s.gs, ∀ j, h.launch = g.launch → h.index ∈ members → h.groups.findIdx? (· == group) = some j →
                      (s.stopped h.die = false → MemberReleased s t h j members vals)
                      ∧ (s.stopped h.die = true → ∃ r ∈ k.gheld, r.wg = h.id ∧ r.slot = j)))

/-- The matrix engine, the ray unit, the reservoir and Loess: what their operations leave, step by step (R304, R318 to R328, R336,
R337, R340 to R343, R346, R357 to R364, R375, R383 to R389, R391 to R396). Under this rest the model's readings of log entries 17,
57 and 58. -/
def Obligations.EngineSteps : Prop :=
  TriangleTestIsExact ∧ SlabTestIsExact ∧ ∀ s,
    MatrixResults s ∧ RayResults s ∧ ReservoirResults s
    ∧ (∀ id o s0, InFocus s id o s0 → InQueue s0.c.mtxq o → o.st = .running → o.mtxSteps ≤ o.chunk →
        ∃ t, exec (.matrixOperationComplete id) s = .next t ∧ Ended t o)
    ∧ (∀ id o s0, InFocus s id o s0 → InQueue s0.c.rayq o → plainRay o.code = true → o.pcm = 0 → s0.rayReady o = o.e → o.e ≠ 0 →
        ∃ t, exec (.rayOperationComplete id) s = .next t ∧ Ended t o ∧ WritesLanes s0 t o.e o.f.dst.toNat (s0.rayPlain o))
    ∧ (∀ id o s0 g, InFocus s id o s0 → RsvTurn s0 o g →
        (o.code = 0x170 → ∃ t, exec (.reservoirOperationComplete id) s = .next t ∧ Ended t o
          ∧ WritesLanes s0 t o.e o.f.dst.toNat fun l =>
              let a := rsvAddr (o.rsvA l)
              octetOf (s0.rsvRead g s0.g.die a.lyr a.x a.y))
        ∧ (∀ l, o.code = 0x171 → lanesOf o.e = [l] → ∃ t, exec (.reservoirOperationComplete id) s = .next t ∧ Ended t o
          ∧ recordOf t g o l = ofOctet ((List.range 8).map fun i => o.reg 2 i l))
        ∧ (∀ l, o.code = 0x172 → lanesOf o.e = [l] →
            let u := (Rec.ofBits (recordOf s0 g o l)).update ((List.range 8).map fun i => o.reg 1 i l)
              (capOf (o.x.ext.toNat % 2 ^ 16))
            ∃ t, exec (.reservoirOperationComplete id) s = .next t ∧ Ended t o ∧ recordOf t g o l = u.1.toBits
              ∧ t.v o.f.dst.toNat l = BitVec.ofNat 32 u.2))
    ∧ (∀ id o s0, InFocus s id o s0 → InQueue s0.c.rsvq o → s0.rsvReady o ≠ 0 → o.code = 0x179 → s0.ctx.isSome = true →
        ∃ t, exec (.rsvcfgInstall id) s = .next t ∧ (s0.underOld (o.val64 0 0).toNat = s0 → Ended t o
          ∧ (∃ k, t.ctx = some k ∧ k.rsvDesc = o.val64 0 0 ∧ k.rot = 0)
          ∧ ∀ v < s0.ndie, (t.die v).rsv = [] ∧ (t.die v).halo = [] ∧ (t.die v).loessStat = 0))
    ∧ (∀ die o s0 g s1 ps es, s.loessHead die = some (o, s0) → s0.dies.length = 4 → (s0.die die).loess = none →
        o.st = .queued ∨ o.st = .running → s0.preempting = false → s0.loessTurn die o = true → o.stores ≠ [] →
        (s0.withGeom o.oldDesc).geom = some g →
        (s0.withGeom o.oldDesc).readPixels o g 0 o.quadPixels = (s1, some (.ok (ps, es))) → s1.dies.length = 4 →
        ∃ t, exec (.loessOperationStart die) s = .next t ∧ (t.die die).loess = some { op := o.id, pixs := ps, evals := es })
    ∧ (∀ die o s0 q m, AtWork s die o s0 q → q.batch ≠ [] →
        m = Micro.run microFuel (s0.microStart die (join2 (o.reg 0 10 0) (o.reg 0 11 0)) ((List.range 16).map fun i => o.reg 0 i 0)
          (q.batch.map fun e => q.regs e.2)) → m.wait = false → m.err = none → m.s.dies.length = 4 → m.s.ctx = s0.ctx →
        ∃ t p, exec (.loessEvaluationBatch die) s = .next t ∧ (t.die die).loess = some p ∧ p.pixs = q.pixs
          ∧ p.evals.length = q.evals.length
          ∧ ∀ i e, q.evals[i]? = some e → ∃ x, p.evals[i]? = some x
              ∧ if i ∈ batchPlaces q then x.st ≠ 0 ∧ x.src = e.src else x = e)
    ∧ (∀ die o s0 q i e, AtWork s die o s0 q → q.rayAt = some (i, e) → badRay e.ray = true →
        ∃ t p, exec (.loessRayComplete die) s = .next t ∧ (t.die die).loess = some p ∧ p.pixs = q.pixs
          ∧ ∃ x, p.evals[i]? = some x ∧ x.st = 2 ∧ x.value = 0)
    ∧ (∀ die o s0 q, AtWork s die o s0 q → (∀ e ∈ q.evals, e.st = 2) →
        ∃ t, exec (.loessQuadComplete die) s = .next t ∧ (t.die die).loess = none
          ∧ (o.lostCfg = true → ∀ v, (t.die v).rsv = (s0.die v).rsv)
          ∧ ∀ g i p, o.lostCfg = false → o.oldDesc = none ∨ o.oldDesc = s0.geomNow → s0.geom = some g → q.pixs[i]? = some p →
              p.x < g.w → p.y < g.h → (∀ j y, q.pixs[j]? = some y → y.x = p.x → y.y = p.y → j = i) →
              t.rsvAt g o.ruOut p.x p.y = (o.mergePixel p (q.evals.filter fun e => e.pix == i)).toBits)

/-- The radiance cache (R403 to R407, R409, R413, R414, R416, R419, R562): queries are evaluated, samples arrive, generations
change, Yarrow steps, and an image is checked and taken or refused. -/
def Obligations.RadianceSteps : Prop :=
  ∀ s,
    (∀ id o s0, RadTurn s id o s0 → o.code = 0x180 → o.chunk = 0 → s0.preempting = false →
      (∀ q ∈ (s0.die s0.g.die).radq, q.isQuery = true → s0.clusterOf q = s0.clusterOf o → o.id ≤ q.id) →
      ∃ t, exec (.radianceQueryComplete id) s = .next t
        ∧ WritesLanes s0 t o.e o.f.dst.toNat fun l =>
            rcFwd (paramArray s0.rad.query ofBf16) ((o.inputs l).1.map ofBf16).toArray)
    ∧ (∀ id o s0 a b c d, RadTurn s id o s0 → o.code = 0x185 → o.aux = [a, b, c, d] →
        ∃ t, exec (.radianceQueryComplete id) s = .next t
          ∧ WritesUniform s0 t o.f.dst.toNat [BitVec.ofNat 32 a, BitVec.ofNat 32 b, BitVec.ofNat 32 c, BitVec.ofNat 32 d])
    ∧ (∀ id o s0 l, RadTurn s id o s0 → s0.ctx.isSome = true → o.code = 0x181 → o.chunk ≠ 0 →
        lowestLane (o.e &&& ~~~o.pcm) = some l →
        ∃ t, exec (.sampleArrival id) s = .next t
          ∧ t.rad = { s0.rad with
              opened := (storeSample s0.rad.opened (o.val32 2 l :: ((o.inputs l).1 ++ (o.targets l).getD []))).1 })
    ∧ (∀ o s0, s.hubHead 0x182 = some o → s.focus o.warp = some s0 → s0.ctx.isSome = true → NoWaits s0 →
        s0.rad.sdn = s0.rad.ns → s0.unitsClear = true → s0.rad.step = false →
        ∃ t, exec .generationChange s = .next t ∧ t.rad.gen = s0.rad.gen + 1 ∧ t.rad.sdn = 0
          ∧ t.rad.closed = s0.rad.opened ∧ t.rad.opened = [] ∧ t.rad.master = s0.rad.master
          ∧ WritesUniform s0 t o.f.dst.toNat [(s0.rad.gen + 1).setWidth 32])
    ∧ (s.ctx.isSome = true → s.rad.step = false → s.rad.sdn < s.rad.ns → s.storing = false → s.preempting = false →
        ∃ t, exec .yarrowStepStart s = .next t ∧ t.rad = { s.rad with step := true })
    ∧ (s.rad.step = true → ∃ t, exec .yarrowStepComplete s = .next t ∧ t.rad = s.rad.yarrow s.ndie)
    ∧ (∀ id o s0 s1 o1, RadTurn s id o s0 → o.code = 0x183 → o.imageCuts ≠ [] →
        imageChunks .read o readChunk s0 o o.imageCuts = (s1, o1, some (.ok ())) →
        exec (.rcwldApply id) s = .next ((s1.dropLog o.logi).putOp { o1 with logi := none }))
    ∧ (∀ id o s0, RadTurn s id o s0 → s0.ctx.isSome = true → o.code = 0x183 → o.imageCuts = [] → s0.hubTurn o = true →
        s0.rad.step = false → s0.storing = false → s0.unitsClear = true →
        let bs := o.aux.map (BitVec.ofNat 8)
        let ok := imageOk (bs.take 64) (tableOf (bs.drop 64)) (tableOf (bs.drop 42832)) (tableOf (bs.drop 85600))
        ∃ t, exec (.rcwldApply id) s = .next t
          ∧ (ok = true → t.rad.master = tableOf (bs.drop 64) ∧ t.rad.m1 = tableOf (bs.drop 42832)
              ∧ t.rad.m2 = tableOf (bs.drop 85600) ∧ t.rad.sdn = 0 ∧ t.rad.t = BitVec.ofNat 64 (leNat (bs.take 8)))
          ∧ (ok = false → t.rad = s0.rad))

/-- Launches and graphs (R420, R424 to R430, R437 to R440, R445, R450): records are accepted under their numbers, ready
workgroups are placed, their events occur, records reach their nodes, and graphs drain and complete. -/
def Obligations.LaunchSteps : Prop :=
  ∀ s,
    (∀ (a : Word64) k bs, s.ctx = some k → k.ended = false → a.toNat % 64 = 0 → s.homeRead a.toNat 256 = some bs →
      lrGtab (BitVec.ofNat 2048 (leNat bs)) = 0 →
      let r := BitVec.ofNat 2048 (leNat bs)
      let reasons := s.shapeReasons r ++ when ((lrDeps r).any fun d => decide (d.kind ≠ 0) && !(k.earlier d.pln)) 0x09
        ++ when (decide (4096 ≤ k.incomplete)) 0x0B
      ∃ t q, exec (.launchAcceptance (some (k.num, a))) s = .next t ∧ t.ctx = some q ∧ q.nextNum = k.nextNum + 1
        ∧ ∃ l ∈ q.launches, l.num = numOf k.nextNum ∧ l.lrec = r ∧ l.reason = (lowest reasons).getD 0)
    ∧ (∀ k sub rest o s0 s1 num, s.ctx = some k → k.ended = false → k.submits = sub :: rest → sub.graph = false →
        s.focusOp sub.op = some (o, s0) → s0.bad = [] → s0.acceptRecord k (some o) sub.addr sub.pred = some (s1, num) →
        ∃ t q, exec (.launchAcceptance none) s = .next t ∧ num = numOf k.nextNum ∧ t.ctx = some q
          ∧ q.nextNum = k.nextNum + 1 ∧ q.submits = rest)
    ∧ (∀ k sub rest o s0 s1 g, s.ctx = some k → k.ended = false → k.submits = sub :: rest → sub.graph = true → sub.count = 0 →
        s.focusOp sub.op = some (o, s0) → s0.bad = [] → s0.readGraph o k sub.addr = (s1, some g) →
        ∃ t q, exec (.launchAcceptance none) s = .next t ∧ g.num = numOf k.nextNum ∧ t.ctx = some q
          ∧ q.nextNum = k.nextNum + 1 ∧ q.submits = rest ∧ g ∈ q.graphs)
    ∧ (∀ launch die k l j js, s.ctx = some k → k.preempt = false → k.ended = false → k.launchOf launch = some l →
        k.readyWgs l = j :: js → die ∈ s.affDies (lrAff l.lrec) → lrGang l.lrec = false → k.gangKeeps launch die = false →
        s.earlierUses k launch die = false → s.coresOk l.lrec (launch * 256) die ≠ [] →
        ∃ t q x, exec (.workgroupBatchDispatch launch die) s = .next t ∧ t.ctx = some q ∧ q.launchOf launch = some x
          ∧ j ∈ x.started ∧ ∃ g ∈ t.gs, g.launch = launch ∧ g.index = j ∧ g.die = die ∧ g.lrec = l.lrec)
    ∧ (∀ launch die k l t, s.ctx = some k → k.preempt = false → k.ended = false → k.launchOf launch = some l →
        die ∈ s.affDies (lrAff l.lrec) → k.gangWaits l = true →
        (∀ v ∈ s.affDies (lrAff l.lrec), k.gangKeeps launch v = false ∧ s.earlierUses k launch v = false) →
        s.dispatchList l (s.affDies (lrAff l.lrec)) true (k.readyWgs l) = some t →
        ∃ q x, exec (.workgroupBatchDispatch launch die) s = .next t ∧ t.ctx = some q ∧ q.launchOf launch = some x
          ∧ x.started = List.range (lrNwg l.lrec))
    ∧ (∀ wg g k, s.wgOf wg = some g → wg ≠ 0 → g.event = false → g.live = 0 → s.ctx = some k →
        (∀ w ∈ s.warps, w.wg = wg → s.quiet w = true) → lrCscope g.lrec ≤ 4 ∨ s.releaseWaits g.die g.core = false →
        ∃ t q, exec (.workgroupCompletionEvent wg) s = .next t ∧ t.ctx = some q
          ∧ (∀ l, g.node = none → k.ageOf g.launch < 65536 → k.launchOf g.launch = some l →
              ∃ x, q.launchOf g.launch = some x ∧ x.events = l.events ++ [g.index])
          ∧ ∀ n h d, g.node = some n → k.graphOf g.launch = some h → h.nodes[n]? = some d →
              ∃ x y, q.graphOf g.launch = some x ∧ x.nodes[n]? = some y ∧ y.ended = d.ended + 1)
    ∧ (∀ op o s0 s1 g l, s.focusOp op = some (o, s0) → o ∈ s0.w.pend → (∀ p ∈ s0.w.pend, orderOnly p.code = false) →
        o.id = op → s0.opReady o = true → o.code = 0x18A → s0.bad = [] → s0.graphOf s0.g.launch = some g → lowestLane (o.e &&& ~~~o.sent) = some l →
        s1 = (if o.sent = 0 then s0.releaseIf o.x.ord.toNat o.x.scope.toNat else s0) →
        ∃ t, exec (.nodeRecordArrival op) s = .next t ∧ t.graphOf s0.g.launch = some
          (((o.parts l).foldl (fun s p => s.fillRange o p.1 p.2) s1).enqueueIn g o.node
            ((o.parts l).flatMap fun p => s1.readRange o p.1 p.2)).2)
    ∧ (∀ op o s0 s1 s2 g xs, s.focusOp op = some (o, s0) → o ∈ s0.w.pend → (∀ p ∈ s0.w.pend, orderOnly p.code = false) →
        o.id = op → s0.opReady o = true → o.code = 0x18B → s0.graphOf s0.g.launch = some g →
        let a := effAddr o.x.space (o.base 0) o.x.offset ((o.chunk : Int) * o.rsz)
        s0.checkRecord o a = (s1, some (.ok xs)) →
        s2 = (if o.sent = 0 then s1.releaseIf o.x.ord.toNat o.x.scope.toNat else s1) → s2.bad = [] →
        let q : Op := { o with xl := xs, chunk := o.chunk + 1, aux := [0, o.rsz, 1] }
        ∃ t, exec (.nodeRecordArrival op) s = .next t ∧ t.graphOf s0.g.launch = some
          ((s2.fillRange q a o.rsz).enqueueIn g o.node (s2.readRange q a o.rsz)).2)
    ∧ (∀ graph node k g n count v c, s.ctx = some k → k.preempt = false → k.ended = false → k.graphOf graph = some g →
        g.complete = false → (s.gather g node).nodes[node]? = some n → n.takes = some count → v ∈ s.affDies (lrAff n.tmpl) →
        k.gangKeeps graph v = false → c ∈ s.coresOk n.tmpl (graph * 256 + node) v →
        ∃ t x, exec (.nodeWorkgroupStart graph node) s = .next t ∧ t.graphOf graph = some x
          ∧ x = s.afterStart (s.gather g node) node count
          ∧ (n.spill = [] → x.nodes[node]? = some { n with queue := n.queue.drop count, due := 0, started := n.started + 1
                                                           running := n.running + 1 })
          ∧ ∃ q ∈ t.gs, q.launch = graph ∧ q.node = some node ∧ q.nrec = count ∧ q.index = n.started)
    ∧ (∀ graph k g, s.ctx = some k → k.graphOf graph = some g → g.complete = false → k.ageOf graph < 65536 →
        (∀ n ∈ g.nodes, n.running = 0 ∧ n.takes = none) →
        (∃ n ∈ g.nodes, n.waiting ≠ 0) ∨ s.diesWait g.aff g.cscope = false →
        ∃ t x, exec (.graphDrain graph) s = .next t ∧ t.graphOf graph = some x
          ∧ ((∃ n ∈ g.nodes, n.waiting ≠ 0) → x.nodes = g.nodes.map (fun n => { n with due := n.waiting }) ∧ x.complete = false)
          ∧ ((∀ n ∈ g.nodes, n.waiting = 0) → x.complete = true))

/-- Fault service, pre-emption, debugging and the host mailbox (R461, R469, R470, R478, R497, R528, R543): records are written
and settled, a context is saved and restored, warps halt and resume, and calls are taken and answered. What a command answers,
[0xFF] where it is refused and an empty answer where it is taken, is the model's choice (log entries 2 and 43), and so are the
list of the contexts beside the one in focus, and that a restored context comes into focus (log entry 2). -/
def Obligations.ServiceSteps : Prop :=
  ∀ s,
    (∀ k b bs, s.ctx = some k → k.fqHeld = b :: bs → s.queueFull k = false →
      ∃ t q n, exec .faultQueueHeadReread s = .next t ∧ t.ctx = some q ∧ 0 < n ∧ n ≤ k.fqHeld.length
        ∧ q.fqHeld = k.fqHeld.drop n ∧ q.fqTail = (k.fqTail + n) % 2 ^ k.fqLog)
    ∧ (∀ k pre u us v, s.ctx = some k → k.policy = 0 → k.unsettled = pre ++ u :: us →
        (∀ p ∈ pre, k.written p = false ∨ s.verdict p = none) → k.written u = true → s.verdict u = some v →
        ∃ t, exec .firmwareFaultSettlement s = .next t ∧ ∀ q, t.ctx = some q → ∀ x ∈ q.unsettled, x.seq ≠ u.seq)
    ∧ (∀ context index resume a pte, s.hub.state = 4 →
        (context ∉ s.ctxNums → exec (.settleFaultRecord context index resume a pte) s = .next (s.answer [0xFF]))
        ∧ ∀ k, s.ctx = some k → k.num = context →
            (k.settleable index = none → exec (.settleFaultRecord context index resume a pte) s = .next (s.answer [0xFF]))
            ∧ ∀ u, k.settleable index = some u →
                ∃ t, exec (.settleFaultRecord context index resume a pte) s = .next t ∧ t.hub.doe = [] :: s.hub.doe
                  ∧ ∀ q, t.ctx = some q → ∀ x ∈ q.unsettled, x.seq ≠ u.seq)
    ∧ (∀ k, s.ctx = some k → s.hub.state = 4 → k.preempt = false → k.ended = false →
        ∃ t, exec (.preemptContext k.num) s = .next t ∧ t.ctx = some { k with preempt := true, acks := [] }
          ∧ t.hub.doe = [] :: s.hub.doe
          ∧ (∀ w ∈ t.warps, w.ra = none) ∧ SameRegisters s t)
    ∧ (∀ k u, s.ctx = some k → k.preempt = true → u ∉ k.acks → u ∈ s.busyUnits → s.unitStopped u = true →
        s.unitRelocks u = false →
        ∃ t, exec (.enginePreemptAck u) s = .next t ∧ t.ctx = some { k with acks := u :: k.acks })
    ∧ (∀ k, s.ctx = some k → k.preempt = true → (∀ u ∈ s.busyUnits, u ∈ k.acks ∧ s.unitStopped u = true) →
        ∃ t v, exec .preemptionComplete s = .next t ∧ t.ctx = none ∧ t.w = Warp.idle ∧ t.ws = [] ∧ t.gs = []
          ∧ t.saved = s.saved ++ [v] ∧ v.ctx = { k with preempt := false, acks := [] }
          ∧ v.warps.map (fun w => (w.id, w.v, w.u, w.m))
              = (s.warps.filter fun w => w.id != 0).map fun w => (w.id, w.v, w.u, w.m))
    ∧ (∀ context v0, s.hub.state = 4 → s.savedOf context = some v0 → v0.ctx.ended = false →
        let v := (s.forRestore v0).2
        s.ctx = none ∧ s.others = [] ∨ (((s.forRestore v0).1.aside.install v).seatAll v v.wgs).isSome = true →
        ∃ t, exec (.restoreContext context) s = .next t ∧ t.ctx = some v.ctx ∧ t.hub.doe = [] :: s.hub.doe ∧ (∀ x ∈ t.saved, x.ctx.num ≠ context)
          ∧ t.others.map (·.ctx) = s.ctx.toList ++ s.others.map (·.ctx)
          ∧ ∀ g ∈ v.wgs, ∃ q ∈ t.gs, q.id = g.id ∧ q.die = g.die ∧ q.scratch = g.scratch)
    ∧ (∀ k warp w, s.ctx = some k → k.debugger = true → warp ≠ 0 → s.warpOf warp = some w →
        s.stopped (((s.wgOf w.wg).map (·.die)).getD 0) = false →
        ∃ t, exec (.debugHaltRequest warp) s = .next t ∧ t.warpOf warp = some { w with halted := true, ra := none })
    ∧ (∀ k warp single w, s.ctx = some k → k.debugger = true → s.warpOf warp = some w → w.halted = true →
        ∃ t, exec (.debugResume warp single) s = .next t
          ∧ t.warpOf warp = some { w with halted := false, single := single, passBp := true })
    ∧ (∀ attach (bps : List Nat), bps.length ≤ 8 →
        let set (k : Ctx) : Ctx :=
          { k with debugger := attach, bps := if attach then bps.map (BitVec.ofNat 64) else [] }
        (∀ k, s.ctx = some k →
          ∃ t, exec (.debuggerAttach k.num attach bps) s = .next t ∧ t.ctx = some (set k))
        ∧ ∀ context v, s.ctxNum ≠ context → context ∉ s.others.map (·.ctx.num) → s.savedOf context = some v →
          ∃ t, exec (.debuggerAttach context attach bps) s = .next t ∧ t.savedOf context = some { v with ctx := set v.ctx })
    ∧ (∀ k c, s.ctx = some k → k.mailbox.find? (fun c => !c.taken) = some c →
        ∃ t q, exec (.hostMailboxTake k.num) s = .next t ∧ t.ctx = some q
          ∧ q.mailbox = if c.wait = none then k.mailbox.filter (·.id ≠ c.id)
              else k.mailbox.map fun d => if d.id = c.id then { d with taken := true } else d)
    ∧ (∀ k c call id o reply, s.ctx = some k → k.mailbox.find? (fun c => c.taken && c.id == call && c.wait.isSome) = some c →
        c.wait = some id → s.findOp id = some o → o.warp = s.w.id →
        ∃ t q, exec (.hostMailboxReply k.num call reply) s = .next t ∧ t.ctx = some q
          ∧ q.mailbox = k.mailbox.filter (·.id ≠ c.id)
          ∧ WritesUniform s t o.f.dst.toNat [reply.setWidth 32, reply.extractLsb' 32 32] ∧ ∀ p ∈ t.w.waits, p.id ≠ o.id)

/-- Shoot-downs, page migration and the balloon engine (R480 to R486): translations drain and go; a page's bytes and chunks move to
its new frame, its leaf entries name that, and its writes are held in between; chunks are taken back, and writes that find none are
held, performed or ended. `u.wake` is the machine after such a step with what has waited for it let go. The model's choices (log
entry 12): which page is reclaimed first, that a page mapped again only leaves the list, that an offered page reads as zero from its
offer on, and how many chunks a page needs. -/
def Obligations.ShootMigrateBalloonSteps : Prop :=
  ∀ s,
    (∀ context base size, s.hub.state = 4 → size ≠ 0 → context ∈ s.ctxNums →
      ∃ t, exec (.shootDown context base size) s = .next t
        ∧ t.hub.shoot = s.hub.shoot ++ [{ ctx := context, base := base, size := size, phase := 1, acks := [] }]
        ∧ ∀ c ∈ t.c :: t.cs, ∀ e ∈ c.tlb, e.ctx = context → rangesMeet e.page e.size base size = true → e.drain = true)
    ∧ (∀ h hs unit, s.hub.shoot = h :: hs → h.phase = 1 → unit ∈ (s.swapTo h.ctx).shootUnits h.ctx → unit ∉ h.acks →
        (s.swapTo h.ctx).flightIn unit h.base h.size = false →
        ∃ t h', exec (.shootDownDrainAck unit) s = .next t ∧ t.hub.shoot = h' :: hs ∧ h'.acks = unit :: h.acks
          ∧ (h'.phase = 2 ↔ ∀ u ∈ (s.swapTo h.ctx).shootUnits h.ctx, u = unit ∨ u ∈ h.acks))
    ∧ (∀ h hs, s.hub.shoot = h :: hs → let s0 := s.swapTo h.ctx
        (s0.ctx = none ∨ s0.ctxNum ≠ h.ctx →
          ∃ t, exec .shootDownConfirm s = .next t ∧ t = { s with hub := t.hub } ∧ t.hub.shoot = hs)
        ∧ (s0.ctx ≠ none → s0.ctxNum = h.ctx → (∀ u ∈ s0.shootUnits h.ctx, u ∈ h.acks) → s0.inFlight h.base h.size = false →
            ∃ t, exec .shootDownConfirm s = .next t ∧ t.hub.shoot = hs
              ∧ ∀ c ∈ t.c :: t.cs,
                  (∀ e ∈ c.tlb, ¬(e.ctx = h.ctx ∧ e.drain = true ∧ rangesMeet e.page e.size h.base h.size = true))
                  ∧ ∀ l ∈ c.l1, ¬(l.ctx = h.ctx ∧ rangesMeet (l.tag * 128) 128 h.base h.size = true)))
    ∧ (∀ die va frame w, s.hub.state = 4 → s.ctx ≠ none → s.dies.length = 4 → s.owner va = some die →
        (s.die die).mig = none → s.walk va = w → w.status = 0 → w.page = va → w.size ≤ 2 ^ 21 → frame % w.size = 0 →
        frame + w.size ≤ (s.die die).capacity → frame ≠ w.frame →
        ((s.die die).chunkList w.frame w.size).sum ≤ (s.die die).pool + ((s.die die).chunkList frame w.size).sum →
        ∃ t, exec (.migrationCopy die va frame w.size) s = .next t
          ∧ (t.die die).mig = some { ctx := s.ctxNum, st := 1, va := va, size := w.size, old := w.frame, new := frame }
          ∧ (t.die die).chunkList frame w.size = (s.die die).chunkList w.frame w.size
          ∧ ∀ i < w.size, (t.die die).hostByte (frame + i) = (s.die die).hostByte (w.frame + i))
    ∧ (∀ v m s0, s0.dies.length = 4 → s.migIn 1 = some (v, m, s0) → (∀ u, s0.flightIn u m.va m.size = false) →
        ∃ t, exec .migrationRecopy s = .next t ∧ (t.die v).mig = some { m with st := 2 }
          ∧ (m.new % 128 = 0 → m.old % 128 = 0 → m.size % 128 = 0 → m.old + m.size ≤ m.new ∨ m.new + m.size ≤ m.old →
              ∀ i < m.size, (t.die v).hostByte (m.new + i) = (t.die v).hostByte (m.old + i))
          ∧ ∀ c ∈ t.c :: t.cs,
              (∀ e ∈ c.tlb, e.ctx = m.ctx → rangesMeet e.page e.size m.va m.size = true → Kind.write.permitted e.leaf = false)
              ∧ ∀ l ∈ c.l1, l.inRange m.ctx m.va m.size = true → l.dirty = 0)
    ∧ (∀ v m s0, s0.dies.length = 4 → s.migIn 2 = some (v, m, s0) → m.new % 4096 = 0 → m.new < 2 ^ 56 →
        let w := s0.walk m.va
        let n := if w.size = 16 * 4096 ∨ w.size = 16 * 2 ^ 21 then 16 else 1
        let first := if n = 16 then w.addr / 128 * 128 else w.addr
        ∃ t, exec .migrationRemap s = .next t ∧ (t.die v).mig = some { m with st := 3 }
          ∧ t.hub.shoot = s.hub.shoot ++ [{ ctx := m.ctx, base := m.va, size := m.size, phase := 1, acks := [] }]
          ∧ (∀ i < n, leNat (readBytes (t.die v).mem (first + 8 * i) 8)
              = withFrame (leNat (readBytes (s0.die v).mem (first + 8 * i) 8)) m.new)
          ∧ ∀ c ∈ t.c :: t.cs, ∀ e ∈ c.tlb, e.ctx = m.ctx → rangesMeet e.page e.size m.va m.size = true → e.drain = true)
    ∧ (∀ v m s0, s0.dies.length = 4 → s.migIn 3 = some (v, m, s0) →
        (∀ h ∈ s.hub.shoot, h.ctx = m.ctx → rangesMeet h.base h.size m.va m.size = false) →
        ∃ u : State, exec .migrationComplete s = .next u.wake ∧ (u.die v).mig = none
          ∧ (u.die v).pool = (s0.die v).pool + ((s0.die v).chunkList m.old m.size).sum
          ∧ (∀ i < m.size / 4096, (u.die v).chunksAt (m.old + 4096 * i) = 0)
          ∧ (∀ l ∈ (u.die v).l2, rangesMeet (l.tag * 128) 128 m.old m.size = false)
          ∧ ∀ h ∈ (u.die v).held, rangesMeet h.addr 4096 m.old m.size = false)
    ∧ (∀ va k, (∃ h ∈ s.hub.shoot, h.ctx = s.ctxNum ∧ h.base ≤ va ∧ va < h.base + h.size)
        ∨ (∃ own m, s.owner va = some own ∧ own < 4 ∧ (s.die own).mig = some m ∧ m.ctx = s.ctxNum ∧ m.va ≤ va
          ∧ va < m.va + m.size ∧ (m.st = 1 ∧ k = .atomic ∨ m.st = 2 ∧ k.writes = true)) → s.heldAt va k = true)
    ∧ (∀ die, s.dies.length = 4 → die < 4 → (s.dieAt die).pool ≤ Config.lowWatermark die →
        (∀ page, (s.dieAt die).zeroTracked = some page →
          ∃ t, exec (.balloonReclaim die) s = .next t ∧ (t.dieAt die).mem = (s.dieAt die).mem
            ∧ (t.dieAt die).pool = (s.dieAt die).pool + (s.dieAt die).chunks.get 0 page
            ∧ (t.dieAt die).offered = (s.dieAt die).offered)
        ∧ ∀ f fs, (s.dieAt die).zeroTracked = none → (s.dieAt die).offered = f :: fs →
            ∃ t : State, exec (.balloonReclaim die) s = .next t.wake ∧ (t.dieAt die).offered = fs
              ∧ (s.ownersOf die f = [] → (t.dieAt die).pool = (s.dieAt die).pool + (s.dieAt die).chunks.get 0 (f / 4096)
                ∧ (HeldInPages (s.dieAt die) f → ∀ i < 4096, (t.dieAt die).hostByte (f + i) = 0))
              ∧ (s.ownersOf die f ≠ [] → (t.dieAt die).pool = (s.dieAt die).pool ∧ (t.dieAt die).mem = (s.dieAt die).mem))
    ∧ (∀ die frame, s.hub.state = 4 → s.dies.length = 4 → (s.dieAt die).present = true → frame % 4096 = 0 →
        frame < (s.dieAt die).capacity → frame ∉ (s.dieAt die).offered → s.ownersOf die frame = [] →
        ∃ t : State, exec (.balloonPageOffer die frame) s = .next t.wake ∧ (t.dieAt die).offered = (s.dieAt die).offered ++ [frame]
          ∧ (HeldInPages (s.dieAt die) frame → ∀ i < 4096, (t.dieAt die).hostByte (frame + i) = 0))
    ∧ (∀ p l, p < s.dies.length → l.cmp = true → l.dirtyBytes ≠ [] → s.bad.contains (1, p, l.tag) = false →
        let d := s.dieAt p
        let frame := l.tag / 32 * 4096
        let bs := l.dirtyBytes.map fun b => (l.tag * 128 + b.1, b.2)
        let need := s.chunksFor p frame bs
        d.pool + d.chunksAt frame < need ∨ (∃ h ∈ d.held, h.addr = frame) → ((s.writeLine p l).dieAt p).mem = d.mem
          ∧ ((s.writeLine p l).dieAt p).held = d.held ++
              [{ ctx := s.ctxNum, addr := frame, since := s.time, chunks := need - d.chunksAt frame, bytes := bs }])
    ∧ (∀ die page chunks h, (s.dieAt die).held.find? (fun h => !h.told && h.addr == page && h.chunks == chunks) = some h →
        ∃ t, exec (.compressedWriteHold die page chunks) s = .next t ∧ t.hub.events = s.hub.events ++ [0x16]
          ∧ (∀ k, s.ctx = some k → s.holders die h = [k.num] → s.ctxNums.Nodup → ∃ q, t.ctx = some q ∧ q.fqSeq = k.fqSeq + 1
            ∧ { h with told := true } ∈ (t.dieAt die).held))
    ∧ (∀ die h hs, s.dies.length = 4 → die < 4 → (s.dieAt die).held = h :: hs → h.chunks ≤ (s.dieAt die).pool →
        ∃ t : State, exec (.compressedHoldRelease die) s = .next t.wake ∧ (t.dieAt die).held = hs
          ∧ (t.dieAt die).pool = (s.dieAt die).pool - h.chunks
          ∧ ((h.bytes.map (·.1)).Nodup → ∀ b ∈ h.bytes, (t.dieAt die).mem.get 0 b.1 = b.2))
    ∧ (∀ die h k, h ∈ (s.dieAt die).held → s.ctx = some k → h.ctx = k.num → k.ended = false → s.ctxNums.Nodup →
        h.since + k.timeout * 1000000 < s.time →
        ∃ (t : State) (q : Ctx), exec (.outOfSpaceTimeout die) s = .next t.wake ∧ t.ctx = some q ∧ q.ended = true)

/-- Power, temperatures, links and write-backs (R468, R504 to R509, R527, R531, R532): one step changes at a time, the hub
stops serving contexts at 110 °C or without a link, packets cross in order, and a dirty line with an error ends its contexts.
How many link flits a packet is, and that the flits which a link resends are a free value, are the model's choices (log entry
18), and so are the answers to SET_POWER_LIMITS (log entries 2 and 43). `u.wake` is the machine after a relock with what has
waited for it let go. -/
def Obligations.PowerAndLinkSteps : Prop :=
  ∀ s,
    (s.hub.state = 4 → s.hub.nextEval ≤ s.time →
      ∃ t, exec .powerEvaluation s = .next t ∧ t.hub.nextEval = s.hub.nextEval + 50000
        ∧ ∀ p q, (t.dieAt p).step ≠ (s.dieAt p).step → (t.dieAt q).step ≠ (s.dieAt q).step → p = q)
    ∧ (∀ die r, (s.dieAt die).relock = some r → r ≤ s.time →
        ∃ u : State, exec (.relockEnd die) s = .next u.wake ∧ (u.dieAt die).relock = none ∧ u.hub.relocked = s.time)
    ∧ (∀ d ∈ s.dies, s.hub.state = 4 → d.present = true → 1100 ≤ d.temp →
        ∃ t, exec .thermalShutdown s = .next t ∧ t.hub.state = 5 ∧ t.hub.reason = 0x0A ∧ t.hub.fails = s.hub.fails
          ∧ t.ctx = none ∧ t.others = [] ∧ t.saved = [])
    ∧ (∀ die tenths, s.hub.state = 4 → s.dies.length = 4 → die < 4 → (s.dieAt die).present = true → 1050 ≤ tenths →
        tenths < 1100 →
        ∃ t, exec (.thermalStep die tenths) s = .next t ∧ (t.dieAt die).temp = tenths ∧ (t.dieAt die).hot = true
          ∧ (s.mayRelock = true → (s.dieAt die).step ≠ 0 →
              (∀ p, p ≠ die → (s.dieAt p).temp < 1100 ∧ (s.dieAt p).overheat = false) →
              (t.dieAt die).step = 0 ∧ (t.dieAt die).relock ≠ none)
          ∧ ((∃ p < 4, p ≠ die ∧ (s.dieAt p).present = true ∧ 1100 ≤ (s.dieAt p).temp) →
              (t.dieAt die).step = (s.dieAt die).step ∧ (t.dieAt die).relock = (s.dieAt die).relock))
    ∧ (∀ cap (steps : List (Nat × Nat)), s.hub.state = 4 →
        (600 ≤ cap → cap ≤ s.designPower → steps.length = 4 → (∀ p ∈ steps, p.1 ≤ p.2 ∧ p.2 ≤ 6) →
          ∃ t, exec (.setPowerLimits cap steps) s = .next t ∧ t.hub.cap = cap ∧ t.hub.doe = [] :: s.hub.doe
            ∧ ∀ p lo hi, p < s.dies.length → steps[p]? = some (lo, hi) → (t.dieAt p).lo = lo ∧ (t.dieAt p).hi = hi)
        ∧ (cap < 600 ∨ s.designPower < cap ∨ steps.length ≠ 4 ∨ (∃ p ∈ steps, p.2 < p.1 ∨ 6 < p.2) →
            exec (.setPowerLimits cap steps) s = .next (s.answer [0xFF])))
    ∧ (∀ link l k, s.linkAt link = some l → link % 4 ≠ 3 → l.down = false → l.training = false →
        s.linkHeld (link / 4) l.far = false → l.far ≠ link / 4 → s.nextPacket l.far l.queue = some k →
        ∃ t x, exec (.linkPacketDelivery link) s = .next t ∧ t.linkAt link = some x ∧ x.queue = dropPacket l.queue k.vc
          ∧ x.sent = (l.sent + (if 4 ≤ l.far then k.flits else 1)) % 2 ^ 32
          ∧ (t.dieAt (link / 4)).dcnt.get 0 4 = (s.dieAt (link / 4)).dcnt.get 0 4 + BitVec.ofNat 64 (Config.linkRetries s.n))
    ∧ (∀ p l k, (s.dieAt p).links.find? (fun l => l.far == 4) = some l → l.down = false → l.training = false →
        s.linkHeld p 4 = false → s.nextPacket p l.back = some k → k.dst = p →
        ∃ t, exec (.linkPacketDelivery (4 * p + 3)) s = .next t
          ∧ (t.dieAt p).links.find? (fun l => l.far == 4)
              = some { l with back := dropPacket l.back k.vc, received := (l.received + k.flits) % 2 ^ 32 })
    ∧ (∀ far ks k, s.nextPacket far ks = some k → k ∈ firstPackets ks)
    ∧ (∀ link l, s.linkAt link = some l → l.down = false → (s.dieAt (link / 4)).present = true → s.hub.state ≠ 5 →
        l.far ≠ link / 4 →
        ((if l.training then l.failed + 1 else l.failed) < 4 →
          ∃ t x, exec (.linkRetrain link) s = .next t ∧ t.linkAt link = some x ∧ x.training = true ∧ x.queue = l.queue
            ∧ x.retrains = (l.retrains + 1) % 2 ^ 32)
        ∧ (4 ≤ (if l.training then l.failed + 1 else l.failed) →
            ∃ t, exec (.linkRetrain link) s = .next t ∧ t.hub.state = 5 ∧ t.hub.reason = 0x09 ∧ t.ctx = none ∧ t.others = [] ∧ t.saved = []))
    ∧ (∀ link l modules, s.linkAt link = some l → l.training = true → modules = 8 ∨ modules = 4 → l.far ≠ link / 4 →
        ∃ t x, exec (.linkRetrainComplete link modules) s = .next t ∧ t.linkAt link = some x ∧ x.training = false
          ∧ x.failed = 0 ∧ x.modules = modules ∧ x.queue = l.queue)
    ∧ (∀ die line location x k, s.hub.lost.find? (fun x => x.die == die && x.line == line && x.location == location) = some x →
        s.ctx = some k → k.num ∈ x.ctxs → k.ended = false → s.ctxNums.Nodup →
        ∃ t q, exec (.writebackUncorrectableError die line location) s = .next t ∧ t.ctx = some q ∧ q.ended = true
          ∧ (s.bad = [] → t.hub.lost = s.hub.lost.erase x))
    ∧ (∀ p die core l, l.dirty ≠ 0 →
        let gone (t : State) (location d : Nat) (ctxs : List Nat) : Prop :=
          t = { s with hub := t.hub } ∧ t.hub.lost = s.hub.lost ++ [{ location := location, die := d, line := l.tag, ctxs := ctxs }]
        (s.bad.contains (1, p, l.tag) = true → gone (s.writeLine p l) 1 p (s.ownersOf p (l.tag * 128)))
        ∧ (s.bad.contains (2, p, l.tag) = true → gone (s.guestWriteback p l) 2 p [l.ctx])
        ∧ (s.bad.contains (0, coreId (s.phys die) core, l.tag) = true → gone (s.l1Writeback die core l) 0 (s.phys die) [l.ctx]))

/-- Resets, firmware start, contexts and the host's accesses (R5, R521 to R530): what each leaves. The model's choices are
that device memory outlives a device reset and is lost with the power (log entry 1), that the staging window outlives a device
reset, that verification is a step of its own in STATE 2 and that a reset stands in STATE 0 for one step (log entry 38), the
answers of commands other than what R528 names, and the numbers and the list of contexts (log entries 2 and 43). -/
def Obligations.BootAndHostSteps : Prop :=
  ∀ s,
    (∀ die a n, s.hostWaits die = false →
      ((∀ i < n, s.hdmOk die (a + i) = true ∧ s.hostBad die (a + i) = false) →
        ∃ t, exec (.hostMemRead die a n) s = .next t ∧ t.hub.poison = false
          ∧ t.hub.readData = (List.range n).map fun i => (s.dieAt die).hostByte (a + i))
      ∧ ((∃ i < n, s.hdmOk die (a + i) = false ∨ s.hostBad die (a + i) = true) →
        ∃ t, exec (.hostMemRead die a n) s = .next t ∧ t.hub.poison = true ∧ t.hub.readData = List.replicate n 0xFF
          ∧ t.hub.errors = s.hub.errors + 1))
    ∧ (∀ die a bs, s.hostWaits die = false →
        ((∀ i < bs.length, s.hdmOk die (a + i) = true) → (∀ l ∈ (s.dieAt die).l2, l.dirty &&& ~~~l.valid = 0) →
          ∃ t, exec (.hostMemWrite die a bs) s = .next t
            ∧ ∀ x, (t.dieAt die).hostByte x =
                if a ≤ x ∧ x < a + bs.length then (bs[x - a]?).getD 0 else (s.dieAt die).hostByte x)
        ∧ ((∃ i < bs.length, s.hdmOk die (a + i) = false) →
          ∃ t, exec (.hostMemWrite die a bs) s = .next t ∧ t.dies = s.dies ∧ t.hub.errors = s.hub.errors + 1))
    ∧ (∀ addr, s.hostCoherent (addr / 64 * 64) = true → s.relocks = false →
        let a := addr / 64 * 64
        ∃ t, exec (.hostSnoop addr) s = .next t ∧ t.hub.readData = readBytes t.host a 64
          ∧ (∀ x, t.host.get 0 x = lastWrite (snooped s a) x (s.host.get 0 x))
          ∧ (∀ d ∈ t.dies, Uncopied s a d.guest) ∧ ∀ c ∈ t.c :: t.cs, Uncopied s a c.l1)
    ∧ (∃ t, exec .deviceReset s = .next t ∧ t.hub.state = 0 ∧ t.hub.image = s.hub.image ∧ t.hub.fails = s.hub.fails ∧ t.hub.reason = s.hub.reason
        ∧ t.ctx = none ∧ t.others = [] ∧ t.saved = [] ∧ t.dies.map (·.mem) = s.dies.map (·.mem))
    ∧ (s.turn = none → s.hub.state = 0 → ∃ t, step s = .next t ∧ t.hub.state = 1)
    ∧ (∃ t, exec .powerRemoval s = .next t ∧ t.hub.state = 0 ∧ t.hub.fails = 0 ∧ t.hub.reason = 0 ∧ t.ctx = none
        ∧ ∀ d ∈ t.dies, d.mem = [])
    ∧ (∀ image,
        ∃ t, exec (.start image) s = .next t
          ∧ (∀ x < windowBytes, (t.hub.image[x]?).getD 0 = (image[x]?).getD ((s.hub.image[x]?).getD 0))
          ∧ t.hub.state = (if s.hub.state = 1 then 2 else s.hub.state) ∧ t.hub.fails = s.hub.fails)
    ∧ (s.hub.state = 2 → .next s.verifyImage ∈ s.portMoves)
    ∧ (let t := s.verifyImage
       (checkImage s.hub.image = none → t.hub.state = 3 ∧ t.hub.since = s.time
          ∧ t.hub.aliasSeed = seedOf (identitySeed ++ leBytes 64 (firmwareDigest s.hub.image).toNat)
          ∧ t.hub.aliasSig = Config.ed25519Sign identitySeed (Config.ed25519Public t.hub.aliasSeed))
       ∧ ∀ r, checkImage s.hub.image = some r → FailedStart s t (BitVec.ofNat 8 r))
    ∧ (s.hub.state = 5 → ∃ t, exec .clrf s = .next t ∧ t.hub.state = 0 ∧ t.hub.fails = 0 ∧ t.hub.reason = 0)
    ∧ (s.hub.state ≠ 5 → exec .clrf s = .next s)
    ∧ (s.hub.state = 1 → 30000 * 1000000 ≤ s.time - s.hub.since →
        ∃ t, exec .bootStartTimeout s = .next t ∧ FailedStart s t 0x01)
    ∧ (s.hub.state = 3 → s.time - s.hub.since ≤ 10000 * 1000000 →
        ∃ t, exec .firmwareRunning s = .next t ∧ t.hub.state = 4 ∧ t.hub.fails = 0)
    ∧ (s.hub.state = 3 → 10000 * 1000000 < s.time - s.hub.since →
        ∃ t, exec .firmwareStartTimeout s = .next t ∧ FailedStart s t 0x06)
    ∧ (∀ r, s.hub.state = 3 → r = 5 ∨ r = 7 ∨ r = 8 →
        ∃ t, exec (.firmwareStartFailure r) s = .next t ∧ FailedStart s t (BitVec.ofNat 8 r))
    ∧ (∀ bar offset value, ¬(bar = 2 ∧ offset < windowBytes) → ¬(bar = 0 ∧ offset = 4) →
        exec (.barRegisterWrite ⟨bar, offset⟩ value) s = .next s)
    ∧ (∀ value : Word,
        (value.getLsbD 0 = true → s.hub.state = 1 →
          exec (.barRegisterWrite ⟨0, 4⟩ value) s = .next { s with hub := { s.hub with state := 2 } })
        ∧ (value.getLsbD 1 = true → s.hub.state = 5 → exec (.barRegisterWrite ⟨0, 4⟩ value) s = exec .clrf s)
        ∧ (value.getLsbD 0 = false ∨ s.hub.state ≠ 1 → value.getLsbD 1 = false ∨ s.hub.state ≠ 5 →
            exec (.barRegisterWrite ⟨0, 4⟩ value) s = .next s))
    ∧ (∀ offset (value : Word), offset < windowBytes →
        ∃ t, exec (.barRegisterWrite ⟨2, offset⟩ value) s = .next t ∧ t.hub.state = s.hub.state
          ∧ ∀ x < windowBytes, (t.hub.image[x]?).getD 0 =
              if offset ≤ x ∧ x < offset + 4 then value.extractLsb' (8 * (x - offset)) 8 else (s.hub.image[x]?).getD 0)
    ∧ ((s.barRead 0).extractLsb' 28 4 = s.hub.state ∧ (s.barRead 0).extractLsb' 24 4 = s.hub.fails
        ∧ (s.barRead 0).extractLsb' 16 8 = s.hub.reason ∧ (s.barRead 0).extractLsb' 0 16 = 0 ∧ ∀ offset, offset ≠ 0 → s.barRead offset = 0)
    ∧ (∀ (coherent peers : List (Nat × Nat)), s.hub.state = 4 →
        (s.ctxNums = [] → coherent.length ≤ 16 → peers.length ≤ 8 →
          ∃ t, exec (.declareRanges coherent peers) s = .next t ∧ t.hub.coherent = coherent ∧ t.hub.peers = peers)
        ∧ (s.ctxNums ≠ [] ∨ 16 < coherent.length ∨ 8 < peers.length →
          exec (.declareRanges coherent peers) s = .next (s.answer [0xFF])))
    ∧ (∀ offset, s.hub.state = 4 → let desc := s.hdmBytes offset 128
        (descBad desc (s.dies.countP (·.present)) = none → s.ctx = none →
          ∃ t k, exec (.createContext offset) s = .next t ∧ t.ctx = some k ∧ k.num = s.hub.nextCtx
            ∧ k.thv = BitVec.ofNat 64 (leNat (desc.take 8)) ∧ t.hub.nextCtx = s.hub.nextCtx + 1
            ∧ t.hub.doe = leBytes 4 s.hub.nextCtx :: s.hub.doe)
        ∧ (descBad desc (s.dies.countP (·.present)) = none → s.ctx ≠ none →
          ∃ t v, exec (.createContext offset) s = .next t ∧ t.ctx = s.ctx ∧ t.others = s.others ++ [v] ∧ v.ctx.num = s.hub.nextCtx
            ∧ v.warps = [] ∧ t.hub.nextCtx = s.hub.nextCtx + 1 ∧ t.hub.doe = leBytes 4 s.hub.nextCtx :: s.hub.doe)
        ∧ ∀ a, descBad desc (s.dies.countP (·.present)) = some a →
            exec (.createContext offset) s = .next (s.answer [BitVec.ofNat 8 a]))
    ∧ (∀ context, s.hub.state = 4 →
        (∀ k, s.ctx = some k → k.num = context →
          ∃ t, exec (.destroyContext context) s = .next t ∧ t.ctx = none ∧ t.ws = [] ∧ t.hub.doe = [] :: s.hub.doe)
        ∧ (∀ v ∈ s.others, v.ctx.num = context → s.ctxNum ≠ context →
          ∃ t, exec (.destroyContext context) s = .next t ∧ t.ctx = none ∧ context ∉ t.others.map (·.ctx.num)
            ∧ (∀ k, s.ctx = some k → k ∈ t.others.map (·.ctx)))
        ∧ (s.ctxNum ≠ context → context ∉ s.others.map (·.ctx.num) → context ∈ s.saved.map (·.ctx.num) →
          ∃ t, exec (.destroyContext context) s = .next t ∧ t.ctx = s.ctx ∧ context ∉ t.saved.map (·.ctx.num))
        ∧ (context ∉ s.ctxNums → exec (.destroyContext context) s = .next (s.answer [0xFF])))
    ∧ (∀ request, ∃ t, exec (.spdmRequest request) s = .next t
        ∧ t.hub.doe = Config.spdmReply s.certChain s.hub.aliasSeed s.measured request :: s.hub.doe)

/-! ### The machine -/

/-- Encoding and decoding agree on every instruction that has a word, at every value of its operands, and on every legal word
(R37 to R57). -/
def Obligations.DecodeOfEncode : Prop :=
  (∀ (i : Instr) (rest : List Byte), i.wellFormed = true → i.hasWord = true → decode (encode i ++ rest) = .ok (i, rest))
  ∧ ∀ (bytes : List Byte) i rest, decode bytes = .ok (i, rest) →
      i.wellFormed = true ∧ i.hasWord = true ∧ encode i ++ rest = bytes

/-- Words written out from the tables of the specification decode to the instructions that they stand for, and illegal ones are
refused with their reasons (R37, R40, R47, R50, R53, R57). -/
def Obligations.WordsDecodeAsWritten : Prop :=
  let f : FmtA := { cond := .always, fsel := false, wcc := false, neg := false, md := 0, dst := 0, sa := .lane 0, sb := .lane 0
                    sc := .lane 0, lit := none }
  decodeTableWord 64 0x0020400080000888 = some (.isub { f with wcc := true, dst := 1, sb := .imm 16 })
  ∧ decodeTableWord 64 0x00001000003810EC = some (.mov { f with dst := 2, sa := .imm 7 })
  ∧ decodeTableWord 64 0x0000000000101880 = some (.iadd { f with dst := 3, sa := .lane 2 })
  ∧ decodeTableWord 96 0x0008183848A00004021001FD = some (.pair
      { cop := 0x00, dst := 8, sa := 1, sb := 2, kb := false, sc := 0, rm := 0, neg := false }
      { cop := 0x05, dst := 9, sa := 7, sb := 3, kb := true, sc := 0, rm := 0, neg := false })
  ∧ decodeTableWord 128 0x2001000000000000000048000040054A
      = some (.mpass { f with sa := .uni 8, sb := .imm 0 } { Upper.blank with ext := 0x080040 })
  ∧ decodeTableWord 64 0x1147C023
      = some (.clauseStart { wait := 0x008, flag0 := none, flag1 := some 1, count := 5, yield := true })
  ∧ decode (leBytes 8 0x0000000000000000) = .error .unassigned
  ∧ decode (leBytes 8 0x0000000000000384) = .error .length
  ∧ decode (leBytes 8 0x0000000000000804) = .error .reservedField

/-- The step of a warp whose turn it is (R37, R38, R45, R57, R92, R102): with the bytes at its address translated and decoded to
a legal word, the step is that word's effect, with the word counted and the other ready warps of the core passed over; an
illegal word is the trap of its reason; and at a clause header the clause starts. Time passes. -/
def Obligations.StepRunsDecodedWord : Prop :=
  ∀ s f id, s.turn = some id → id ≠ 0 → ({ s with turn := none } : State).focus id = some f →
    f.w.id ≠ 0 → f.stopped f.g.die = false → f.w.ended = false → f.w.halted = false → f.w.sleep = none →
    f.w.sched.active = true → f.w.mcPend = [] → f.w.ra = none →
    (∀ r p, f.w.run = some r → r.mask ≠ 0 → f.stalled = false → f.fetchCheck r.pc.toNat = (p, none) →
      p.wordBad r.pc.toNat = none → p.breaksAt r.pc = false → p.resumableAt r.pc r.mask = none →
      let cx := p.decodeCtx (decide (r.left ≤ 1))
      let b := p.wordBits r.pc.toNat
      (∀ i u, placeReasons b r.pc.toNat cx.last = [] → decodeWith cx b = .ok i →
        p.clearPass.parityLanes (wordRegs cx b).1 = 0 → exec i p.clearPass = .next u →
        step s = .next
          (if u.w.id = p.w.id ∧ u.w.run ≠ p.w.run then (p.passOver (u.count 0x01)).closeRun else u.closeRun).tick)
      ∧ ∀ e u, lowest (clauseReasons cx b r.pc.toNat) = some e →
          exec (.illegalInstruction e) p.clearPass = .next u → step s = .next u.tick)
    ∧ ∀ h p u, f.w.run = none → f.preempted = false → f.w.carving = false → f.w.pick = some h → h.ent.mid = none →
        f.fetchHeld h.pc.toNat = false →
        f.fetchCheck h.pc.toNat = (p, none) → p.wordBad h.pc.toNat = none → p.headerAt h.pc.toNat = true →
        headerReasons ((p.wordBits h.pc.toNat).extractLsb' 0 64) = [] →
        exec (.clauseStart (p.header h.pc)) f = .next u → step s = .next u.tick

/-- No program stops the package: every word answers a next state, and so does every step (R455, R462, R464). -/
def Obligations.StepNeverStops : Prop :=
  (∀ (i : Instr) s, i.fmt.isSome = true → ∃ t, exec i s = .next t)
  ∧ (∀ x y s, ∃ t, exec (.pair x y) s = .next t)
  ∧ ∀ s, ∃ t, step s = .next t

/-- Reset and start (R74, R132, R187, R427, R463, R525, R526): after reset the ROM awaits an image, nothing is resident and no
memory lists a byte; failed starts count to minimal mode; and a warp starts as its launch record says. The model's choices:
that memory reads as empty after a reset (log entry 1), the STATEs 0 and 2 as steps of their own (log entry 38), the idle warp
that stands where none is (log entry 9) and four dies (log entry 46). -/
def Obligations.ResetAndStartStates : Prop :=
  State.reset.bootStatus = 0 ∧ State.reset.romStep.bootStatus = 0x10000000 ∧ State.reset.ctx = none ∧ State.reset.others = [] ∧ State.reset.saved = [] ∧ State.reset.ws = []
  ∧ State.reset.w = Warp.idle ∧ State.reset.time = 0 ∧ (∀ d ∈ State.reset.dies, d.mem = [] ∧ d.ncyc = 0)
  ∧ PackageForm State.reset
  ∧ (∀ s image, checkImage (stage s.hub.image 0 image) = some 2 → s.hub.state = 1 →
      ∃ t, exec (.start image) s = .next t ∧ t.hub.state = 2
        ∧ (s.hub.fails = 0 → t.verifyImage.bootStatus = 0x01020000 ∧ t.verifyImage.romStep.bootStatus = 0x11020000)
        ∧ (s.hub.fails = 1 → t.verifyImage.bootStatus = 0x02020000 ∧ t.verifyImage.romStep.bootStatus = 0x12020000)
        ∧ (s.hub.fails = 2 → t.verifyImage.bootStatus = 0x53020000))
  ∧ ∀ r id wg idx slot time active,
      let w := startWarp r id wg idx slot time active
      w.v = [] ∧ w.m = [] ∧ w.ccC = 0 ∧ w.ccZ = 0 ∧ w.ccN = 0 ∧ w.ccV = 0 ∧ w.sticky = 0 ∧ w.outs = [] ∧ w.th = {}
        ∧ w.sched.prio = lrPrio r ∧ w.sched.ceil = lrCeil r ∧ w.lanes = lanesAt .ready (lrEntry r)
        ∧ ∀ k, Sparse.get 0 w.u k = if k < min (lrUregs r) 16 then lrUinit r k else 0

/-- Every step keeps every memory, the scratch of every workgroup among them, in the canonical form that the model gives memories
(log entry 1), and every die in its place. -/
def Obligations.StepKeepsMemories : Prop :=
  ∀ s t, PackageForm s → step s = .next t → PackageForm t
end

