-- ==== Sys2Proof/Laws/Sparse.lean ====
section
/-! SUPPORT. Tables from numbers to values: reading after writing, and the canonical form (every write keeps it). -/

namespace Sys2Proof

theorem Sparse.get_put {α : Type} (d : α) (m : Sparse α) (a : Nat) (x : α) (b : Nat) :
    Sparse.get d (Sparse.put m a x) b = if b = a then x else Sparse.get d m b := by
  induction m with
  | nil => simp [Sparse.put, Sparse.get]
  | cons p m ih =>
    obtain ⟨k, v⟩ := p
    by_cases h : a = k
    · subst h; by_cases hb : b = a <;> simp [Sparse.put, Sparse.get, hb]
    · by_cases h2 : a < k
      · by_cases hb : b = a <;> simp [Sparse.put, Sparse.get, h, h2, hb]
      · by_cases hb : b = k
        · subst hb; simp [Sparse.put, Sparse.get, h, h2, Ne.symm h]
        · simp [Sparse.put, Sparse.get, h, h2, hb, ih]

theorem Sparse.get_drop {α : Type} (d : α) (m : Sparse α) (a b : Nat) :
    Sparse.get d (Sparse.drop m a) b = if b = a then d else Sparse.get d m b := by
  induction m with
  | nil => simp [Sparse.drop, Sparse.get]
  | cons p m ih =>
    obtain ⟨k, v⟩ := p
    by_cases h : a = k
    · subst h; by_cases hb : b = a
      · subst hb; simpa [Sparse.drop] using ih
      · simp [Sparse.drop, Sparse.get, ih, hb]
    · by_cases hb : b = k
      · subst hb; simp [Sparse.drop, Sparse.get, h, Ne.symm h]
      · simp [Sparse.drop, Sparse.get, h, hb, ih]

/-- Reading after writing, at every key and on every table. -/
@[simp] theorem Sparse.get_set {α : Type} [DecidableEq α] (d : α) (m : Sparse α) (a : Nat) (x : α) (b : Nat) :
    Sparse.get d (Sparse.set d m a x) b = if b = a then x else Sparse.get d m b := by
  unfold Sparse.set
  by_cases h : x = d
  · subst h; simp [Sparse.get_drop]
  · simp [h, Sparse.get_put]

theorem Sparse.wfFrom_mono {α : Type} [DecidableEq α] (d : α) {m : Sparse α} {lo lo' : Nat} (h : lo' ≤ lo)
    (w : Sparse.wfFrom d lo m = true) : Sparse.wfFrom d lo' m = true := by
  cases m with
  | nil => rfl
  | cons p m =>
    obtain ⟨k, v⟩ := p
    simp only [Sparse.wfFrom, Bool.and_eq_true, decide_eq_true_eq] at *
    exact ⟨⟨by omega, w.1.2⟩, w.2⟩

theorem Sparse.wfFrom_put {α : Type} [DecidableEq α] (d : α) {m : Sparse α} {lo a : Nat} {x : α} (hx : x ≠ d) (ha : lo ≤ a)
    (w : Sparse.wfFrom d lo m = true) : Sparse.wfFrom d lo (Sparse.put m a x) = true := by
  induction m generalizing lo with
  | nil => simp [Sparse.put, Sparse.wfFrom, ha, hx]
  | cons p m ih =>
    obtain ⟨k, v⟩ := p
    simp only [Sparse.wfFrom, Bool.and_eq_true, decide_eq_true_eq] at w
    by_cases h : a = k
    · subst h; simp [Sparse.put, Sparse.wfFrom, ha, hx, w.2]
    · by_cases h2 : a < k
      · simp only [Sparse.put, h, h2, if_true, if_false, Sparse.wfFrom, Bool.and_eq_true, decide_eq_true_eq]
        exact ⟨⟨ha, hx⟩, ⟨⟨by omega, w.1.2⟩, w.2⟩⟩
      · simp only [Sparse.put, h, h2, if_false, Sparse.wfFrom, Bool.and_eq_true, decide_eq_true_eq]
        exact ⟨w.1, ih (by omega) w.2⟩

theorem Sparse.wfFrom_drop {α : Type} [DecidableEq α] (d : α) {m : Sparse α} {lo : Nat} (a : Nat)
    (w : Sparse.wfFrom d lo m = true) : Sparse.wfFrom d lo (Sparse.drop m a) = true := by
  induction m generalizing lo with
  | nil => rfl
  | cons p m ih =>
    obtain ⟨k, v⟩ := p
    simp only [Sparse.wfFrom, Bool.and_eq_true, decide_eq_true_eq] at w
    by_cases h : a = k
    · simp only [Sparse.drop, h, if_true]; exact Sparse.wfFrom_mono d (by omega) (h ▸ ih w.2)
    · simp only [Sparse.drop, h, if_false, Sparse.wfFrom, Bool.and_eq_true, decide_eq_true_eq]
      exact ⟨w.1, ih w.2⟩

/-- A write keeps the canonical form. -/
theorem Sparse.set_wf {α : Type} [DecidableEq α] (d : α) {m : Sparse α} (a : Nat) (x : α) (w : Sparse.wf d m = true) :
    Sparse.wf d (Sparse.set d m a x) = true := by
  unfold Sparse.set Sparse.wf at *
  by_cases h : x = d
  · rw [if_pos h]; exact Sparse.wfFrom_drop d a w
  · rw [if_neg h]; exact Sparse.wfFrom_put d h (Nat.zero_le a) w

namespace Machine

/-- A byte written over a range changes nothing outside it. -/
theorem writeBytes_get (m : Sparse Byte) (a : Nat) (bs : List Byte) (b : Nat) :
    Sparse.get byte0 (writeBytes m a bs) b = if a ≤ b ∧ b < a + bs.length then bs[b - a]?.getD byte0 else Sparse.get byte0 m b := by
  induction bs generalizing m a with
  | nil => simp [writeBytes]
  | cons x xs ih =>
    simp only [writeBytes, ih, Sparse.get_set, List.length_cons]
    by_cases hb : b = a
    · subst hb; simp
    · by_cases h : a + 1 ≤ b ∧ b < a + 1 + xs.length
      · have h1 : a ≤ b ∧ b < a + (xs.length + 1) := by omega
        have h2 : b - a = (b - (a + 1)) + 1 := by omega
        rw [if_pos h, if_pos h1, h2]; simp
      · have h1 : ¬ (a ≤ b ∧ b < a + (xs.length + 1)) := by omega
        rw [if_neg h, if_neg h1, if_neg hb]

/-- Every write of bytes keeps a memory canonical. -/
theorem writeBytes_wf (m : Sparse Byte) (a : Nat) (bs : List Byte) (w : Memory.wf m = true) :
    Memory.wf (writeBytes m a bs) = true := by
  induction bs generalizing m a with
  | nil => exact w
  | cons x xs ih => exact ih _ _ (Sparse.set_wf byte0 a x w)

theorem readBytes_length (m : Sparse Byte) (a n : Nat) : (readBytes m a n).length = n := by
  induction n generalizing a with
  | zero => rfl
  | succ n ih => simp [readBytes, ih]

/-- A byte that a read of a range returns. -/
theorem readBytes_get (m : Sparse Byte) (a n i : Nat) (h : i < n) : (readBytes m a n)[i]? = some (Sparse.get byte0 m (a + i)) := by
  induction n generalizing a i with
  | zero => omega
  | succ n ih =>
    cases i with
    | zero => simp [readBytes]
    | succ i => simp only [readBytes, List.getElem?_cons_succ]; rw [ih (a + 1) i (by omega)]; congr 2; omega

end Machine

end Sys2Proof
end

