-- ==== Sys2Proof/Laws/State.lean ====
section
/-! SUPPORT. Each field of the state after each plain update of it, so that no proof unfolds a record update. -/

namespace Sys2Proof.Machine

/-! ### setV -/

@[simp] theorem setV_g (s : State) (r : Nat) (e : LaneMask) (x : Nat → Word) : (s.setV r e x).g = s.g := rfl
@[simp] theorem setV_c (s : State) (r : Nat) (e : LaneMask) (x : Nat → Word) : (s.setV r e x).c = s.c := rfl
@[simp] theorem setV_ws (s : State) (r : Nat) (e : LaneMask) (x : Nat → Word) : (s.setV r e x).ws = s.ws := rfl
@[simp] theorem setV_gs (s : State) (r : Nat) (e : LaneMask) (x : Nat → Word) : (s.setV r e x).gs = s.gs := rfl
@[simp] theorem setV_cs (s : State) (r : Nat) (e : LaneMask) (x : Nat → Word) : (s.setV r e x).cs = s.cs := rfl
@[simp] theorem setV_dies (s : State) (r : Nat) (e : LaneMask) (x : Nat → Word) : (s.setV r e x).dies = s.dies := rfl
@[simp] theorem setV_ctx (s : State) (r : Nat) (e : LaneMask) (x : Nat → Word) : (s.setV r e x).ctx = s.ctx := rfl
@[simp] theorem setV_others (s : State) (r : Nat) (e : LaneMask) (x : Nat → Word) : (s.setV r e x).others = s.others := rfl
@[simp] theorem setV_saved (s : State) (r : Nat) (e : LaneMask) (x : Nat → Word) : (s.setV r e x).saved = s.saved := rfl
@[simp] theorem setV_hub (s : State) (r : Nat) (e : LaneMask) (x : Nat → Word) : (s.setV r e x).hub = s.hub := rfl
@[simp] theorem setV_host (s : State) (r : Nat) (e : LaneMask) (x : Nat → Word) : (s.setV r e x).host = s.host := rfl
@[simp] theorem setV_peer (s : State) (r : Nat) (e : LaneMask) (x : Nat → Word) : (s.setV r e x).peer = s.peer := rfl
@[simp] theorem setV_time (s : State) (r : Nat) (e : LaneMask) (x : Nat → Word) : (s.setV r e x).time = s.time := rfl
@[simp] theorem setV_bad (s : State) (r : Nat) (e : LaneMask) (x : Nat → Word) : (s.setV r e x).bad = s.bad := rfl
@[simp] theorem setV_inputs (s : State) (r : Nat) (e : LaneMask) (x : Nat → Word) : (s.setV r e x).inputs = s.inputs := rfl
@[simp] theorem setV_turn (s : State) (r : Nat) (e : LaneMask) (x : Nat → Word) : (s.setV r e x).turn = s.turn := rfl
@[simp] theorem setV_n (s : State) (r : Nat) (e : LaneMask) (x : Nat → Word) : (s.setV r e x).n = s.n := rfl
@[simp] theorem setV_nextId (s : State) (r : Nat) (e : LaneMask) (x : Nat → Word) : (s.setV r e x).nextId = s.nextId := rfl
@[simp] theorem setV_w_id (s : State) (r : Nat) (e : LaneMask) (x : Nat → Word) : (s.setV r e x).w.id = s.w.id := rfl
@[simp] theorem setV_w_wg (s : State) (r : Nat) (e : LaneMask) (x : Nat → Word) : (s.setV r e x).w.wg = s.w.wg := rfl
@[simp] theorem setV_w_idx (s : State) (r : Nat) (e : LaneMask) (x : Nat → Word) : (s.setV r e x).w.idx = s.w.idx := rfl
@[simp] theorem setV_w_slot (s : State) (r : Nat) (e : LaneMask) (x : Nat → Word) : (s.setV r e x).w.slot = s.w.slot := rfl
@[simp] theorem setV_w_win (s : State) (r : Nat) (e : LaneMask) (x : Nat → Word) : (s.setV r e x).w.win = s.w.win := rfl
@[simp] theorem setV_w_u (s : State) (r : Nat) (e : LaneMask) (x : Nat → Word) : (s.setV r e x).w.u = s.w.u := rfl
@[simp] theorem setV_w_m (s : State) (r : Nat) (e : LaneMask) (x : Nat → Word) : (s.setV r e x).w.m = s.w.m := rfl
@[simp] theorem setV_w_ccC (s : State) (r : Nat) (e : LaneMask) (x : Nat → Word) : (s.setV r e x).w.ccC = s.w.ccC := rfl
@[simp] theorem setV_w_ccZ (s : State) (r : Nat) (e : LaneMask) (x : Nat → Word) : (s.setV r e x).w.ccZ = s.w.ccZ := rfl
@[simp] theorem setV_w_ccN (s : State) (r : Nat) (e : LaneMask) (x : Nat → Word) : (s.setV r e x).w.ccN = s.w.ccN := rfl
@[simp] theorem setV_w_ccV (s : State) (r : Nat) (e : LaneMask) (x : Nat → Word) : (s.setV r e x).w.ccV = s.w.ccV := rfl
@[simp] theorem setV_w_lanes (s : State) (r : Nat) (e : LaneMask) (x : Nat → Word) : (s.setV r e x).w.lanes = s.w.lanes := rfl
@[simp] theorem setV_w_rcb (s : State) (r : Nat) (e : LaneMask) (x : Nat → Word) : (s.setV r e x).w.rcb = s.w.rcb := rfl
@[simp] theorem setV_w_run (s : State) (r : Nat) (e : LaneMask) (x : Nat → Word) : (s.setV r e x).w.run = s.w.run := rfl
@[simp] theorem setV_w_sched (s : State) (r : Nat) (e : LaneMask) (x : Nat → Word) : (s.setV r e x).w.sched = s.w.sched := rfl
@[simp] theorem setV_w_sleep (s : State) (r : Nat) (e : LaneMask) (x : Nat → Word) : (s.setV r e x).w.sleep = s.w.sleep := rfl
@[simp] theorem setV_w_sticky (s : State) (r : Nat) (e : LaneMask) (x : Nat → Word) : (s.setV r e x).w.sticky = s.w.sticky := rfl
@[simp] theorem setV_w_late (s : State) (r : Nat) (e : LaneMask) (x : Nat → Word) : (s.setV r e x).w.late = s.w.late := rfl
@[simp] theorem setV_w_th (s : State) (r : Nat) (e : LaneMask) (x : Nat → Word) : (s.setV r e x).w.th = s.w.th := rfl
@[simp] theorem setV_w_inHandler (s : State) (r : Nat) (e : LaneMask) (x : Nat → Word) : (s.setV r e x).w.inHandler = s.w.inHandler := rfl
@[simp] theorem setV_w_halted (s : State) (r : Nat) (e : LaneMask) (x : Nat → Word) : (s.setV r e x).w.halted = s.w.halted := rfl
@[simp] theorem setV_w_single (s : State) (r : Nat) (e : LaneMask) (x : Nat → Word) : (s.setV r e x).w.single = s.w.single := rfl
@[simp] theorem setV_w_passBp (s : State) (r : Nat) (e : LaneMask) (x : Nat → Word) : (s.setV r e x).w.passBp = s.w.passBp := rfl
@[simp] theorem setV_w_shadow (s : State) (r : Nat) (e : LaneMask) (x : Nat → Word) : (s.setV r e x).w.shadow = s.w.shadow := rfl
@[simp] theorem setV_w_sync (s : State) (r : Nat) (e : LaneMask) (x : Nat → Word) : (s.setV r e x).w.sync = s.w.sync := rfl
@[simp] theorem setV_w_trav (s : State) (r : Nat) (e : LaneMask) (x : Nat → Word) : (s.setV r e x).w.trav = s.w.trav := rfl
@[simp] theorem setV_w_mc (s : State) (r : Nat) (e : LaneMask) (x : Nat → Word) : (s.setV r e x).w.mc = s.w.mc := rfl
@[simp] theorem setV_w_mcPend (s : State) (r : Nat) (e : LaneMask) (x : Nat → Word) : (s.setV r e x).w.mcPend = s.w.mcPend := rfl
@[simp] theorem setV_w_outs (s : State) (r : Nat) (e : LaneMask) (x : Nat → Word) : (s.setV r e x).w.outs = s.w.outs := rfl
@[simp] theorem setV_w_clsN (s : State) (r : Nat) (e : LaneMask) (x : Nat → Word) : (s.setV r e x).w.clsN = s.w.clsN := rfl
@[simp] theorem setV_w_gdone (s : State) (r : Nat) (e : LaneMask) (x : Nat → Word) : (s.setV r e x).w.gdone = s.w.gdone := rfl
@[simp] theorem setV_w_pend (s : State) (r : Nat) (e : LaneMask) (x : Nat → Word) : (s.setV r e x).w.pend = s.w.pend := rfl
@[simp] theorem setV_w_parked (s : State) (r : Nat) (e : LaneMask) (x : Nat → Word) : (s.setV r e x).w.parked = s.w.parked := rfl
@[simp] theorem setV_w_waits (s : State) (r : Nat) (e : LaneMask) (x : Nat → Word) : (s.setV r e x).w.waits = s.w.waits := rfl
@[simp] theorem setV_w_carving (s : State) (r : Nat) (e : LaneMask) (x : Nat → Word) : (s.setV r e x).w.carving = s.w.carving := rfl
@[simp] theorem setV_w_ra (s : State) (r : Nat) (e : LaneMask) (x : Nat → Word) : (s.setV r e x).w.ra = s.w.ra := rfl
@[simp] theorem setV_w_raDone (s : State) (r : Nat) (e : LaneMask) (x : Nat → Word) : (s.setV r e x).w.raDone = s.w.raDone := rfl
@[simp] theorem setV_w_ended (s : State) (r : Nat) (e : LaneMask) (x : Nat → Word) : (s.setV r e x).w.ended = s.w.ended := rfl
@[simp] theorem setV_w_ret (s : State) (r : Nat) (e : LaneMask) (x : Nat → Word) : (s.setV r e x).w.ret = s.w.ret := rfl

/-! ### setU -/

@[simp] theorem setU_g (s : State) (r : Nat) (x : Word) : (s.setU r x).g = s.g := rfl
@[simp] theorem setU_c (s : State) (r : Nat) (x : Word) : (s.setU r x).c = s.c := rfl
@[simp] theorem setU_ws (s : State) (r : Nat) (x : Word) : (s.setU r x).ws = s.ws := rfl
@[simp] theorem setU_gs (s : State) (r : Nat) (x : Word) : (s.setU r x).gs = s.gs := rfl
@[simp] theorem setU_cs (s : State) (r : Nat) (x : Word) : (s.setU r x).cs = s.cs := rfl
@[simp] theorem setU_dies (s : State) (r : Nat) (x : Word) : (s.setU r x).dies = s.dies := rfl
@[simp] theorem setU_ctx (s : State) (r : Nat) (x : Word) : (s.setU r x).ctx = s.ctx := rfl
@[simp] theorem setU_others (s : State) (r : Nat) (x : Word) : (s.setU r x).others = s.others := rfl
@[simp] theorem setU_saved (s : State) (r : Nat) (x : Word) : (s.setU r x).saved = s.saved := rfl
@[simp] theorem setU_hub (s : State) (r : Nat) (x : Word) : (s.setU r x).hub = s.hub := rfl
@[simp] theorem setU_host (s : State) (r : Nat) (x : Word) : (s.setU r x).host = s.host := rfl
@[simp] theorem setU_peer (s : State) (r : Nat) (x : Word) : (s.setU r x).peer = s.peer := rfl
@[simp] theorem setU_time (s : State) (r : Nat) (x : Word) : (s.setU r x).time = s.time := rfl
@[simp] theorem setU_bad (s : State) (r : Nat) (x : Word) : (s.setU r x).bad = s.bad := rfl
@[simp] theorem setU_inputs (s : State) (r : Nat) (x : Word) : (s.setU r x).inputs = s.inputs := rfl
@[simp] theorem setU_turn (s : State) (r : Nat) (x : Word) : (s.setU r x).turn = s.turn := rfl
@[simp] theorem setU_n (s : State) (r : Nat) (x : Word) : (s.setU r x).n = s.n := rfl
@[simp] theorem setU_nextId (s : State) (r : Nat) (x : Word) : (s.setU r x).nextId = s.nextId := rfl
@[simp] theorem setU_w_id (s : State) (r : Nat) (x : Word) : (s.setU r x).w.id = s.w.id := rfl
@[simp] theorem setU_w_wg (s : State) (r : Nat) (x : Word) : (s.setU r x).w.wg = s.w.wg := rfl
@[simp] theorem setU_w_idx (s : State) (r : Nat) (x : Word) : (s.setU r x).w.idx = s.w.idx := rfl
@[simp] theorem setU_w_slot (s : State) (r : Nat) (x : Word) : (s.setU r x).w.slot = s.w.slot := rfl
@[simp] theorem setU_w_win (s : State) (r : Nat) (x : Word) : (s.setU r x).w.win = s.w.win := rfl
@[simp] theorem setU_w_v (s : State) (r : Nat) (x : Word) : (s.setU r x).w.v = s.w.v := rfl
@[simp] theorem setU_w_m (s : State) (r : Nat) (x : Word) : (s.setU r x).w.m = s.w.m := rfl
@[simp] theorem setU_w_ccC (s : State) (r : Nat) (x : Word) : (s.setU r x).w.ccC = s.w.ccC := rfl
@[simp] theorem setU_w_ccZ (s : State) (r : Nat) (x : Word) : (s.setU r x).w.ccZ = s.w.ccZ := rfl
@[simp] theorem setU_w_ccN (s : State) (r : Nat) (x : Word) : (s.setU r x).w.ccN = s.w.ccN := rfl
@[simp] theorem setU_w_ccV (s : State) (r : Nat) (x : Word) : (s.setU r x).w.ccV = s.w.ccV := rfl
@[simp] theorem setU_w_lanes (s : State) (r : Nat) (x : Word) : (s.setU r x).w.lanes = s.w.lanes := rfl
@[simp] theorem setU_w_rcb (s : State) (r : Nat) (x : Word) : (s.setU r x).w.rcb = s.w.rcb := rfl
@[simp] theorem setU_w_run (s : State) (r : Nat) (x : Word) : (s.setU r x).w.run = s.w.run := rfl
@[simp] theorem setU_w_sched (s : State) (r : Nat) (x : Word) : (s.setU r x).w.sched = s.w.sched := rfl
@[simp] theorem setU_w_sleep (s : State) (r : Nat) (x : Word) : (s.setU r x).w.sleep = s.w.sleep := rfl
@[simp] theorem setU_w_sticky (s : State) (r : Nat) (x : Word) : (s.setU r x).w.sticky = s.w.sticky := rfl
@[simp] theorem setU_w_late (s : State) (r : Nat) (x : Word) : (s.setU r x).w.late = s.w.late := rfl
@[simp] theorem setU_w_th (s : State) (r : Nat) (x : Word) : (s.setU r x).w.th = s.w.th := rfl
@[simp] theorem setU_w_inHandler (s : State) (r : Nat) (x : Word) : (s.setU r x).w.inHandler = s.w.inHandler := rfl
@[simp] theorem setU_w_halted (s : State) (r : Nat) (x : Word) : (s.setU r x).w.halted = s.w.halted := rfl
@[simp] theorem setU_w_single (s : State) (r : Nat) (x : Word) : (s.setU r x).w.single = s.w.single := rfl
@[simp] theorem setU_w_passBp (s : State) (r : Nat) (x : Word) : (s.setU r x).w.passBp = s.w.passBp := rfl
@[simp] theorem setU_w_shadow (s : State) (r : Nat) (x : Word) : (s.setU r x).w.shadow = s.w.shadow := rfl
@[simp] theorem setU_w_sync (s : State) (r : Nat) (x : Word) : (s.setU r x).w.sync = s.w.sync := rfl
@[simp] theorem setU_w_trav (s : State) (r : Nat) (x : Word) : (s.setU r x).w.trav = s.w.trav := rfl
@[simp] theorem setU_w_mc (s : State) (r : Nat) (x : Word) : (s.setU r x).w.mc = s.w.mc := rfl
@[simp] theorem setU_w_mcPend (s : State) (r : Nat) (x : Word) : (s.setU r x).w.mcPend = s.w.mcPend := rfl
@[simp] theorem setU_w_outs (s : State) (r : Nat) (x : Word) : (s.setU r x).w.outs = s.w.outs := rfl
@[simp] theorem setU_w_clsN (s : State) (r : Nat) (x : Word) : (s.setU r x).w.clsN = s.w.clsN := rfl
@[simp] theorem setU_w_gdone (s : State) (r : Nat) (x : Word) : (s.setU r x).w.gdone = s.w.gdone := rfl
@[simp] theorem setU_w_pend (s : State) (r : Nat) (x : Word) : (s.setU r x).w.pend = s.w.pend := rfl
@[simp] theorem setU_w_parked (s : State) (r : Nat) (x : Word) : (s.setU r x).w.parked = s.w.parked := rfl
@[simp] theorem setU_w_waits (s : State) (r : Nat) (x : Word) : (s.setU r x).w.waits = s.w.waits := rfl
@[simp] theorem setU_w_carving (s : State) (r : Nat) (x : Word) : (s.setU r x).w.carving = s.w.carving := rfl
@[simp] theorem setU_w_ra (s : State) (r : Nat) (x : Word) : (s.setU r x).w.ra = s.w.ra := rfl
@[simp] theorem setU_w_raDone (s : State) (r : Nat) (x : Word) : (s.setU r x).w.raDone = s.w.raDone := rfl
@[simp] theorem setU_w_ended (s : State) (r : Nat) (x : Word) : (s.setU r x).w.ended = s.w.ended := rfl
@[simp] theorem setU_w_ret (s : State) (r : Nat) (x : Word) : (s.setU r x).w.ret = s.w.ret := rfl

/-! ### setM -/

@[simp] theorem setM_g (s : State) (k : Nat) (x : LaneMask) : (s.setM k x).g = s.g := rfl
@[simp] theorem setM_c (s : State) (k : Nat) (x : LaneMask) : (s.setM k x).c = s.c := rfl
@[simp] theorem setM_ws (s : State) (k : Nat) (x : LaneMask) : (s.setM k x).ws = s.ws := rfl
@[simp] theorem setM_gs (s : State) (k : Nat) (x : LaneMask) : (s.setM k x).gs = s.gs := rfl
@[simp] theorem setM_cs (s : State) (k : Nat) (x : LaneMask) : (s.setM k x).cs = s.cs := rfl
@[simp] theorem setM_dies (s : State) (k : Nat) (x : LaneMask) : (s.setM k x).dies = s.dies := rfl
@[simp] theorem setM_ctx (s : State) (k : Nat) (x : LaneMask) : (s.setM k x).ctx = s.ctx := rfl
@[simp] theorem setM_others (s : State) (k : Nat) (x : LaneMask) : (s.setM k x).others = s.others := rfl
@[simp] theorem setM_saved (s : State) (k : Nat) (x : LaneMask) : (s.setM k x).saved = s.saved := rfl
@[simp] theorem setM_hub (s : State) (k : Nat) (x : LaneMask) : (s.setM k x).hub = s.hub := rfl
@[simp] theorem setM_host (s : State) (k : Nat) (x : LaneMask) : (s.setM k x).host = s.host := rfl
@[simp] theorem setM_peer (s : State) (k : Nat) (x : LaneMask) : (s.setM k x).peer = s.peer := rfl
@[simp] theorem setM_time (s : State) (k : Nat) (x : LaneMask) : (s.setM k x).time = s.time := rfl
@[simp] theorem setM_bad (s : State) (k : Nat) (x : LaneMask) : (s.setM k x).bad = s.bad := rfl
@[simp] theorem setM_inputs (s : State) (k : Nat) (x : LaneMask) : (s.setM k x).inputs = s.inputs := rfl
@[simp] theorem setM_turn (s : State) (k : Nat) (x : LaneMask) : (s.setM k x).turn = s.turn := rfl
@[simp] theorem setM_n (s : State) (k : Nat) (x : LaneMask) : (s.setM k x).n = s.n := rfl
@[simp] theorem setM_nextId (s : State) (k : Nat) (x : LaneMask) : (s.setM k x).nextId = s.nextId := rfl
@[simp] theorem setM_w_id (s : State) (k : Nat) (x : LaneMask) : (s.setM k x).w.id = s.w.id := rfl
@[simp] theorem setM_w_wg (s : State) (k : Nat) (x : LaneMask) : (s.setM k x).w.wg = s.w.wg := rfl
@[simp] theorem setM_w_idx (s : State) (k : Nat) (x : LaneMask) : (s.setM k x).w.idx = s.w.idx := rfl
@[simp] theorem setM_w_slot (s : State) (k : Nat) (x : LaneMask) : (s.setM k x).w.slot = s.w.slot := rfl
@[simp] theorem setM_w_win (s : State) (k : Nat) (x : LaneMask) : (s.setM k x).w.win = s.w.win := rfl
@[simp] theorem setM_w_v (s : State) (k : Nat) (x : LaneMask) : (s.setM k x).w.v = s.w.v := rfl
@[simp] theorem setM_w_u (s : State) (k : Nat) (x : LaneMask) : (s.setM k x).w.u = s.w.u := rfl
@[simp] theorem setM_w_ccC (s : State) (k : Nat) (x : LaneMask) : (s.setM k x).w.ccC = s.w.ccC := rfl
@[simp] theorem setM_w_ccZ (s : State) (k : Nat) (x : LaneMask) : (s.setM k x).w.ccZ = s.w.ccZ := rfl
@[simp] theorem setM_w_ccN (s : State) (k : Nat) (x : LaneMask) : (s.setM k x).w.ccN = s.w.ccN := rfl
@[simp] theorem setM_w_ccV (s : State) (k : Nat) (x : LaneMask) : (s.setM k x).w.ccV = s.w.ccV := rfl
@[simp] theorem setM_w_lanes (s : State) (k : Nat) (x : LaneMask) : (s.setM k x).w.lanes = s.w.lanes := rfl
@[simp] theorem setM_w_rcb (s : State) (k : Nat) (x : LaneMask) : (s.setM k x).w.rcb = s.w.rcb := rfl
@[simp] theorem setM_w_run (s : State) (k : Nat) (x : LaneMask) : (s.setM k x).w.run = s.w.run := rfl
@[simp] theorem setM_w_sched (s : State) (k : Nat) (x : LaneMask) : (s.setM k x).w.sched = s.w.sched := rfl
@[simp] theorem setM_w_sleep (s : State) (k : Nat) (x : LaneMask) : (s.setM k x).w.sleep = s.w.sleep := rfl
@[simp] theorem setM_w_sticky (s : State) (k : Nat) (x : LaneMask) : (s.setM k x).w.sticky = s.w.sticky := rfl
@[simp] theorem setM_w_late (s : State) (k : Nat) (x : LaneMask) : (s.setM k x).w.late = s.w.late := rfl
@[simp] theorem setM_w_th (s : State) (k : Nat) (x : LaneMask) : (s.setM k x).w.th = s.w.th := rfl
@[simp] theorem setM_w_inHandler (s : State) (k : Nat) (x : LaneMask) : (s.setM k x).w.inHandler = s.w.inHandler := rfl
@[simp] theorem setM_w_halted (s : State) (k : Nat) (x : LaneMask) : (s.setM k x).w.halted = s.w.halted := rfl
@[simp] theorem setM_w_single (s : State) (k : Nat) (x : LaneMask) : (s.setM k x).w.single = s.w.single := rfl
@[simp] theorem setM_w_passBp (s : State) (k : Nat) (x : LaneMask) : (s.setM k x).w.passBp = s.w.passBp := rfl
@[simp] theorem setM_w_shadow (s : State) (k : Nat) (x : LaneMask) : (s.setM k x).w.shadow = s.w.shadow := rfl
@[simp] theorem setM_w_sync (s : State) (k : Nat) (x : LaneMask) : (s.setM k x).w.sync = s.w.sync := rfl
@[simp] theorem setM_w_trav (s : State) (k : Nat) (x : LaneMask) : (s.setM k x).w.trav = s.w.trav := rfl
@[simp] theorem setM_w_mc (s : State) (k : Nat) (x : LaneMask) : (s.setM k x).w.mc = s.w.mc := rfl
@[simp] theorem setM_w_mcPend (s : State) (k : Nat) (x : LaneMask) : (s.setM k x).w.mcPend = s.w.mcPend := rfl
@[simp] theorem setM_w_outs (s : State) (k : Nat) (x : LaneMask) : (s.setM k x).w.outs = s.w.outs := rfl
@[simp] theorem setM_w_clsN (s : State) (k : Nat) (x : LaneMask) : (s.setM k x).w.clsN = s.w.clsN := rfl
@[simp] theorem setM_w_gdone (s : State) (k : Nat) (x : LaneMask) : (s.setM k x).w.gdone = s.w.gdone := rfl
@[simp] theorem setM_w_pend (s : State) (k : Nat) (x : LaneMask) : (s.setM k x).w.pend = s.w.pend := rfl
@[simp] theorem setM_w_parked (s : State) (k : Nat) (x : LaneMask) : (s.setM k x).w.parked = s.w.parked := rfl
@[simp] theorem setM_w_waits (s : State) (k : Nat) (x : LaneMask) : (s.setM k x).w.waits = s.w.waits := rfl
@[simp] theorem setM_w_carving (s : State) (k : Nat) (x : LaneMask) : (s.setM k x).w.carving = s.w.carving := rfl
@[simp] theorem setM_w_ra (s : State) (k : Nat) (x : LaneMask) : (s.setM k x).w.ra = s.w.ra := rfl
@[simp] theorem setM_w_raDone (s : State) (k : Nat) (x : LaneMask) : (s.setM k x).w.raDone = s.w.raDone := rfl
@[simp] theorem setM_w_ended (s : State) (k : Nat) (x : LaneMask) : (s.setM k x).w.ended = s.w.ended := rfl
@[simp] theorem setM_w_ret (s : State) (k : Nat) (x : LaneMask) : (s.setM k x).w.ret = s.w.ret := rfl

/-! ### setCC -/

@[simp] theorem setCC_g (s : State) (e : LaneMask) (c z n v : Nat → Bool) : (s.setCC e c z n v).g = s.g := rfl
@[simp] theorem setCC_c (s : State) (e : LaneMask) (c z n v : Nat → Bool) : (s.setCC e c z n v).c = s.c := rfl
@[simp] theorem setCC_ws (s : State) (e : LaneMask) (c z n v : Nat → Bool) : (s.setCC e c z n v).ws = s.ws := rfl
@[simp] theorem setCC_gs (s : State) (e : LaneMask) (c z n v : Nat → Bool) : (s.setCC e c z n v).gs = s.gs := rfl
@[simp] theorem setCC_cs (s : State) (e : LaneMask) (c z n v : Nat → Bool) : (s.setCC e c z n v).cs = s.cs := rfl
@[simp] theorem setCC_dies (s : State) (e : LaneMask) (c z n v : Nat → Bool) : (s.setCC e c z n v).dies = s.dies := rfl
@[simp] theorem setCC_ctx (s : State) (e : LaneMask) (c z n v : Nat → Bool) : (s.setCC e c z n v).ctx = s.ctx := rfl
@[simp] theorem setCC_others (s : State) (e : LaneMask) (c z n v : Nat → Bool) : (s.setCC e c z n v).others = s.others := rfl
@[simp] theorem setCC_saved (s : State) (e : LaneMask) (c z n v : Nat → Bool) : (s.setCC e c z n v).saved = s.saved := rfl
@[simp] theorem setCC_hub (s : State) (e : LaneMask) (c z n v : Nat → Bool) : (s.setCC e c z n v).hub = s.hub := rfl
@[simp] theorem setCC_host (s : State) (e : LaneMask) (c z n v : Nat → Bool) : (s.setCC e c z n v).host = s.host := rfl
@[simp] theorem setCC_peer (s : State) (e : LaneMask) (c z n v : Nat → Bool) : (s.setCC e c z n v).peer = s.peer := rfl
@[simp] theorem setCC_time (s : State) (e : LaneMask) (c z n v : Nat → Bool) : (s.setCC e c z n v).time = s.time := rfl
@[simp] theorem setCC_bad (s : State) (e : LaneMask) (c z n v : Nat → Bool) : (s.setCC e c z n v).bad = s.bad := rfl
@[simp] theorem setCC_inputs (s : State) (e : LaneMask) (c z n v : Nat → Bool) : (s.setCC e c z n v).inputs = s.inputs := rfl
@[simp] theorem setCC_turn (s : State) (e : LaneMask) (c z n v : Nat → Bool) : (s.setCC e c z n v).turn = s.turn := rfl
@[simp] theorem setCC_n (s : State) (e : LaneMask) (c z n v : Nat → Bool) : (s.setCC e c z n v).n = s.n := rfl
@[simp] theorem setCC_nextId (s : State) (e : LaneMask) (c z n v : Nat → Bool) : (s.setCC e c z n v).nextId = s.nextId := rfl
@[simp] theorem setCC_w_id (s : State) (e : LaneMask) (c z n v : Nat → Bool) : (s.setCC e c z n v).w.id = s.w.id := rfl
@[simp] theorem setCC_w_wg (s : State) (e : LaneMask) (c z n v : Nat → Bool) : (s.setCC e c z n v).w.wg = s.w.wg := rfl
@[simp] theorem setCC_w_idx (s : State) (e : LaneMask) (c z n v : Nat → Bool) : (s.setCC e c z n v).w.idx = s.w.idx := rfl
@[simp] theorem setCC_w_slot (s : State) (e : LaneMask) (c z n v : Nat → Bool) : (s.setCC e c z n v).w.slot = s.w.slot := rfl
@[simp] theorem setCC_w_win (s : State) (e : LaneMask) (c z n v : Nat → Bool) : (s.setCC e c z n v).w.win = s.w.win := rfl
@[simp] theorem setCC_w_v (s : State) (e : LaneMask) (c z n v : Nat → Bool) : (s.setCC e c z n v).w.v = s.w.v := rfl
@[simp] theorem setCC_w_u (s : State) (e : LaneMask) (c z n v : Nat → Bool) : (s.setCC e c z n v).w.u = s.w.u := rfl
@[simp] theorem setCC_w_m (s : State) (e : LaneMask) (c z n v : Nat → Bool) : (s.setCC e c z n v).w.m = s.w.m := rfl
@[simp] theorem setCC_w_lanes (s : State) (e : LaneMask) (c z n v : Nat → Bool) : (s.setCC e c z n v).w.lanes = s.w.lanes := rfl
@[simp] theorem setCC_w_rcb (s : State) (e : LaneMask) (c z n v : Nat → Bool) : (s.setCC e c z n v).w.rcb = s.w.rcb := rfl
@[simp] theorem setCC_w_run (s : State) (e : LaneMask) (c z n v : Nat → Bool) : (s.setCC e c z n v).w.run = s.w.run := rfl
@[simp] theorem setCC_w_sched (s : State) (e : LaneMask) (c z n v : Nat → Bool) : (s.setCC e c z n v).w.sched = s.w.sched := rfl
@[simp] theorem setCC_w_sleep (s : State) (e : LaneMask) (c z n v : Nat → Bool) : (s.setCC e c z n v).w.sleep = s.w.sleep := rfl
@[simp] theorem setCC_w_sticky (s : State) (e : LaneMask) (c z n v : Nat → Bool) : (s.setCC e c z n v).w.sticky = s.w.sticky := rfl
@[simp] theorem setCC_w_late (s : State) (e : LaneMask) (c z n v : Nat → Bool) : (s.setCC e c z n v).w.late = s.w.late := rfl
@[simp] theorem setCC_w_th (s : State) (e : LaneMask) (c z n v : Nat → Bool) : (s.setCC e c z n v).w.th = s.w.th := rfl
@[simp] theorem setCC_w_inHandler (s : State) (e : LaneMask) (c z n v : Nat → Bool) : (s.setCC e c z n v).w.inHandler = s.w.inHandler := rfl
@[simp] theorem setCC_w_halted (s : State) (e : LaneMask) (c z n v : Nat → Bool) : (s.setCC e c z n v).w.halted = s.w.halted := rfl
@[simp] theorem setCC_w_single (s : State) (e : LaneMask) (c z n v : Nat → Bool) : (s.setCC e c z n v).w.single = s.w.single := rfl
@[simp] theorem setCC_w_passBp (s : State) (e : LaneMask) (c z n v : Nat → Bool) : (s.setCC e c z n v).w.passBp = s.w.passBp := rfl
@[simp] theorem setCC_w_shadow (s : State) (e : LaneMask) (c z n v : Nat → Bool) : (s.setCC e c z n v).w.shadow = s.w.shadow := rfl
@[simp] theorem setCC_w_sync (s : State) (e : LaneMask) (c z n v : Nat → Bool) : (s.setCC e c z n v).w.sync = s.w.sync := rfl
@[simp] theorem setCC_w_trav (s : State) (e : LaneMask) (c z n v : Nat → Bool) : (s.setCC e c z n v).w.trav = s.w.trav := rfl
@[simp] theorem setCC_w_mc (s : State) (e : LaneMask) (c z n v : Nat → Bool) : (s.setCC e c z n v).w.mc = s.w.mc := rfl
@[simp] theorem setCC_w_mcPend (s : State) (e : LaneMask) (c z n v : Nat → Bool) : (s.setCC e c z n v).w.mcPend = s.w.mcPend := rfl
@[simp] theorem setCC_w_outs (s : State) (e : LaneMask) (c z n v : Nat → Bool) : (s.setCC e c z n v).w.outs = s.w.outs := rfl
@[simp] theorem setCC_w_clsN (s : State) (e : LaneMask) (c z n v : Nat → Bool) : (s.setCC e c z n v).w.clsN = s.w.clsN := rfl
@[simp] theorem setCC_w_gdone (s : State) (e : LaneMask) (c z n v : Nat → Bool) : (s.setCC e c z n v).w.gdone = s.w.gdone := rfl
@[simp] theorem setCC_w_pend (s : State) (e : LaneMask) (c z n v : Nat → Bool) : (s.setCC e c z n v).w.pend = s.w.pend := rfl
@[simp] theorem setCC_w_parked (s : State) (e : LaneMask) (c z n v : Nat → Bool) : (s.setCC e c z n v).w.parked = s.w.parked := rfl
@[simp] theorem setCC_w_waits (s : State) (e : LaneMask) (c z n v : Nat → Bool) : (s.setCC e c z n v).w.waits = s.w.waits := rfl
@[simp] theorem setCC_w_carving (s : State) (e : LaneMask) (c z n v : Nat → Bool) : (s.setCC e c z n v).w.carving = s.w.carving := rfl
@[simp] theorem setCC_w_ra (s : State) (e : LaneMask) (c z n v : Nat → Bool) : (s.setCC e c z n v).w.ra = s.w.ra := rfl
@[simp] theorem setCC_w_raDone (s : State) (e : LaneMask) (c z n v : Nat → Bool) : (s.setCC e c z n v).w.raDone = s.w.raDone := rfl
@[simp] theorem setCC_w_ended (s : State) (e : LaneMask) (c z n v : Nat → Bool) : (s.setCC e c z n v).w.ended = s.w.ended := rfl
@[simp] theorem setCC_w_ret (s : State) (e : LaneMask) (c z n v : Nat → Bool) : (s.setCC e c z n v).w.ret = s.w.ret := rfl

/-! ### mapLanes -/

@[simp] theorem mapLanes_g (s : State) (g : Nat → LaneEnt → LaneEnt) : (s.mapLanes g).g = s.g := rfl
@[simp] theorem mapLanes_c (s : State) (g : Nat → LaneEnt → LaneEnt) : (s.mapLanes g).c = s.c := rfl
@[simp] theorem mapLanes_ws (s : State) (g : Nat → LaneEnt → LaneEnt) : (s.mapLanes g).ws = s.ws := rfl
@[simp] theorem mapLanes_gs (s : State) (g : Nat → LaneEnt → LaneEnt) : (s.mapLanes g).gs = s.gs := rfl
@[simp] theorem mapLanes_cs (s : State) (g : Nat → LaneEnt → LaneEnt) : (s.mapLanes g).cs = s.cs := rfl
@[simp] theorem mapLanes_dies (s : State) (g : Nat → LaneEnt → LaneEnt) : (s.mapLanes g).dies = s.dies := rfl
@[simp] theorem mapLanes_ctx (s : State) (g : Nat → LaneEnt → LaneEnt) : (s.mapLanes g).ctx = s.ctx := rfl
@[simp] theorem mapLanes_others (s : State) (g : Nat → LaneEnt → LaneEnt) : (s.mapLanes g).others = s.others := rfl
@[simp] theorem mapLanes_saved (s : State) (g : Nat → LaneEnt → LaneEnt) : (s.mapLanes g).saved = s.saved := rfl
@[simp] theorem mapLanes_hub (s : State) (g : Nat → LaneEnt → LaneEnt) : (s.mapLanes g).hub = s.hub := rfl
@[simp] theorem mapLanes_host (s : State) (g : Nat → LaneEnt → LaneEnt) : (s.mapLanes g).host = s.host := rfl
@[simp] theorem mapLanes_peer (s : State) (g : Nat → LaneEnt → LaneEnt) : (s.mapLanes g).peer = s.peer := rfl
@[simp] theorem mapLanes_time (s : State) (g : Nat → LaneEnt → LaneEnt) : (s.mapLanes g).time = s.time := rfl
@[simp] theorem mapLanes_bad (s : State) (g : Nat → LaneEnt → LaneEnt) : (s.mapLanes g).bad = s.bad := rfl
@[simp] theorem mapLanes_inputs (s : State) (g : Nat → LaneEnt → LaneEnt) : (s.mapLanes g).inputs = s.inputs := rfl
@[simp] theorem mapLanes_turn (s : State) (g : Nat → LaneEnt → LaneEnt) : (s.mapLanes g).turn = s.turn := rfl
@[simp] theorem mapLanes_n (s : State) (g : Nat → LaneEnt → LaneEnt) : (s.mapLanes g).n = s.n := rfl
@[simp] theorem mapLanes_nextId (s : State) (g : Nat → LaneEnt → LaneEnt) : (s.mapLanes g).nextId = s.nextId := rfl
@[simp] theorem mapLanes_w_id (s : State) (g : Nat → LaneEnt → LaneEnt) : (s.mapLanes g).w.id = s.w.id := rfl
@[simp] theorem mapLanes_w_wg (s : State) (g : Nat → LaneEnt → LaneEnt) : (s.mapLanes g).w.wg = s.w.wg := rfl
@[simp] theorem mapLanes_w_idx (s : State) (g : Nat → LaneEnt → LaneEnt) : (s.mapLanes g).w.idx = s.w.idx := rfl
@[simp] theorem mapLanes_w_slot (s : State) (g : Nat → LaneEnt → LaneEnt) : (s.mapLanes g).w.slot = s.w.slot := rfl
@[simp] theorem mapLanes_w_win (s : State) (g : Nat → LaneEnt → LaneEnt) : (s.mapLanes g).w.win = s.w.win := rfl
@[simp] theorem mapLanes_w_v (s : State) (g : Nat → LaneEnt → LaneEnt) : (s.mapLanes g).w.v = s.w.v := rfl
@[simp] theorem mapLanes_w_u (s : State) (g : Nat → LaneEnt → LaneEnt) : (s.mapLanes g).w.u = s.w.u := rfl
@[simp] theorem mapLanes_w_m (s : State) (g : Nat → LaneEnt → LaneEnt) : (s.mapLanes g).w.m = s.w.m := rfl
@[simp] theorem mapLanes_w_ccC (s : State) (g : Nat → LaneEnt → LaneEnt) : (s.mapLanes g).w.ccC = s.w.ccC := rfl
@[simp] theorem mapLanes_w_ccZ (s : State) (g : Nat → LaneEnt → LaneEnt) : (s.mapLanes g).w.ccZ = s.w.ccZ := rfl
@[simp] theorem mapLanes_w_ccN (s : State) (g : Nat → LaneEnt → LaneEnt) : (s.mapLanes g).w.ccN = s.w.ccN := rfl
@[simp] theorem mapLanes_w_ccV (s : State) (g : Nat → LaneEnt → LaneEnt) : (s.mapLanes g).w.ccV = s.w.ccV := rfl
@[simp] theorem mapLanes_w_rcb (s : State) (g : Nat → LaneEnt → LaneEnt) : (s.mapLanes g).w.rcb = s.w.rcb := rfl
@[simp] theorem mapLanes_w_run (s : State) (g : Nat → LaneEnt → LaneEnt) : (s.mapLanes g).w.run = s.w.run := rfl
@[simp] theorem mapLanes_w_sched (s : State) (g : Nat → LaneEnt → LaneEnt) : (s.mapLanes g).w.sched = s.w.sched := rfl
@[simp] theorem mapLanes_w_sleep (s : State) (g : Nat → LaneEnt → LaneEnt) : (s.mapLanes g).w.sleep = s.w.sleep := rfl
@[simp] theorem mapLanes_w_sticky (s : State) (g : Nat → LaneEnt → LaneEnt) : (s.mapLanes g).w.sticky = s.w.sticky := rfl
@[simp] theorem mapLanes_w_late (s : State) (g : Nat → LaneEnt → LaneEnt) : (s.mapLanes g).w.late = s.w.late := rfl
@[simp] theorem mapLanes_w_th (s : State) (g : Nat → LaneEnt → LaneEnt) : (s.mapLanes g).w.th = s.w.th := rfl
@[simp] theorem mapLanes_w_inHandler (s : State) (g : Nat → LaneEnt → LaneEnt) : (s.mapLanes g).w.inHandler = s.w.inHandler := rfl
@[simp] theorem mapLanes_w_halted (s : State) (g : Nat → LaneEnt → LaneEnt) : (s.mapLanes g).w.halted = s.w.halted := rfl
@[simp] theorem mapLanes_w_single (s : State) (g : Nat → LaneEnt → LaneEnt) : (s.mapLanes g).w.single = s.w.single := rfl
@[simp] theorem mapLanes_w_passBp (s : State) (g : Nat → LaneEnt → LaneEnt) : (s.mapLanes g).w.passBp = s.w.passBp := rfl
@[simp] theorem mapLanes_w_shadow (s : State) (g : Nat → LaneEnt → LaneEnt) : (s.mapLanes g).w.shadow = s.w.shadow := rfl
@[simp] theorem mapLanes_w_sync (s : State) (g : Nat → LaneEnt → LaneEnt) : (s.mapLanes g).w.sync = s.w.sync := rfl
@[simp] theorem mapLanes_w_trav (s : State) (g : Nat → LaneEnt → LaneEnt) : (s.mapLanes g).w.trav = s.w.trav := rfl
@[simp] theorem mapLanes_w_mc (s : State) (g : Nat → LaneEnt → LaneEnt) : (s.mapLanes g).w.mc = s.w.mc := rfl
@[simp] theorem mapLanes_w_mcPend (s : State) (g : Nat → LaneEnt → LaneEnt) : (s.mapLanes g).w.mcPend = s.w.mcPend := rfl
@[simp] theorem mapLanes_w_outs (s : State) (g : Nat → LaneEnt → LaneEnt) : (s.mapLanes g).w.outs = s.w.outs := rfl
@[simp] theorem mapLanes_w_clsN (s : State) (g : Nat → LaneEnt → LaneEnt) : (s.mapLanes g).w.clsN = s.w.clsN := rfl
@[simp] theorem mapLanes_w_gdone (s : State) (g : Nat → LaneEnt → LaneEnt) : (s.mapLanes g).w.gdone = s.w.gdone := rfl
@[simp] theorem mapLanes_w_pend (s : State) (g : Nat → LaneEnt → LaneEnt) : (s.mapLanes g).w.pend = s.w.pend := rfl
@[simp] theorem mapLanes_w_parked (s : State) (g : Nat → LaneEnt → LaneEnt) : (s.mapLanes g).w.parked = s.w.parked := rfl
@[simp] theorem mapLanes_w_waits (s : State) (g : Nat → LaneEnt → LaneEnt) : (s.mapLanes g).w.waits = s.w.waits := rfl
@[simp] theorem mapLanes_w_carving (s : State) (g : Nat → LaneEnt → LaneEnt) : (s.mapLanes g).w.carving = s.w.carving := rfl
@[simp] theorem mapLanes_w_ra (s : State) (g : Nat → LaneEnt → LaneEnt) : (s.mapLanes g).w.ra = s.w.ra := rfl
@[simp] theorem mapLanes_w_raDone (s : State) (g : Nat → LaneEnt → LaneEnt) : (s.mapLanes g).w.raDone = s.w.raDone := rfl
@[simp] theorem mapLanes_w_ended (s : State) (g : Nat → LaneEnt → LaneEnt) : (s.mapLanes g).w.ended = s.w.ended := rfl
@[simp] theorem mapLanes_w_ret (s : State) (g : Nat → LaneEnt → LaneEnt) : (s.mapLanes g).w.ret = s.w.ret := rfl

@[simp] theorem setV_w_v (s : State) (r : Nat) (e : LaneMask) (x : Nat → Word) :
    (s.setV r e x).w.v = setLanesN s.w.v r e x 32 := rfl
@[simp] theorem setU_w_u (s : State) (r : Nat) (x : Word) : (s.setU r x).w.u = s.w.u.set 0 r x := rfl
@[simp] theorem setM_w_m (s : State) (k : Nat) (x : LaneMask) : (s.setM k x).w.m = s.w.m.set 0 k x := rfl
@[simp] theorem mapLanes_w_lanes (s : State) (g : Nat → LaneEnt → LaneEnt) : (s.mapLanes g).w.lanes = s.w.lanes.mapIdx g := rfl

/-! ### updDieAt -/

@[simp] theorem updDieAt_w (s : State) (p : Nat) (g : Die → Die) : (s.updDieAt p g).w = s.w := rfl
@[simp] theorem updDieAt_g (s : State) (p : Nat) (g : Die → Die) : (s.updDieAt p g).g = s.g := rfl
@[simp] theorem updDieAt_c (s : State) (p : Nat) (g : Die → Die) : (s.updDieAt p g).c = s.c := rfl
@[simp] theorem updDieAt_ws (s : State) (p : Nat) (g : Die → Die) : (s.updDieAt p g).ws = s.ws := rfl
@[simp] theorem updDieAt_gs (s : State) (p : Nat) (g : Die → Die) : (s.updDieAt p g).gs = s.gs := rfl
@[simp] theorem updDieAt_cs (s : State) (p : Nat) (g : Die → Die) : (s.updDieAt p g).cs = s.cs := rfl
@[simp] theorem updDieAt_ctx (s : State) (p : Nat) (g : Die → Die) : (s.updDieAt p g).ctx = s.ctx := rfl
@[simp] theorem updDieAt_others (s : State) (p : Nat) (g : Die → Die) : (s.updDieAt p g).others = s.others := rfl
@[simp] theorem updDieAt_saved (s : State) (p : Nat) (g : Die → Die) : (s.updDieAt p g).saved = s.saved := rfl
@[simp] theorem updDieAt_hub (s : State) (p : Nat) (g : Die → Die) : (s.updDieAt p g).hub = s.hub := rfl
@[simp] theorem updDieAt_host (s : State) (p : Nat) (g : Die → Die) : (s.updDieAt p g).host = s.host := rfl
@[simp] theorem updDieAt_peer (s : State) (p : Nat) (g : Die → Die) : (s.updDieAt p g).peer = s.peer := rfl
@[simp] theorem updDieAt_time (s : State) (p : Nat) (g : Die → Die) : (s.updDieAt p g).time = s.time := rfl
@[simp] theorem updDieAt_bad (s : State) (p : Nat) (g : Die → Die) : (s.updDieAt p g).bad = s.bad := rfl
@[simp] theorem updDieAt_inputs (s : State) (p : Nat) (g : Die → Die) : (s.updDieAt p g).inputs = s.inputs := rfl
@[simp] theorem updDieAt_turn (s : State) (p : Nat) (g : Die → Die) : (s.updDieAt p g).turn = s.turn := rfl
@[simp] theorem updDieAt_n (s : State) (p : Nat) (g : Die → Die) : (s.updDieAt p g).n = s.n := rfl
@[simp] theorem updDieAt_nextId (s : State) (p : Nat) (g : Die → Die) : (s.updDieAt p g).nextId = s.nextId := rfl

/-! ### updDie -/

@[simp] theorem updDie_w (s : State) (v : Nat) (g : Die → Die) : (s.updDie v g).w = s.w := rfl
@[simp] theorem updDie_g (s : State) (v : Nat) (g : Die → Die) : (s.updDie v g).g = s.g := rfl
@[simp] theorem updDie_c (s : State) (v : Nat) (g : Die → Die) : (s.updDie v g).c = s.c := rfl
@[simp] theorem updDie_ws (s : State) (v : Nat) (g : Die → Die) : (s.updDie v g).ws = s.ws := rfl
@[simp] theorem updDie_gs (s : State) (v : Nat) (g : Die → Die) : (s.updDie v g).gs = s.gs := rfl
@[simp] theorem updDie_cs (s : State) (v : Nat) (g : Die → Die) : (s.updDie v g).cs = s.cs := rfl
@[simp] theorem updDie_ctx (s : State) (v : Nat) (g : Die → Die) : (s.updDie v g).ctx = s.ctx := rfl
@[simp] theorem updDie_others (s : State) (v : Nat) (g : Die → Die) : (s.updDie v g).others = s.others := rfl
@[simp] theorem updDie_saved (s : State) (v : Nat) (g : Die → Die) : (s.updDie v g).saved = s.saved := rfl
@[simp] theorem updDie_hub (s : State) (v : Nat) (g : Die → Die) : (s.updDie v g).hub = s.hub := rfl
@[simp] theorem updDie_host (s : State) (v : Nat) (g : Die → Die) : (s.updDie v g).host = s.host := rfl
@[simp] theorem updDie_peer (s : State) (v : Nat) (g : Die → Die) : (s.updDie v g).peer = s.peer := rfl
@[simp] theorem updDie_time (s : State) (v : Nat) (g : Die → Die) : (s.updDie v g).time = s.time := rfl
@[simp] theorem updDie_bad (s : State) (v : Nat) (g : Die → Die) : (s.updDie v g).bad = s.bad := rfl
@[simp] theorem updDie_inputs (s : State) (v : Nat) (g : Die → Die) : (s.updDie v g).inputs = s.inputs := rfl
@[simp] theorem updDie_turn (s : State) (v : Nat) (g : Die → Die) : (s.updDie v g).turn = s.turn := rfl
@[simp] theorem updDie_n (s : State) (v : Nat) (g : Die → Die) : (s.updDie v g).n = s.n := rfl
@[simp] theorem updDie_nextId (s : State) (v : Nat) (g : Die → Die) : (s.updDie v g).nextId = s.nextId := rfl

/-! ### updCtx -/

@[simp] theorem updCtx_w (s : State) (g : Ctx → Ctx) : (s.updCtx g).w = s.w := rfl
@[simp] theorem updCtx_g (s : State) (g : Ctx → Ctx) : (s.updCtx g).g = s.g := rfl
@[simp] theorem updCtx_c (s : State) (g : Ctx → Ctx) : (s.updCtx g).c = s.c := rfl
@[simp] theorem updCtx_ws (s : State) (g : Ctx → Ctx) : (s.updCtx g).ws = s.ws := rfl
@[simp] theorem updCtx_gs (s : State) (g : Ctx → Ctx) : (s.updCtx g).gs = s.gs := rfl
@[simp] theorem updCtx_cs (s : State) (g : Ctx → Ctx) : (s.updCtx g).cs = s.cs := rfl
@[simp] theorem updCtx_dies (s : State) (g : Ctx → Ctx) : (s.updCtx g).dies = s.dies := rfl
@[simp] theorem updCtx_others (s : State) (g : Ctx → Ctx) : (s.updCtx g).others = s.others := rfl
@[simp] theorem updCtx_saved (s : State) (g : Ctx → Ctx) : (s.updCtx g).saved = s.saved := rfl
@[simp] theorem updCtx_hub (s : State) (g : Ctx → Ctx) : (s.updCtx g).hub = s.hub := rfl
@[simp] theorem updCtx_host (s : State) (g : Ctx → Ctx) : (s.updCtx g).host = s.host := rfl
@[simp] theorem updCtx_peer (s : State) (g : Ctx → Ctx) : (s.updCtx g).peer = s.peer := rfl
@[simp] theorem updCtx_time (s : State) (g : Ctx → Ctx) : (s.updCtx g).time = s.time := rfl
@[simp] theorem updCtx_bad (s : State) (g : Ctx → Ctx) : (s.updCtx g).bad = s.bad := rfl
@[simp] theorem updCtx_inputs (s : State) (g : Ctx → Ctx) : (s.updCtx g).inputs = s.inputs := rfl
@[simp] theorem updCtx_turn (s : State) (g : Ctx → Ctx) : (s.updCtx g).turn = s.turn := rfl
@[simp] theorem updCtx_n (s : State) (g : Ctx → Ctx) : (s.updCtx g).n = s.n := rfl
@[simp] theorem updCtx_nextId (s : State) (g : Ctx → Ctx) : (s.updCtx g).nextId = s.nextId := rfl

/-! ### count -/

@[simp] theorem count_w (s : State) (ev n : Nat) : (s.count ev n).w = s.w := rfl
@[simp] theorem count_c (s : State) (ev n : Nat) : (s.count ev n).c = s.c := rfl
@[simp] theorem count_ws (s : State) (ev n : Nat) : (s.count ev n).ws = s.ws := rfl
@[simp] theorem count_gs (s : State) (ev n : Nat) : (s.count ev n).gs = s.gs := rfl
@[simp] theorem count_cs (s : State) (ev n : Nat) : (s.count ev n).cs = s.cs := rfl
@[simp] theorem count_dies (s : State) (ev n : Nat) : (s.count ev n).dies = s.dies := rfl
@[simp] theorem count_ctx (s : State) (ev n : Nat) : (s.count ev n).ctx = s.ctx := rfl
@[simp] theorem count_others (s : State) (ev n : Nat) : (s.count ev n).others = s.others := rfl
@[simp] theorem count_saved (s : State) (ev n : Nat) : (s.count ev n).saved = s.saved := rfl
@[simp] theorem count_hub (s : State) (ev n : Nat) : (s.count ev n).hub = s.hub := rfl
@[simp] theorem count_host (s : State) (ev n : Nat) : (s.count ev n).host = s.host := rfl
@[simp] theorem count_peer (s : State) (ev n : Nat) : (s.count ev n).peer = s.peer := rfl
@[simp] theorem count_time (s : State) (ev n : Nat) : (s.count ev n).time = s.time := rfl
@[simp] theorem count_bad (s : State) (ev n : Nat) : (s.count ev n).bad = s.bad := rfl
@[simp] theorem count_inputs (s : State) (ev n : Nat) : (s.count ev n).inputs = s.inputs := rfl
@[simp] theorem count_turn (s : State) (ev n : Nat) : (s.count ev n).turn = s.turn := rfl
@[simp] theorem count_n (s : State) (ev n : Nat) : (s.count ev n).n = s.n := rfl
@[simp] theorem count_nextId (s : State) (ev n : Nat) : (s.count ev n).nextId = s.nextId := rfl

/-! ### hdmWrite -/

@[simp] theorem hdmWrite_w (s : State) (o : Nat) (bs : List Byte) : (s.hdmWrite o bs).w = s.w := rfl
@[simp] theorem hdmWrite_g (s : State) (o : Nat) (bs : List Byte) : (s.hdmWrite o bs).g = s.g := rfl
@[simp] theorem hdmWrite_c (s : State) (o : Nat) (bs : List Byte) : (s.hdmWrite o bs).c = s.c := rfl
@[simp] theorem hdmWrite_ws (s : State) (o : Nat) (bs : List Byte) : (s.hdmWrite o bs).ws = s.ws := rfl
@[simp] theorem hdmWrite_gs (s : State) (o : Nat) (bs : List Byte) : (s.hdmWrite o bs).gs = s.gs := rfl
@[simp] theorem hdmWrite_cs (s : State) (o : Nat) (bs : List Byte) : (s.hdmWrite o bs).cs = s.cs := rfl
@[simp] theorem hdmWrite_ctx (s : State) (o : Nat) (bs : List Byte) : (s.hdmWrite o bs).ctx = s.ctx := rfl
@[simp] theorem hdmWrite_others (s : State) (o : Nat) (bs : List Byte) : (s.hdmWrite o bs).others = s.others := rfl
@[simp] theorem hdmWrite_saved (s : State) (o : Nat) (bs : List Byte) : (s.hdmWrite o bs).saved = s.saved := rfl
@[simp] theorem hdmWrite_hub (s : State) (o : Nat) (bs : List Byte) : (s.hdmWrite o bs).hub = s.hub := rfl
@[simp] theorem hdmWrite_host (s : State) (o : Nat) (bs : List Byte) : (s.hdmWrite o bs).host = s.host := rfl
@[simp] theorem hdmWrite_peer (s : State) (o : Nat) (bs : List Byte) : (s.hdmWrite o bs).peer = s.peer := rfl
@[simp] theorem hdmWrite_time (s : State) (o : Nat) (bs : List Byte) : (s.hdmWrite o bs).time = s.time := rfl
@[simp] theorem hdmWrite_bad (s : State) (o : Nat) (bs : List Byte) : (s.hdmWrite o bs).bad = s.bad := rfl
@[simp] theorem hdmWrite_inputs (s : State) (o : Nat) (bs : List Byte) : (s.hdmWrite o bs).inputs = s.inputs := rfl
@[simp] theorem hdmWrite_turn (s : State) (o : Nat) (bs : List Byte) : (s.hdmWrite o bs).turn = s.turn := rfl
@[simp] theorem hdmWrite_n (s : State) (o : Nat) (bs : List Byte) : (s.hdmWrite o bs).n = s.n := rfl
@[simp] theorem hdmWrite_nextId (s : State) (o : Nat) (bs : List Byte) : (s.hdmWrite o bs).nextId = s.nextId := rfl

/-! ### scratchWrite -/

@[simp] theorem scratchWrite_w (s : State) (a : Nat) (bs : List Byte) : (s.scratchWrite a bs).w = s.w := rfl
@[simp] theorem scratchWrite_c (s : State) (a : Nat) (bs : List Byte) : (s.scratchWrite a bs).c = s.c := rfl
@[simp] theorem scratchWrite_ws (s : State) (a : Nat) (bs : List Byte) : (s.scratchWrite a bs).ws = s.ws := rfl
@[simp] theorem scratchWrite_gs (s : State) (a : Nat) (bs : List Byte) : (s.scratchWrite a bs).gs = s.gs := rfl
@[simp] theorem scratchWrite_cs (s : State) (a : Nat) (bs : List Byte) : (s.scratchWrite a bs).cs = s.cs := rfl
@[simp] theorem scratchWrite_dies (s : State) (a : Nat) (bs : List Byte) : (s.scratchWrite a bs).dies = s.dies := rfl
@[simp] theorem scratchWrite_ctx (s : State) (a : Nat) (bs : List Byte) : (s.scratchWrite a bs).ctx = s.ctx := rfl
@[simp] theorem scratchWrite_others (s : State) (a : Nat) (bs : List Byte) : (s.scratchWrite a bs).others = s.others := rfl
@[simp] theorem scratchWrite_saved (s : State) (a : Nat) (bs : List Byte) : (s.scratchWrite a bs).saved = s.saved := rfl
@[simp] theorem scratchWrite_hub (s : State) (a : Nat) (bs : List Byte) : (s.scratchWrite a bs).hub = s.hub := rfl
@[simp] theorem scratchWrite_host (s : State) (a : Nat) (bs : List Byte) : (s.scratchWrite a bs).host = s.host := rfl
@[simp] theorem scratchWrite_peer (s : State) (a : Nat) (bs : List Byte) : (s.scratchWrite a bs).peer = s.peer := rfl
@[simp] theorem scratchWrite_time (s : State) (a : Nat) (bs : List Byte) : (s.scratchWrite a bs).time = s.time := rfl
@[simp] theorem scratchWrite_bad (s : State) (a : Nat) (bs : List Byte) : (s.scratchWrite a bs).bad = s.bad := rfl
@[simp] theorem scratchWrite_inputs (s : State) (a : Nat) (bs : List Byte) : (s.scratchWrite a bs).inputs = s.inputs := rfl
@[simp] theorem scratchWrite_turn (s : State) (a : Nat) (bs : List Byte) : (s.scratchWrite a bs).turn = s.turn := rfl
@[simp] theorem scratchWrite_n (s : State) (a : Nat) (bs : List Byte) : (s.scratchWrite a bs).n = s.n := rfl
@[simp] theorem scratchWrite_nextId (s : State) (a : Nat) (bs : List Byte) : (s.scratchWrite a bs).nextId = s.nextId := rfl

@[simp] theorem updDieAt_dies (s : State) (p : Nat) (g : Die → Die) : (s.updDieAt p g).dies = updateAt s.dies p g := rfl
@[simp] theorem updCtx_ctx (s : State) (g : Ctx → Ctx) : (s.updCtx g).ctx = s.ctx.map g := rfl
@[simp] theorem count_g (s : State) (ev n : Nat) : (s.count ev n).g = s.g.count ev n := rfl

end Sys2Proof.Machine
end

