-- ==== Sys2Proof/Laws/Progress.lean ====
section
/-! SUPPORT. Sets of lanes, reading registers after writing them, and the progress of a run: what moving past a word changes. -/

namespace Sys2Proof.Machine

/-! ### Sets of lanes -/

theorem laneSetN_lt (p : Nat → Bool) (n : Nat) : laneSetN p n < 2 ^ n := by
  induction n with
  | zero => simp [laneSetN]
  | succ n ih => simp only [laneSetN, Nat.pow_succ]; split <;> omega

theorem laneSetN_testBit (p : Nat → Bool) (n l : Nat) : (laneSetN p n).testBit l = (decide (l < n) && p l) := by
  induction n with
  | zero => simp [laneSetN]
  | succ n ih =>
    simp only [laneSetN]
    by_cases hp : p n
    · rw [if_pos hp, Nat.add_comm]
      by_cases h : l = n
      · subst h
        rw [Nat.testBit_two_pow_add_eq, Nat.testBit_lt_two_pow (laneSetN_lt p l)]
        simp [hp]
      · by_cases h2 : l < n
        · rw [Nat.testBit_two_pow_add_gt h2, ih]; simp [h2, Nat.lt_succ_of_lt h2]
        · have h3 : ¬ l < n + 1 := by omega
          rw [Nat.testBit_lt_two_pow]
          · simp [h3]
          · have := laneSetN_lt p n
            have h4 : 2 ^ (n + 1) ≤ 2 ^ l := Nat.pow_le_pow_right (by omega) (by omega)
            have h5 : 2 ^ (n + 1) = 2 * 2 ^ n := by rw [Nat.pow_succ]; omega
            omega
    · rw [if_neg hp, Nat.add_zero, ih]
      by_cases h : l = n
      · subst h; simp [hp]
      · have : (l < n + 1) ↔ (l < n) := by omega
        simp [this]

/-- A lane is in the set that a predicate names. -/
@[simp] theorem inSet_laneSet (p : Nat → Bool) (l : Nat) : (laneSet p).getLsbD l = (decide (l < 32) && p l) := by
  simp [laneSet, BitVec.getLsbD_ofNat, laneSetN_testBit]

theorem mem_lanesOf (m : LaneMask) (l : Nat) : l ∈ lanesOf m ↔ l < 32 ∧ inSet m l = true := by
  simp [lanesOf]

/-! ### Registers -/

theorem setLanesN_get (v : Sparse Word) (r : Nat) (e : LaneMask) (x : Nat → Word) (n k : Nat) :
    Sparse.get 0 (setLanesN v r e x n) k =
      if 32 * r ≤ k ∧ k < 32 * r + n ∧ inSet e (k - 32 * r) = true then x (k - 32 * r) else Sparse.get 0 v k := by
  induction n generalizing v with
  | zero => simp only [setLanesN]; rw [if_neg (by omega)]
  | succ n ih =>
    simp only [setLanesN, ih]
    by_cases h : k = 32 * r + n
    · have hk : k - 32 * r = n := by omega
      by_cases he : inSet e n = true
      · rw [if_neg (by omega), if_pos he, if_pos ⟨by omega, by omega, by rw [hk]; exact he⟩, Sparse.get_set, hk]
        simp [vKey, h]
      · rw [if_neg (by omega), if_neg he, if_neg (by rw [hk]; exact fun h => he h.2.2)]
    · have hv : Sparse.get 0 (if inSet e n then v.set 0 (vKey r n) (x n) else v) k = Sparse.get 0 v k := by
        split
        · rw [Sparse.get_set, if_neg (by simpa [vKey] using h)]
        · rfl
      rw [hv]
      by_cases hc : 32 * r ≤ k ∧ k < 32 * r + n ∧ inSet e (k - 32 * r) = true
      · rw [if_pos hc, if_pos ⟨hc.1, by omega, hc.2.2⟩]
      · rw [if_neg hc, if_neg (fun h2 => hc ⟨h2.1, by omega, h2.2.2⟩)]

/-- A lane register after a write to one: the lanes of the set have the new value. -/
theorem setV_v (s : State) (r : Nat) (e : LaneMask) (x : Nat → Word) (q l : Nat) (hl : l < 32) :
    (s.setV r e x).v q l = if q = r ∧ inSet e l = true then x l else s.v q l := by
  simp only [State.v, setV_w_v, setLanesN_get, vKey]
  by_cases h : q = r
  · subst h
    have : 32 * q + l - 32 * q = l := by omega
    simp [this, hl]
  · rw [if_neg (by omega), if_neg (by simp [h])]

/-- A uniform register after a write to one. -/
@[simp] theorem setU_u (s : State) (r : Nat) (x : Word) (q : Nat) : (s.setU r x).u q = if q = r then x else s.u q := by
  simp [State.u]

@[simp] theorem setU_v (s : State) (r : Nat) (x : Word) (q l : Nat) : (s.setU r x).v q l = s.v q l := rfl
@[simp] theorem setV_u (s : State) (r : Nat) (e : LaneMask) (x : Nat → Word) (q : Nat) : (s.setV r e x).u q = s.u q := rfl
@[simp] theorem setCC_v (s : State) (e : LaneMask) (c z n v : Nat → Bool) (q l : Nat) : (s.setCC e c z n v).v q l = s.v q l := rfl
@[simp] theorem setCC_u (s : State) (e : LaneMask) (c z n v : Nat → Bool) (q : Nat) : (s.setCC e c z n v).u q = s.u q := rfl
@[simp] theorem setM_v (s : State) (k : Nat) (x : LaneMask) (q l : Nat) : (s.setM k x).v q l = s.v q l := rfl
@[simp] theorem setM_u (s : State) (k : Nat) (x : LaneMask) (q : Nat) : (s.setM k x).u q = s.u q := rfl

/-- The condition codes of a lane after a write to those of a set. -/
theorem setCC_codes (s : State) (e : LaneMask) (c z n v : Nat → Bool) (l : Nat) (hl : l < 32) :
    (s.setCC e c z n v).codes l = if inSet e l = true then { c := c l, z := z l, n := n l, v := v l } else s.codes l := by
  have hd : decide (l < 32) = true := decide_eq_true hl
  by_cases h : inSet e l = true
  · simp only [State.codes, State.setCC, inSet, inSet_laneSet, hd, Bool.true_and] at *; simp only [h, if_true]
  · simp only [State.codes, State.setCC, inSet, inSet_laneSet, hd, Bool.true_and] at *; simp only [h, if_false, Bool.false_eq_true]

theorem writeCodes_codes (s : State) (wcc : Bool) (e : LaneMask) (k : Nat → Codes) (l : Nat) (hl : l < 32) :
    (s.writeCodes wcc e k).codes l = if wcc = true ∧ inSet e l = true then k l else s.codes l := by
  cases wcc
  · simp [State.writeCodes]
  · simp [State.writeCodes, setCC_codes _ _ _ _ _ _ _ hl]

@[simp] theorem setV_codes (s : State) (r : Nat) (e : LaneMask) (x : Nat → Word) (l : Nat) : (s.setV r e x).codes l = s.codes l := rfl
@[simp] theorem setU_codes (s : State) (r : Nat) (x : Word) (l : Nat) : (s.setU r x).codes l = s.codes l := rfl
@[simp] theorem writeCodes_v (s : State) (wcc : Bool) (e : LaneMask) (k : Nat → Codes) (q l : Nat) :
    (s.writeCodes wcc e k).v q l = s.v q l := by cases wcc <;> rfl
@[simp] theorem writeCodes_u (s : State) (wcc : Bool) (e : LaneMask) (k : Nat → Codes) (q : Nat) :
    (s.writeCodes wcc e k).u q = s.u q := by cases wcc <;> rfl

/-! ### Progress of a run -/

/-- What the end of a run changes: the lane table, the run, what YIELD has left to do, and the halt after a single step. -/
theorem endRun_eq (s : State) (p : Nat → Word64) (mid : Option Mid) :
    s.endRun p mid = { s with w := { s.w with
      lanes := (s.endRun p mid).w.lanes, run := none, halted := (s.endRun p mid).w.halted
      sched := { s.w.sched with
        passed := (s.endRun p mid).w.sched.passed, yielded := (s.endRun p mid).w.sched.yielded } } } := by
  unfold State.endRun; cases h : s.w.run <;> simp [← h]

/-- What moving past a word changes. -/
theorem advance_eq (s : State) (len : Nat) :
    s.advance len = { s with w := { s.w with
      lanes := (s.advance len).w.lanes, run := (s.advance len).w.run, halted := (s.advance len).w.halted
      sched := { s.w.sched with
        passed := (s.advance len).w.sched.passed, yielded := (s.advance len).w.sched.yielded } } } := by
  unfold State.advance
  cases h : s.w.run with
  | none => simp
  | some r =>
    by_cases hl : r.left ≤ 1
    · simp only [if_pos hl]
      conv => lhs; rw [endRun_eq]
      simp [State.endRun, h]
    · simp [if_neg hl]

/-- A word that is not the last of its clause: the run stands at the next one. -/
theorem advance_more (s : State) (len : Nat) (r : Run) (h : s.w.run = some r) (hl : 1 < r.left) :
    s.advance len = { s with w := { s.w with run := some { r with pc := nextWord r.pc len, left := r.left - 1 } } } := by
  simp [State.advance, h, Nat.not_le.mpr hl]

/-- The last word of a clause: the lanes of the run stand at the next header. -/
theorem advance_last (s : State) (len : Nat) (r : Run) (h : s.w.run = some r) (hl : r.left ≤ 1) :
    s.advance len = s.endRun fun _ => nextWord r.pc len := by
  simp [State.advance, h, hl]

theorem advance_none (s : State) (len : Nat) (h : s.w.run = none) : s.advance len = s := by
  simp [State.advance, h]

@[simp] theorem advance_g (s : State) (len : Nat) : (s.advance len).g = s.g := by rw [advance_eq]
@[simp] theorem endRun_g (s : State) (p : Nat → Word64) (mid : Option Mid) : (s.endRun p mid).g = s.g := by rw [endRun_eq]
@[simp] theorem advance_c (s : State) (len : Nat) : (s.advance len).c = s.c := by rw [advance_eq]
@[simp] theorem endRun_c (s : State) (p : Nat → Word64) (mid : Option Mid) : (s.endRun p mid).c = s.c := by rw [endRun_eq]
@[simp] theorem advance_ws (s : State) (len : Nat) : (s.advance len).ws = s.ws := by rw [advance_eq]
@[simp] theorem endRun_ws (s : State) (p : Nat → Word64) (mid : Option Mid) : (s.endRun p mid).ws = s.ws := by rw [endRun_eq]
@[simp] theorem advance_gs (s : State) (len : Nat) : (s.advance len).gs = s.gs := by rw [advance_eq]
@[simp] theorem endRun_gs (s : State) (p : Nat → Word64) (mid : Option Mid) : (s.endRun p mid).gs = s.gs := by rw [endRun_eq]
@[simp] theorem advance_cs (s : State) (len : Nat) : (s.advance len).cs = s.cs := by rw [advance_eq]
@[simp] theorem endRun_cs (s : State) (p : Nat → Word64) (mid : Option Mid) : (s.endRun p mid).cs = s.cs := by rw [endRun_eq]
@[simp] theorem advance_dies (s : State) (len : Nat) : (s.advance len).dies = s.dies := by rw [advance_eq]
@[simp] theorem endRun_dies (s : State) (p : Nat → Word64) (mid : Option Mid) : (s.endRun p mid).dies = s.dies := by rw [endRun_eq]
@[simp] theorem advance_ctx (s : State) (len : Nat) : (s.advance len).ctx = s.ctx := by rw [advance_eq]
@[simp] theorem endRun_ctx (s : State) (p : Nat → Word64) (mid : Option Mid) : (s.endRun p mid).ctx = s.ctx := by rw [endRun_eq]
@[simp] theorem advance_others (s : State) (len : Nat) : (s.advance len).others = s.others := by rw [advance_eq]
@[simp] theorem endRun_others (s : State) (p : Nat → Word64) (mid : Option Mid) : (s.endRun p mid).others = s.others := by rw [endRun_eq]
@[simp] theorem advance_saved (s : State) (len : Nat) : (s.advance len).saved = s.saved := by rw [advance_eq]
@[simp] theorem endRun_saved (s : State) (p : Nat → Word64) (mid : Option Mid) : (s.endRun p mid).saved = s.saved := by rw [endRun_eq]
@[simp] theorem advance_hub (s : State) (len : Nat) : (s.advance len).hub = s.hub := by rw [advance_eq]
@[simp] theorem endRun_hub (s : State) (p : Nat → Word64) (mid : Option Mid) : (s.endRun p mid).hub = s.hub := by rw [endRun_eq]
@[simp] theorem advance_host (s : State) (len : Nat) : (s.advance len).host = s.host := by rw [advance_eq]
@[simp] theorem endRun_host (s : State) (p : Nat → Word64) (mid : Option Mid) : (s.endRun p mid).host = s.host := by rw [endRun_eq]
@[simp] theorem advance_peer (s : State) (len : Nat) : (s.advance len).peer = s.peer := by rw [advance_eq]
@[simp] theorem endRun_peer (s : State) (p : Nat → Word64) (mid : Option Mid) : (s.endRun p mid).peer = s.peer := by rw [endRun_eq]
@[simp] theorem advance_time (s : State) (len : Nat) : (s.advance len).time = s.time := by rw [advance_eq]
@[simp] theorem endRun_time (s : State) (p : Nat → Word64) (mid : Option Mid) : (s.endRun p mid).time = s.time := by rw [endRun_eq]
@[simp] theorem advance_bad (s : State) (len : Nat) : (s.advance len).bad = s.bad := by rw [advance_eq]
@[simp] theorem endRun_bad (s : State) (p : Nat → Word64) (mid : Option Mid) : (s.endRun p mid).bad = s.bad := by rw [endRun_eq]
@[simp] theorem advance_inputs (s : State) (len : Nat) : (s.advance len).inputs = s.inputs := by rw [advance_eq]
@[simp] theorem endRun_inputs (s : State) (p : Nat → Word64) (mid : Option Mid) : (s.endRun p mid).inputs = s.inputs := by rw [endRun_eq]
@[simp] theorem advance_hostStores (s : State) (len : Nat) : (s.advance len).hostStores = s.hostStores := by rw [advance_eq]
@[simp] theorem endRun_hostStores (s : State) (p : Nat → Word64) (mid : Option Mid) : (s.endRun p mid).hostStores = s.hostStores := by rw [endRun_eq]
@[simp] theorem advance_turn (s : State) (len : Nat) : (s.advance len).turn = s.turn := by rw [advance_eq]
@[simp] theorem endRun_turn (s : State) (p : Nat → Word64) (mid : Option Mid) : (s.endRun p mid).turn = s.turn := by rw [endRun_eq]
@[simp] theorem advance_n (s : State) (len : Nat) : (s.advance len).n = s.n := by rw [advance_eq]
@[simp] theorem endRun_n (s : State) (p : Nat → Word64) (mid : Option Mid) : (s.endRun p mid).n = s.n := by rw [endRun_eq]
@[simp] theorem advance_nextId (s : State) (len : Nat) : (s.advance len).nextId = s.nextId := by rw [advance_eq]
@[simp] theorem endRun_nextId (s : State) (p : Nat → Word64) (mid : Option Mid) : (s.endRun p mid).nextId = s.nextId := by rw [endRun_eq]
@[simp] theorem advance_w_id (s : State) (len : Nat) : (s.advance len).w.id = s.w.id := by rw [advance_eq]
@[simp] theorem endRun_w_id (s : State) (p : Nat → Word64) (mid : Option Mid) : (s.endRun p mid).w.id = s.w.id := by rw [endRun_eq]
@[simp] theorem advance_w_wg (s : State) (len : Nat) : (s.advance len).w.wg = s.w.wg := by rw [advance_eq]
@[simp] theorem endRun_w_wg (s : State) (p : Nat → Word64) (mid : Option Mid) : (s.endRun p mid).w.wg = s.w.wg := by rw [endRun_eq]
@[simp] theorem advance_w_idx (s : State) (len : Nat) : (s.advance len).w.idx = s.w.idx := by rw [advance_eq]
@[simp] theorem endRun_w_idx (s : State) (p : Nat → Word64) (mid : Option Mid) : (s.endRun p mid).w.idx = s.w.idx := by rw [endRun_eq]
@[simp] theorem advance_w_slot (s : State) (len : Nat) : (s.advance len).w.slot = s.w.slot := by rw [advance_eq]
@[simp] theorem endRun_w_slot (s : State) (p : Nat → Word64) (mid : Option Mid) : (s.endRun p mid).w.slot = s.w.slot := by rw [endRun_eq]
@[simp] theorem advance_w_win (s : State) (len : Nat) : (s.advance len).w.win = s.w.win := by rw [advance_eq]
@[simp] theorem endRun_w_win (s : State) (p : Nat → Word64) (mid : Option Mid) : (s.endRun p mid).w.win = s.w.win := by rw [endRun_eq]
@[simp] theorem advance_w_v (s : State) (len : Nat) : (s.advance len).w.v = s.w.v := by rw [advance_eq]
@[simp] theorem endRun_w_v (s : State) (p : Nat → Word64) (mid : Option Mid) : (s.endRun p mid).w.v = s.w.v := by rw [endRun_eq]
@[simp] theorem advance_w_u (s : State) (len : Nat) : (s.advance len).w.u = s.w.u := by rw [advance_eq]
@[simp] theorem endRun_w_u (s : State) (p : Nat → Word64) (mid : Option Mid) : (s.endRun p mid).w.u = s.w.u := by rw [endRun_eq]
@[simp] theorem advance_w_m (s : State) (len : Nat) : (s.advance len).w.m = s.w.m := by rw [advance_eq]
@[simp] theorem endRun_w_m (s : State) (p : Nat → Word64) (mid : Option Mid) : (s.endRun p mid).w.m = s.w.m := by rw [endRun_eq]
@[simp] theorem advance_w_ccC (s : State) (len : Nat) : (s.advance len).w.ccC = s.w.ccC := by rw [advance_eq]
@[simp] theorem endRun_w_ccC (s : State) (p : Nat → Word64) (mid : Option Mid) : (s.endRun p mid).w.ccC = s.w.ccC := by rw [endRun_eq]
@[simp] theorem advance_w_ccZ (s : State) (len : Nat) : (s.advance len).w.ccZ = s.w.ccZ := by rw [advance_eq]
@[simp] theorem endRun_w_ccZ (s : State) (p : Nat → Word64) (mid : Option Mid) : (s.endRun p mid).w.ccZ = s.w.ccZ := by rw [endRun_eq]
@[simp] theorem advance_w_ccN (s : State) (len : Nat) : (s.advance len).w.ccN = s.w.ccN := by rw [advance_eq]
@[simp] theorem endRun_w_ccN (s : State) (p : Nat → Word64) (mid : Option Mid) : (s.endRun p mid).w.ccN = s.w.ccN := by rw [endRun_eq]
@[simp] theorem advance_w_ccV (s : State) (len : Nat) : (s.advance len).w.ccV = s.w.ccV := by rw [advance_eq]
@[simp] theorem endRun_w_ccV (s : State) (p : Nat → Word64) (mid : Option Mid) : (s.endRun p mid).w.ccV = s.w.ccV := by rw [endRun_eq]
@[simp] theorem advance_w_rcb (s : State) (len : Nat) : (s.advance len).w.rcb = s.w.rcb := by rw [advance_eq]
@[simp] theorem endRun_w_rcb (s : State) (p : Nat → Word64) (mid : Option Mid) : (s.endRun p mid).w.rcb = s.w.rcb := by rw [endRun_eq]
@[simp] theorem advance_w_sleep (s : State) (len : Nat) : (s.advance len).w.sleep = s.w.sleep := by rw [advance_eq]
@[simp] theorem endRun_w_sleep (s : State) (p : Nat → Word64) (mid : Option Mid) : (s.endRun p mid).w.sleep = s.w.sleep := by rw [endRun_eq]
@[simp] theorem advance_w_sticky (s : State) (len : Nat) : (s.advance len).w.sticky = s.w.sticky := by rw [advance_eq]
@[simp] theorem advance_w_late (s : State) (len : Nat) : (s.advance len).w.late = s.w.late := by rw [advance_eq]
@[simp] theorem endRun_w_sticky (s : State) (p : Nat → Word64) (mid : Option Mid) : (s.endRun p mid).w.sticky = s.w.sticky := by rw [endRun_eq]
@[simp] theorem endRun_w_late (s : State) (p : Nat → Word64) (mid : Option Mid) : (s.endRun p mid).w.late = s.w.late := by rw [endRun_eq]
@[simp] theorem advance_w_th (s : State) (len : Nat) : (s.advance len).w.th = s.w.th := by rw [advance_eq]
@[simp] theorem endRun_w_th (s : State) (p : Nat → Word64) (mid : Option Mid) : (s.endRun p mid).w.th = s.w.th := by rw [endRun_eq]
@[simp] theorem advance_w_inHandler (s : State) (len : Nat) : (s.advance len).w.inHandler = s.w.inHandler := by rw [advance_eq]
@[simp] theorem endRun_w_inHandler (s : State) (p : Nat → Word64) (mid : Option Mid) : (s.endRun p mid).w.inHandler = s.w.inHandler := by rw [endRun_eq]
@[simp] theorem advance_w_single (s : State) (len : Nat) : (s.advance len).w.single = s.w.single := by rw [advance_eq]
@[simp] theorem endRun_w_single (s : State) (p : Nat → Word64) (mid : Option Mid) : (s.endRun p mid).w.single = s.w.single := by rw [endRun_eq]
@[simp] theorem advance_w_passBp (s : State) (len : Nat) : (s.advance len).w.passBp = s.w.passBp := by rw [advance_eq]
@[simp] theorem endRun_w_passBp (s : State) (p : Nat → Word64) (mid : Option Mid) : (s.endRun p mid).w.passBp = s.w.passBp := by rw [endRun_eq]
@[simp] theorem advance_w_shadow (s : State) (len : Nat) : (s.advance len).w.shadow = s.w.shadow := by rw [advance_eq]
@[simp] theorem endRun_w_shadow (s : State) (p : Nat → Word64) (mid : Option Mid) : (s.endRun p mid).w.shadow = s.w.shadow := by rw [endRun_eq]
@[simp] theorem advance_w_sync (s : State) (len : Nat) : (s.advance len).w.sync = s.w.sync := by rw [advance_eq]
@[simp] theorem endRun_w_sync (s : State) (p : Nat → Word64) (mid : Option Mid) : (s.endRun p mid).w.sync = s.w.sync := by rw [endRun_eq]
@[simp] theorem advance_w_trav (s : State) (len : Nat) : (s.advance len).w.trav = s.w.trav := by rw [advance_eq]
@[simp] theorem endRun_w_trav (s : State) (p : Nat → Word64) (mid : Option Mid) : (s.endRun p mid).w.trav = s.w.trav := by rw [endRun_eq]
@[simp] theorem advance_w_mc (s : State) (len : Nat) : (s.advance len).w.mc = s.w.mc := by rw [advance_eq]
@[simp] theorem endRun_w_mc (s : State) (p : Nat → Word64) (mid : Option Mid) : (s.endRun p mid).w.mc = s.w.mc := by rw [endRun_eq]
@[simp] theorem advance_w_mcPend (s : State) (len : Nat) : (s.advance len).w.mcPend = s.w.mcPend := by rw [advance_eq]
@[simp] theorem endRun_w_mcPend (s : State) (p : Nat → Word64) (mid : Option Mid) : (s.endRun p mid).w.mcPend = s.w.mcPend := by rw [endRun_eq]
@[simp] theorem advance_w_outs (s : State) (len : Nat) : (s.advance len).w.outs = s.w.outs := by rw [advance_eq]
@[simp] theorem endRun_w_outs (s : State) (p : Nat → Word64) (mid : Option Mid) : (s.endRun p mid).w.outs = s.w.outs := by rw [endRun_eq]
@[simp] theorem advance_w_clsN (s : State) (len : Nat) : (s.advance len).w.clsN = s.w.clsN := by rw [advance_eq]
@[simp] theorem endRun_w_clsN (s : State) (p : Nat → Word64) (mid : Option Mid) : (s.endRun p mid).w.clsN = s.w.clsN := by rw [endRun_eq]
@[simp] theorem advance_w_gdone (s : State) (len : Nat) : (s.advance len).w.gdone = s.w.gdone := by rw [advance_eq]
@[simp] theorem endRun_w_gdone (s : State) (p : Nat → Word64) (mid : Option Mid) : (s.endRun p mid).w.gdone = s.w.gdone := by rw [endRun_eq]
@[simp] theorem advance_w_pend (s : State) (len : Nat) : (s.advance len).w.pend = s.w.pend := by rw [advance_eq]
@[simp] theorem endRun_w_pend (s : State) (p : Nat → Word64) (mid : Option Mid) : (s.endRun p mid).w.pend = s.w.pend := by rw [endRun_eq]
@[simp] theorem advance_w_parked (s : State) (len : Nat) : (s.advance len).w.parked = s.w.parked := by rw [advance_eq]
@[simp] theorem endRun_w_parked (s : State) (p : Nat → Word64) (mid : Option Mid) : (s.endRun p mid).w.parked = s.w.parked := by rw [endRun_eq]
@[simp] theorem advance_w_waits (s : State) (len : Nat) : (s.advance len).w.waits = s.w.waits := by rw [advance_eq]
@[simp] theorem endRun_w_waits (s : State) (p : Nat → Word64) (mid : Option Mid) : (s.endRun p mid).w.waits = s.w.waits := by rw [endRun_eq]
@[simp] theorem advance_w_carving (s : State) (len : Nat) : (s.advance len).w.carving = s.w.carving := by rw [advance_eq]
@[simp] theorem endRun_w_carving (s : State) (p : Nat → Word64) (mid : Option Mid) : (s.endRun p mid).w.carving = s.w.carving := by rw [endRun_eq]
@[simp] theorem advance_w_ra (s : State) (len : Nat) : (s.advance len).w.ra = s.w.ra := by rw [advance_eq]
@[simp] theorem endRun_w_ra (s : State) (p : Nat → Word64) (mid : Option Mid) : (s.endRun p mid).w.ra = s.w.ra := by rw [endRun_eq]
@[simp] theorem advance_w_raDone (s : State) (len : Nat) : (s.advance len).w.raDone = s.w.raDone := by rw [advance_eq]
@[simp] theorem endRun_w_raDone (s : State) (p : Nat → Word64) (mid : Option Mid) : (s.endRun p mid).w.raDone = s.w.raDone := by rw [endRun_eq]
@[simp] theorem advance_w_ended (s : State) (len : Nat) : (s.advance len).w.ended = s.w.ended := by rw [advance_eq]
@[simp] theorem endRun_w_ended (s : State) (p : Nat → Word64) (mid : Option Mid) : (s.endRun p mid).w.ended = s.w.ended := by rw [endRun_eq]
@[simp] theorem advance_w_released (s : State) (len : Nat) : (s.advance len).w.released = s.w.released := by rw [advance_eq]
@[simp] theorem endRun_w_released (s : State) (p : Nat → Word64) (mid : Option Mid) : (s.endRun p mid).w.released = s.w.released := by rw [endRun_eq]
@[simp] theorem advance_w_ret (s : State) (len : Nat) : (s.advance len).w.ret = s.w.ret := by rw [advance_eq]
@[simp] theorem endRun_w_ret (s : State) (p : Nat → Word64) (mid : Option Mid) : (s.endRun p mid).w.ret = s.w.ret := by rw [endRun_eq]
@[simp] theorem advance_sched_pass (s : State) (len : Nat) : (s.advance len).w.sched.pass = s.w.sched.pass := by rw [advance_eq]
@[simp] theorem endRun_sched_pass (s : State) (p : Nat → Word64) (mid : Option Mid) : (s.endRun p mid).w.sched.pass = s.w.sched.pass := by rw [endRun_eq]
@[simp] theorem advance_sched_prom (s : State) (len : Nat) : (s.advance len).w.sched.prom = s.w.sched.prom := by rw [advance_eq]
@[simp] theorem endRun_sched_prom (s : State) (p : Nat → Word64) (mid : Option Mid) : (s.endRun p mid).w.sched.prom = s.w.sched.prom := by rw [endRun_eq]
@[simp] theorem advance_sched_promAt (s : State) (len : Nat) : (s.advance len).w.sched.promAt = s.w.sched.promAt := by rw [advance_eq]
@[simp] theorem endRun_sched_promAt (s : State) (p : Nat → Word64) (mid : Option Mid) : (s.endRun p mid).w.sched.promAt = s.w.sched.promAt := by rw [endRun_eq]
@[simp] theorem advance_sched_ceil (s : State) (len : Nat) : (s.advance len).w.sched.ceil = s.w.sched.ceil := by rw [advance_eq]
@[simp] theorem endRun_sched_ceil (s : State) (p : Nat → Word64) (mid : Option Mid) : (s.endRun p mid).w.sched.ceil = s.w.sched.ceil := by rw [endRun_eq]
@[simp] theorem advance_sched_prio (s : State) (len : Nat) : (s.advance len).w.sched.prio = s.w.sched.prio := by rw [advance_eq]
@[simp] theorem endRun_sched_prio (s : State) (p : Nat → Word64) (mid : Option Mid) : (s.endRun p mid).w.sched.prio = s.w.sched.prio := by rw [endRun_eq]
@[simp] theorem advance_sched_age (s : State) (len : Nat) : (s.advance len).w.sched.age = s.w.sched.age := by rw [advance_eq]
@[simp] theorem endRun_sched_age (s : State) (p : Nat → Word64) (mid : Option Mid) : (s.endRun p mid).w.sched.age = s.w.sched.age := by rw [endRun_eq]
@[simp] theorem advance_sched_active (s : State) (len : Nat) : (s.advance len).w.sched.active = s.w.sched.active := by rw [advance_eq]
@[simp] theorem endRun_sched_active (s : State) (p : Nat → Word64) (mid : Option Mid) : (s.endRun p mid).w.sched.active = s.w.sched.active := by rw [endRun_eq]
@[simp] theorem advance_sched_hint (s : State) (len : Nat) : (s.advance len).w.sched.hint = s.w.sched.hint := by rw [advance_eq]
@[simp] theorem endRun_sched_hint (s : State) (p : Nat → Word64) (mid : Option Mid) : (s.endRun p mid).w.sched.hint = s.w.sched.hint := by rw [endRun_eq]
@[simp] theorem advance_sched_exch (s : State) (len : Nat) : (s.advance len).w.sched.exch = s.w.sched.exch := by rw [advance_eq]
@[simp] theorem endRun_sched_exch (s : State) (p : Nat → Word64) (mid : Option Mid) : (s.endRun p mid).w.sched.exch = s.w.sched.exch := by rw [endRun_eq]
@[simp] theorem advance_sched_swapped (s : State) (len : Nat) : (s.advance len).w.sched.swapped = s.w.sched.swapped := by rw [advance_eq]
@[simp] theorem endRun_sched_swapped (s : State) (p : Nat → Word64) (mid : Option Mid) : (s.endRun p mid).w.sched.swapped = s.w.sched.swapped := by rw [endRun_eq]

@[simp] theorem advance_v (s : State) (len q l : Nat) : (s.advance len).v q l = s.v q l := by simp [State.v]
@[simp] theorem advance_u (s : State) (len q : Nat) : (s.advance len).u q = s.u q := by simp [State.u]
@[simp] theorem advance_codes (s : State) (len l : Nat) : (s.advance len).codes l = s.codes l := by simp [State.codes]

end Sys2Proof.Machine
end

