-- ==== Sys2Proof/Laws/Words.lean ====
section
/-! SUPPORT. What the shared operations of register words do, each said once: moving on, writing lane registers with codes, and
ending a floating-point word. -/

namespace Sys2Proof.Machine

/-- Moving past a word, after updates that leave the run, the lane table and the halts alone. -/
theorem moved_advance (s u : State) (len : Nat) (hr : u.w.run = s.w.run) (hl : u.w.lanes = s.w.lanes)
    (hh : u.w.halted = s.w.halted) (hs : u.w.single = s.w.single)
    (hy : SameYield s u) : Moved s (u.advance len) len := by
  unfold Moved
  cases h : s.w.run with
  | none => rw [advance_none u len (hr.trans h)]; exact ⟨hr.trans h, hl, hh, hy⟩
  | some r =>
    by_cases hc : 1 < r.left
    · simp only [hc, if_true]
      rw [advance_more u len r (hr.trans h) hc]
      exact ⟨rfl, hl, hh, hy⟩
    · simp only [hc, if_false]
      rw [advance_last u len r (hr.trans h) (by omega)]
      simp only [State.endRun, hr.trans h]
      refine ⟨trivial, ?_, ⟨hy.2, rfl⟩, ?_⟩
      · rw [hh, hs]
      · rw [hl]

/-- States that agree outside the registers and the progress of the warp have the same bytes. -/
theorem kept_of_eq (s t : State) (h : t.withRegs s = s) : Kept s t := by
  refine ⟨h, ?_, ?_, ?_, ?_⟩
  · intro p a
    have hd : (t.withRegs s).dies = s.dies := congrArg State.dies h
    have hd2 : t.dies = s.dies := hd
    simp only [State.dieAt, hd2]
  · intro a n
    have hg : (t.withRegs s).g = s.g := congrArg State.g h
    have hg2 : t.g = s.g := hg
    simp only [State.scratchRead, hg2]
  · exact (congrArg State.host h : (t.withRegs s).host = s.host)
  · exact (congrArg State.peer h : (t.withRegs s).peer = s.peer)

/-- Moving on changes the progress of the warp alone. -/
theorem withRegs_advance (s u : State) (len : Nat) : (u.advance len).withRegs s = u.withRegs s := by
  rw [advance_eq]; rfl

theorem writesLanes_setV (s : State) (d : Nat) (e : LaneMask) (x : Nat → Word) :
    WritesLanes s (s.setV d e x) e d fun l => [x l] := by
  intro q l hl
  rw [setV_v _ _ _ _ _ _ hl]
  by_cases h : q = d
  · subst h; simp
  · rw [if_neg (fun c => h c.1), if_neg (by simp only [List.length_cons, List.length_nil]; omega)]

theorem writesLanes_setV2 (s : State) (d : Nat) (e : LaneMask) (x : Nat → Word64) :
    WritesLanes s (s.setV2 d e x) e d fun l => [(x l).setWidth 32, (x l).extractLsb' 32 32] := by
  intro q l hl
  simp only [State.setV2]
  rw [setV_v _ _ _ _ _ _ hl, setV_v _ _ _ _ _ _ hl]
  simp only [List.length_cons, List.length_nil]
  by_cases he : inSet e l = true
  · by_cases h : q = d
    · subst h; simp [he]
    · by_cases h1 : q = d + 1
      · subst h1; simp [he]
      · rw [if_neg (fun c => h1 c.1), if_neg (fun c => h c.1), if_neg (by omega)]
  · simp [he]

/-- An integer word into a lane register (R133, R134). -/
theorem alu_spec (s : State) (f : FmtA) (res : Nat → Nat) (codes : Nat → Codes) :
    ∃ t, s.alu f res codes = .next t ∧ WritesLanes s t (s.execSet f.cond) f.dst.toNat (fun l => [BitVec.ofNat 32 (res l)])
      ∧ WritesCodes s t f.wcc (s.execSet f.cond) codes ∧ t.w.u = s.w.u ∧ t.w.m = s.w.m ∧ SameFlags s t
      ∧ Moved s t (fmtLen f) ∧ Kept s t := by
  refine ⟨_, rfl, ?_, ?_, ?_, ?_, ?_, ?_, ?_⟩
  · intro q l hl
    rw [advance_v, writeCodes_v]; exact writesLanes_setV _ _ _ _ q l hl
  · intro l hl
    rw [advance_codes, writeCodes_codes _ _ _ _ _ hl, setV_codes]
  · cases f.wcc <;> simp [State.writeCodes]
  · cases f.wcc <;> simp [State.writeCodes]
  · cases f.wcc <;> simp [SameFlags, State.writeCodes]
  · cases f.wcc <;> exact moved_advance _ _ _ rfl rfl rfl rfl ⟨rfl, rfl⟩
  · apply kept_of_eq; rw [withRegs_advance]; cases f.wcc <;> rfl

/-- An integer word into a lane pair. -/
theorem alu64_spec (s : State) (f : FmtA) (res : Nat → Nat) (codes : Nat → Codes) :
    ∃ t, s.alu64 f res codes = .next t
      ∧ WritesLanes s t (s.execSet f.cond) f.dst.toNat (fun l =>
          [(BitVec.ofNat 64 (res l)).setWidth 32, (BitVec.ofNat 64 (res l)).extractLsb' 32 32])
      ∧ WritesCodes s t f.wcc (s.execSet f.cond) codes ∧ t.w.u = s.w.u ∧ t.w.m = s.w.m ∧ SameFlags s t
      ∧ Moved s t (fmtLen f) ∧ Kept s t := by
  refine ⟨_, rfl, ?_, ?_, ?_, ?_, ?_, ?_, ?_⟩
  · intro q l hl
    rw [advance_v, writeCodes_v]; exact writesLanes_setV2 _ _ _ _ q l hl
  · intro l hl
    rw [advance_codes, writeCodes_codes _ _ _ _ _ hl]; rfl
  · cases f.wcc <;> simp [State.writeCodes, State.setV2]
  · cases f.wcc <;> simp [State.writeCodes, State.setV2]
  · cases f.wcc <;> simp [SameFlags, State.writeCodes, State.setV2]
  · cases f.wcc <;> exact moved_advance _ _ _ rfl rfl rfl rfl ⟨rfl, rfl⟩
  · apply kept_of_eq; rw [withRegs_advance]; cases f.wcc <;> rfl

end Sys2Proof.Machine
end

