-- ==== Sys2Proof/Laws/Integer.lean ====
section
/-! SUPPORT. Integer words: the numbers that the meanings compute, and the bit vectors and integers of the manual's own terms. -/

namespace Sys2Proof.Slice0
open Sys2Proof.Machine

theorem of_alu {o : LaneOp} {f : FmtA} {s : State} {res : Nat → Nat} {codes : Nat → Codes}
    (hx : exec (o.word f) s = s.alu f res codes) (hr : ∀ l, o.res f s l = [BitVec.ofNat 32 (res l)])
    (hk : ∀ l, o.codes f s l = codes l) : o.Completes f s := by
  obtain ⟨t, h1, h2, h3, h4⟩ := alu_spec s f res codes
  have e1 : o.res f s = fun l => [BitVec.ofNat 32 (res l)] := funext hr
  have e2 : o.codes f s = codes := funext hk
  exact ⟨t, hx.trans h1, e1 ▸ h2, e2 ▸ h3, h4⟩

theorem of_alu64 {o : LaneOp} {f : FmtA} {s : State} {res : Nat → Nat} {codes : Nat → Codes}
    (hx : exec (o.word f) s = s.alu64 f res codes) (hr : ∀ l, o.res f s l = halves (BitVec.ofNat 64 (res l)))
    (hk : ∀ l, o.codes f s l = codes l) : o.Completes f s := by
  obtain ⟨t, h1, h2, h3, h4⟩ := alu64_spec s f res codes
  have e1 : o.res f s = fun l => halves (BitVec.ofNat 64 (res l)) := funext hr
  have e2 : o.codes f s = codes := funext hk
  exact ⟨t, hx.trans h1, e1 ▸ h2, e2 ▸ h3, h4⟩

theorem readInt_toNat (u : Bool) {n : Nat} (hn : 0 < n) (x : BitVec n) : readInt u n x.toNat = rd u x := by
  have hx := x.isLt
  cases u
  · simp only [readInt, rd, sextN, Nat.mod_eq_of_lt hx, BitVec.toInt_eq_toNat_cond]
    have : 2 ^ n = 2 * 2 ^ (n - 1) := by rw [← Nat.pow_succ']; congr 1; omega
    simp only [Bool.false_eq_true, if_false]
    split <;> split <;> omega
  · simp [readInt, rd, Nat.mod_eq_of_lt hx]

theorem ofNat_wrapN (n : Nat) (x : Int) : BitVec.ofNat n (wrapN n x) = BitVec.ofInt n x := by
  apply BitVec.eq_of_toNat_eq
  simp only [wrapN, BitVec.toNat_ofNat, BitVec.toNat_ofInt]
  have h1 : 0 ≤ x % (2 ^ n : Nat) := Int.emod_nonneg _ (by positivity)
  have h2 : x % (2 ^ n : Nat) < (2 ^ n : Nat) := Int.emod_lt_of_pos _ (by positivity)
  rw [Nat.mod_eq_of_lt (by omega)]

theorem ofNat_storeInt (u sat : Bool) (n : Nat) (x : Int) : BitVec.ofNat n (storeInt u sat n x) = fit u sat n x := by
  cases sat
  · simp [storeInt, fit, ofNat_wrapN]
  · cases u <;> simp [storeInt, fit, satN, least, greatest, ofNat_wrapN]

theorem codesOf_ofNat {n : Nat} (x : Nat) (_ : 0 < n) (c v : Bool) : codesOf n x c v = nz (BitVec.ofNat n x) c v := by
  simp only [codesOf, nz, BitVec.msb_eq_decide, BitVec.toNat_ofNat]
  congr 1
  simp [← BitVec.toNat_inj]

theorem codesOf_wrapN {n : Nat} (x : Int) (hn : 0 < n) (c v : Bool) : codesOf n (wrapN n x) c v = nz (BitVec.ofInt n x) c v := by
  rw [codesOf_ofNat _ hn, ofNat_wrapN]

theorem outOfRange_eq (u : Bool) (n : Nat) (x : Int) : outOfRange u n x = outside u n x := by
  cases u
  · simp only [outOfRange, outside, least, greatest, Bool.false_eq_true, if_false]
    congr 1; simp
  · simp only [outOfRange, outside, least, greatest, if_true]
    congr 1; simp
  
theorem bit_eq (b : Bool) : Machine.bit b = one b := rfl


theorem addRes_eq (sub u sat : Bool) {n : Nat} (hn : 0 < n) (a b : BitVec n) :
    BitVec.ofNat n (addRes sub u sat n a.toNat b.toNat) = fit u sat n (sum sub u a b) := by
  cases sub <;> simp [addRes, ofNat_storeInt, readInt_toNat u hn, sum]

theorem addCodes_eq (sub u : Bool) {n : Nat} (hn : 0 < n) (a b : BitVec n) :
    addCodes sub u n a.toNat b.toNat = sumCodes sub u a b := by
  cases sub <;> simp [addCodes, codesSub, codesAdd, codesOf_wrapN _ hn, readInt_toNat u hn, sum, sumCodes, outOfRange_eq,
    Nat.mod_eq_of_lt a.isLt, Nat.mod_eq_of_lt b.isLt]

theorem exact_alu {w : FmtA → Instr} {u sat : FmtA → Bool} {x : FmtA → State → Nat → Int} {c : FmtA → State → Nat → Bool}
    {f : FmtA} {s : State} {y : Nat → Int} {d : Nat → Bool}
    (hx : exec (w f) s = s.alu f (fun l => storeInt (u f) (sat f) 32 (y l))
      fun l => codesOf 32 (wrapN 32 (y l)) (d l) (outOfRange (u f) 32 (y l)))
    (hy : ∀ l, y l = x f s l) (hd : ∀ l, d l = c f s l) : (exactOp w u x sat c).Completes f s :=
  of_alu hx (fun l => by simp [exactOp, ofNat_storeInt, hy]) fun l => by
    simp [exactOp, codesOf_wrapN, outOfRange_eq, hy, hd]

theorem value_alu {w : FmtA → Instr} {x : FmtA → State → Nat → Word} {c v : FmtA → State → Nat → Bool}
    {f : FmtA} {s : State} {r : Nat → Nat} {d e : Nat → Bool}
    (hx : exec (w f) s = s.alu f r fun l => codesOf 32 (r l) (d l) (e l))
    (hr : ∀ l, BitVec.ofNat 32 (r l) = x f s l) (hd : ∀ l, d l = c f s l) (he : ∀ l, e l = v f s l) :
    (valueOp w x c v).Completes f s :=
  of_alu hx (fun l => by simp [valueOp, hr]) fun l => by simp [valueOp, codesOf_ofNat, hr, hd, he]

theorem value_alu64 {w : FmtA → Instr} {x : FmtA → State → Nat → Word64} {c : FmtA → State → Nat → Bool}
    {f : FmtA} {s : State} {r : Nat → Nat} {d : Nat → Bool}
    (hx : exec (w f) s = s.alu64 f r fun l => codesOf 64 (r l) (d l) false)
    (hr : ∀ l, BitVec.ofNat 64 (r l) = x f s l) (hd : ∀ l, d l = c f s l) :
    (valueOp64 w x c).Completes f s :=
  of_alu64 hx (fun l => by simp [valueOp64, hr]) fun l => by simp [valueOp64, codesOf_ofNat, hr, hd]

theorem plain_alu {w : FmtA → Instr} {x : FmtA → State → Nat → Word} {f : FmtA} {s : State} {r : Nat → Nat}
    (hx : exec (w f) s = s.alu f r fun l => s.codes l) (hr : ∀ l, BitVec.ofNat 32 (r l) = x f s l) :
    (plainOp w x).Completes f s :=
  of_alu hx (fun l => by simp [plainOp, hr]) fun l => rfl

theorem plain_alu64 {w : FmtA → Instr} {x : FmtA → State → Nat → Word64} {f : FmtA} {s : State} {r : Nat → Nat}
    (hx : exec (w f) s = s.alu64 f r fun l => s.codes l) (hr : ∀ l, BitVec.ofNat 64 (r l) = x f s l) :
    (plainOp64 w x).Completes f s :=
  of_alu64 hx (fun l => by simp [plainOp64, hr]) fun l => rfl

theorem mulHi_eq (u : Bool) (a b : Word) : BitVec.ofNat 32 (mulHi u a.toNat b.toNat) = hiWord (rd u a * rd u b) := by
  simp only [mulHi, mulExact, readInt_toNat u (by omega : 0 < 32), hiWord, Bool.false_eq_true, if_false]
  apply BitVec.eq_of_toNat_eq
  rw [← ofNat_wrapN]
  simp [Nat.shiftRight_eq_div_pow]
  have := (wrapN 64 (rd u a * rd u b))
  have h : wrapN 64 (rd u a * rd u b) < 2 ^ 64 := by
    simp only [wrapN]
    have h1 := Int.emod_nonneg (rd u a * rd u b) (b := (2 ^ 64 : Nat)) (by norm_num)
    have h2 := Int.emod_lt_of_pos (rd u a * rd u b) (b := (2 ^ 64 : Nat)) (by norm_num)
    omega
  omega

theorem rd_zero_iff (u : Bool) (b : Word) : rd u b = 0 ↔ b = 0 := by
  cases u
  · simp only [rd, Bool.false_eq_true, if_false]
    constructor
    · intro h; exact BitVec.eq_of_toInt_eq (by simpa using h)
    · rintro rfl; rfl
  · simp [rd, ← BitVec.toNat_inj]

theorem divRes_eq (u sat : Bool) (a b : Word) :
    BitVec.ofNat 32 (divRes u sat a.toNat b.toNat).1 = quot u sat a b ∧
    BitVec.ofNat 32 (divRes u sat a.toNat b.toNat).2.1 = remd u a b ∧
    (divRes u sat a.toNat b.toNat).2.2 = divV u a b := by
  simp only [divRes, readInt_toNat u (by omega : 0 < 32), rd_zero_iff]
  by_cases hb : b = 0
  · simp only [hb, if_true, quot, remd, divV, decide_true, Bool.true_or]
    refine ⟨?_, by simp, trivial⟩
    cases u
    · by_cases ha : 0 ≤ a.toInt
      · have : a.slt 0 = false := by simp [BitVec.slt, ha]
        simp only [BitVec.ofNat_eq_ofNat] at this; simp [rd, ha, this]
      · have : a.slt 0 = true := by simpa [BitVec.slt] using ha
        simp only [BitVec.ofNat_eq_ofNat] at this; simp [rd, ha, this]
    · simp
  · simp only [hb, if_false, quot, remd, divV]
    have e1 : (rd u a = -(2 ^ 31) ∧ u = false) ↔ (a = 0x80000000 ∧ u = false) := by
      constructor
      · rintro ⟨h, rfl⟩; refine ⟨BitVec.eq_of_toInt_eq ?_, rfl⟩; simpa [rd] using h
      · rintro ⟨rfl, rfl⟩; exact ⟨by decide, rfl⟩
    have e2 : (rd u b = -1 ∧ u = false) ↔ (b = 0xFFFFFFFF ∧ u = false) := by
      constructor
      · rintro ⟨h, rfl⟩; refine ⟨BitVec.eq_of_toInt_eq ?_, rfl⟩; simpa [rd] using h
      · rintro ⟨rfl, rfl⟩; exact ⟨by decide, rfl⟩
    have e3 : (u = false ∧ rd u a = -(2 ^ 31) ∧ rd u b = -1) ↔ (u = false ∧ a = 0x80000000 ∧ b = 0xFFFFFFFF) := by tauto
    by_cases h : u = false ∧ a = 0x80000000 ∧ b = 0xFFFFFFFF
    · rw [if_pos (e3.mpr h), if_pos h, if_pos h]
      obtain ⟨rfl, rfl, rfl⟩ := h
      cases sat <;> simp
    · rw [if_neg (fun q => h (e3.mp q)), if_neg h, if_neg h]
      refine ⟨ofNat_wrapN _ _, ofNat_wrapN _ _, ?_⟩
      cases u <;> simp_all

end Sys2Proof.Slice0
end

