-- ==== Sys2Proof/Laws/PerInstr.lean ====
section
/-! SUPPORT. One lemma for each constructor: building an instruction from its opcode and its fields gives it back, so an opcode and
the fields of a word determine one instruction. -/

namespace Sys2Proof.Laws.Rebuild

open Machine

/-- A legal word's opcode and fields give the instruction back. -/
def Statement (i : Instr) : Prop :=
  i.wellFormed = true → ∀ f, i.fmt = some f →
    i.opcode < 512 ∧ i.opcode ≠ 0x07F ∧ buildInstr i.opcode f (i.upper.getD Upper.blank) = i

theorem of_word {i : Instr} (f : FmtA) (x : Upper) (op : Nat) (h1 : i.fmt = some f) (h2 : i.upper.getD Upper.blank = x)
    (h3 : i.opcode = op) (h4 : Nat.ble (op + 1) 512 = true) (h5 : Nat.beq op 0x07F = false) (h6 : buildInstr op f x = i) :
    Statement i := by
  intro _ g hg
  rw [h1] at hg
  cases hg
  rw [h2, h3]
  exact ⟨Nat.le_of_ble_eq_true h4, Nat.ne_of_beq_eq_false h5, h6⟩

/-- The rows that split an opcode by MODE. -/
theorem of_mode {i : Instr} (f : FmtA) (x : Upper) (op : Nat) (p : Prop) (h0 : i.wellFormed = true → p) (h1 : i.fmt = some f) (h2 : i.upper.getD Upper.blank = x)
    (h3 : i.opcode = op) (h4 : Nat.ble (op + 1) 512 = true) (h5 : Nat.beq op 0x07F = false) (h6 : p → buildInstr op f x = i) :
    Statement i := by
  intro w
  exact of_word f x op h1 h2 h3 h4 h5 (h6 (h0 w)) w

theorem of_none {i : Instr} (h : i.fmt = none) : Statement i := by
  intro _ g hg; rw [h] at hg; cases hg

theorem nop (len : NopLen) : Statement (.nop len) := of_none rfl
theorem bra (f : FmtA) : Statement (.bra f) := of_word f .blank 0x002 rfl rfl rfl rfl rfl rfl
theorem bru (f : FmtA) : Statement (.bru f) := of_word f .blank 0x003 rfl rfl rfl rfl rfl rfl
theorem brany (f : FmtA) : Statement (.brany f) := of_word f .blank 0x004 rfl rfl rfl rfl rfl rfl
theorem brall (f : FmtA) : Statement (.brall f) := of_word f .blank 0x005 rfl rfl rfl rfl rfl rfl
theorem brx (f : FmtA) : Statement (.brx f) := of_word f .blank 0x006 rfl rfl rfl rfl rfl rfl
theorem call (f : FmtA) : Statement (.call f) := of_word f .blank 0x007 rfl rfl rfl rfl rfl rfl
theorem callx (f : FmtA) : Statement (.callx f) := of_word f .blank 0x008 rfl rfl rfl rfl rfl rfl
theorem ret (f : FmtA) : Statement (.ret f) := of_word f .blank 0x009 rfl rfl rfl rfl rfl rfl
theorem exit (f : FmtA) : Statement (.exit f) := of_word f .blank 0x00A rfl rfl rfl rfl rfl rfl
theorem rcbArm (f : FmtA) : Statement (.rcbArm f) := of_word f .blank 0x00B rfl rfl rfl rfl rfl rfl
theorem rcbWait (f : FmtA) : Statement (.rcbWait f) := of_word f .blank 0x00C rfl rfl rfl rfl rfl rfl
theorem rcbClr (f : FmtA) : Statement (.rcbClr f) := of_word f .blank 0x00D rfl rfl rfl rfl rfl rfl
theorem yield (f : FmtA) : Statement (.yield f) := of_word f .blank 0x00E rfl rfl rfl rfl rfl rfl
theorem prioSet (f : FmtA) : Statement (.prioSet f) := of_word f .blank 0x00F rfl rfl rfl rfl rfl rfl
theorem prioGet (f : FmtA) : Statement (.prioGet f) := of_word f .blank 0x010 rfl rfl rfl rfl rfl rfl
theorem srd (f : FmtA) : Statement (.srd f) := of_word f .blank 0x011 rfl rfl rfl rfl rfl rfl
theorem srd64 (f : FmtA) : Statement (.srd64 f) := of_word f .blank 0x012 rfl rfl rfl rfl rfl rfl
theorem sleep (f : FmtA) : Statement (.sleep f) := of_word f .blank 0x013 rfl rfl rfl rfl rfl rfl
theorem ldpc (f : FmtA) : Statement (.ldpc f) := of_word f .blank 0x014 rfl rfl rfl rfl rfl rfl
theorem iadd (f : FmtA) : Statement (.iadd f) := of_word f .blank 0x020 rfl rfl rfl rfl rfl rfl
theorem iadd64 (f : FmtA) : Statement (.iadd64 f) := of_word f .blank 0x021 rfl rfl rfl rfl rfl rfl
theorem isub (f : FmtA) : Statement (.isub f) := of_word f .blank 0x022 rfl rfl rfl rfl rfl rfl
theorem isub64 (f : FmtA) : Statement (.isub64 f) := of_word f .blank 0x023 rfl rfl rfl rfl rfl rfl
theorem iaddc (f : FmtA) : Statement (.iaddc f) := of_word f .blank 0x024 rfl rfl rfl rfl rfl rfl
theorem isubb (f : FmtA) : Statement (.isubb f) := of_word f .blank 0x025 rfl rfl rfl rfl rfl rfl
theorem iadd3 (f : FmtA) : Statement (.iadd3 f) := of_word f .blank 0x026 rfl rfl rfl rfl rfl rfl
theorem lea (f : FmtA) : Statement (.lea f) := of_word f .blank 0x027 rfl rfl rfl rfl rfl rfl
theorem imulLo (f : FmtA) : Statement (.imulLo f) := of_word f .blank 0x028 rfl rfl rfl rfl rfl rfl
theorem imulHi (f : FmtA) : Statement (.imulHi f) := of_word f .blank 0x029 rfl rfl rfl rfl rfl rfl
theorem imulWide (f : FmtA) : Statement (.imulWide f) := of_word f .blank 0x02A rfl rfl rfl rfl rfl rfl
theorem imadLo (f : FmtA) : Statement (.imadLo f) := of_word f .blank 0x02B rfl rfl rfl rfl rfl rfl
theorem imadHi (f : FmtA) : Statement (.imadHi f) := of_word f .blank 0x02C rfl rfl rfl rfl rfl rfl
theorem imadWide (f : FmtA) : Statement (.imadWide f) := of_word f .blank 0x02D rfl rfl rfl rfl rfl rfl
theorem idiv (f : FmtA) : Statement (.idiv f) := of_word f .blank 0x02E rfl rfl rfl rfl rfl rfl
theorem irem (f : FmtA) : Statement (.irem f) := of_word f .blank 0x02F rfl rfl rfl rfl rfl rfl
theorem iabs (f : FmtA) : Statement (.iabs f) := of_word f .blank 0x030 rfl rfl rfl rfl rfl rfl
theorem ineg (f : FmtA) : Statement (.ineg f) := of_word f .blank 0x031 rfl rfl rfl rfl rfl rfl
theorem imin (f : FmtA) : Statement (.imin f) := of_word f .blank 0x032 rfl rfl rfl rfl rfl rfl
theorem imax (f : FmtA) : Statement (.imax f) := of_word f .blank 0x033 rfl rfl rfl rfl rfl rfl
theorem imin64 (f : FmtA) : Statement (.imin64 f) := of_word f .blank 0x034 rfl rfl rfl rfl rfl rfl
theorem imax64 (f : FmtA) : Statement (.imax64 f) := of_word f .blank 0x035 rfl rfl rfl rfl rfl rfl
theorem icmp (f : FmtA) : Statement (.icmp f) := of_word f .blank 0x036 rfl rfl rfl rfl rfl rfl
theorem icmp64 (f : FmtA) : Statement (.icmp64 f) := of_word f .blank 0x037 rfl rfl rfl rfl rfl rfl
theorem isetm (f : FmtA) : Statement (.isetm f) := of_word f .blank 0x038 rfl rfl rfl rfl rfl rfl
theorem sel (f : FmtA) : Statement (.sel f) := of_word f .blank 0x039 rfl rfl rfl rfl rfl rfl
theorem sel64 (f : FmtA) : Statement (.sel64 f) := of_word f .blank 0x03A rfl rfl rfl rfl rfl rfl
theorem mov (f : FmtA) : Statement (.mov f) := of_word f .blank 0x03B rfl rfl rfl rfl rfl rfl
theorem mov64 (f : FmtA) : Statement (.mov64 f) := of_word f .blank 0x03C rfl rfl rfl rfl rfl rfl
theorem movw (f : FmtA) : Statement (.movw f) := of_word f .blank 0x03D rfl rfl rfl rfl rfl rfl
theorem vadie (f : FmtA) : Statement (.vadie f) := of_word f .blank 0x03E rfl rfl rfl rfl rfl rfl
theorem idp4 (f : FmtA) : Statement (.idp4 f) := of_word f .blank 0x03F rfl rfl rfl rfl rfl rfl
theorem and (f : FmtA) : Statement (.and f) := of_word f .blank 0x040 rfl rfl rfl rfl rfl rfl
theorem or (f : FmtA) : Statement (.or f) := of_word f .blank 0x041 rfl rfl rfl rfl rfl rfl
theorem xor (f : FmtA) : Statement (.xor f) := of_word f .blank 0x042 rfl rfl rfl rfl rfl rfl
theorem andn (f : FmtA) : Statement (.andn f) := of_word f .blank 0x043 rfl rfl rfl rfl rfl rfl
theorem lop3 (f : FmtA) : Statement (.lop3 f) := of_word f .blank 0x044 rfl rfl rfl rfl rfl rfl
theorem shl (f : FmtA) : Statement (.shl f) := of_word f .blank 0x045 rfl rfl rfl rfl rfl rfl
theorem shr (f : FmtA) : Statement (.shr f) := of_word f .blank 0x046 rfl rfl rfl rfl rfl rfl
theorem sar (f : FmtA) : Statement (.sar f) := of_word f .blank 0x047 rfl rfl rfl rfl rfl rfl
theorem rot (f : FmtA) : Statement (.rot f) := of_word f .blank 0x048 rfl rfl rfl rfl rfl rfl
theorem shl64 (f : FmtA) : Statement (.shl64 f) := of_word f .blank 0x049 rfl rfl rfl rfl rfl rfl
theorem shr64 (f : FmtA) : Statement (.shr64 f) := of_word f .blank 0x04A rfl rfl rfl rfl rfl rfl
theorem sar64 (f : FmtA) : Statement (.sar64 f) := of_word f .blank 0x04B rfl rfl rfl rfl rfl rfl
theorem bfx (f : FmtA) : Statement (.bfx f) := of_word f .blank 0x04C rfl rfl rfl rfl rfl rfl
theorem bfi (f : FmtA) : Statement (.bfi f) := of_word f .blank 0x04D rfl rfl rfl rfl rfl rfl
theorem popc (f : FmtA) : Statement (.popc f) := of_word f .blank 0x04E rfl rfl rfl rfl rfl rfl
theorem clz (f : FmtA) : Statement (.clz f) := of_word f .blank 0x04F rfl rfl rfl rfl rfl rfl
theorem ctz (f : FmtA) : Statement (.ctz f) := of_word f .blank 0x050 rfl rfl rfl rfl rfl rfl
theorem brev (f : FmtA) : Statement (.brev f) := of_word f .blank 0x051 rfl rfl rfl rfl rfl rfl
theorem bperm (f : FmtA) : Statement (.bperm f) := of_word f .blank 0x052 rfl rfl rfl rfl rfl rfl
theorem sad (f : FmtA) : Statement (.sad f) := of_word f .blank 0x053 rfl rfl rfl rfl rfl rfl
theorem faddF32 (f : FmtA) : Statement (.faddF32 f) := of_word f .blank 0x060 rfl rfl rfl rfl rfl rfl
theorem faddF16 (f : FmtA) : Statement (.faddF16 f) := of_word f .blank 0x061 rfl rfl rfl rfl rfl rfl
theorem faddBf16 (f : FmtA) : Statement (.faddBf16 f) := of_word f .blank 0x062 rfl rfl rfl rfl rfl rfl
theorem fmulF32 (f : FmtA) : Statement (.fmulF32 f) := of_word f .blank 0x063 rfl rfl rfl rfl rfl rfl
theorem fmulF16 (f : FmtA) : Statement (.fmulF16 f) := of_word f .blank 0x064 rfl rfl rfl rfl rfl rfl
theorem fmulBf16 (f : FmtA) : Statement (.fmulBf16 f) := of_word f .blank 0x065 rfl rfl rfl rfl rfl rfl
theorem ffmaF32 (f : FmtA) : Statement (.ffmaF32 f) := of_word f .blank 0x066 rfl rfl rfl rfl rfl rfl
theorem ffmaF16 (f : FmtA) : Statement (.ffmaF16 f) := of_word f .blank 0x067 rfl rfl rfl rfl rfl rfl
theorem ffmaBf16 (f : FmtA) : Statement (.ffmaBf16 f) := of_word f .blank 0x068 rfl rfl rfl rfl rfl rfl
theorem fminF32 (f : FmtA) : Statement (.fminF32 f) := of_word f .blank 0x069 rfl rfl rfl rfl rfl rfl
theorem fminF16 (f : FmtA) : Statement (.fminF16 f) := of_word f .blank 0x06A rfl rfl rfl rfl rfl rfl
theorem fminBf16 (f : FmtA) : Statement (.fminBf16 f) := of_word f .blank 0x06B rfl rfl rfl rfl rfl rfl
theorem fmaxF32 (f : FmtA) : Statement (.fmaxF32 f) := of_word f .blank 0x06C rfl rfl rfl rfl rfl rfl
theorem fmaxF16 (f : FmtA) : Statement (.fmaxF16 f) := of_word f .blank 0x06D rfl rfl rfl rfl rfl rfl
theorem fmaxBf16 (f : FmtA) : Statement (.fmaxBf16 f) := of_word f .blank 0x06E rfl rfl rfl rfl rfl rfl
theorem fcmpF32 (f : FmtA) : Statement (.fcmpF32 f) := of_word f .blank 0x06F rfl rfl rfl rfl rfl rfl
theorem fcmpF16 (f : FmtA) : Statement (.fcmpF16 f) := of_word f .blank 0x070 rfl rfl rfl rfl rfl rfl
theorem fcmpBf16 (f : FmtA) : Statement (.fcmpBf16 f) := of_word f .blank 0x071 rfl rfl rfl rfl rfl rfl
theorem fsetmF32 (f : FmtA) : Statement (.fsetmF32 f) := of_word f .blank 0x072 rfl rfl rfl rfl rfl rfl
theorem fsetmF16 (f : FmtA) : Statement (.fsetmF16 f) := of_word f .blank 0x073 rfl rfl rfl rfl rfl rfl
theorem fsetmBf16 (f : FmtA) : Statement (.fsetmBf16 f) := of_word f .blank 0x074 rfl rfl rfl rfl rfl rfl
theorem fclassF32 (f : FmtA) : Statement (.fclassF32 f) := of_word f .blank 0x075 rfl rfl rfl rfl rfl rfl
theorem fclassF16 (f : FmtA) : Statement (.fclassF16 f) := of_word f .blank 0x076 rfl rfl rfl rfl rfl rfl
theorem fclassBf16 (f : FmtA) : Statement (.fclassBf16 f) := of_word f .blank 0x077 rfl rfl rfl rfl rfl rfl
theorem frndF32 (f : FmtA) : Statement (.frndF32 f) := of_word f .blank 0x078 rfl rfl rfl rfl rfl rfl
theorem frndF16 (f : FmtA) : Statement (.frndF16 f) := of_word f .blank 0x079 rfl rfl rfl rfl rfl rfl
theorem frndBf16 (f : FmtA) : Statement (.frndBf16 f) := of_word f .blank 0x07A rfl rfl rfl rfl rfl rfl
theorem fldexpF32 (f : FmtA) : Statement (.fldexpF32 f) := of_word f .blank 0x07B rfl rfl rfl rfl rfl rfl
theorem fcpysF32 (f : FmtA) : Statement (.fcpysF32 f) := of_word f .blank 0x07C rfl rfl rfl rfl rfl rfl
theorem fmed3F32 (f : FmtA) : Statement (.fmed3F32 f) := of_word f .blank 0x07D rfl rfl rfl rfl rfl rfl
theorem fdot2Bf16 (f : FmtA) : Statement (.fdot2Bf16 f) := of_word f .blank 0x07E rfl rfl rfl rfl rfl rfl
theorem pair (x y : Compact) : Statement (.pair x y) := of_none rfl
theorem hadd2F16 (f : FmtA) : Statement (.hadd2F16 f) := of_word f .blank 0x080 rfl rfl rfl rfl rfl rfl
theorem hadd2Bf16 (f : FmtA) : Statement (.hadd2Bf16 f) := of_word f .blank 0x081 rfl rfl rfl rfl rfl rfl
theorem hmul2F16 (f : FmtA) : Statement (.hmul2F16 f) := of_word f .blank 0x082 rfl rfl rfl rfl rfl rfl
theorem hmul2Bf16 (f : FmtA) : Statement (.hmul2Bf16 f) := of_word f .blank 0x083 rfl rfl rfl rfl rfl rfl
theorem hfma2F16 (f : FmtA) : Statement (.hfma2F16 f) := of_word f .blank 0x084 rfl rfl rfl rfl rfl rfl
theorem hfma2Bf16 (f : FmtA) : Statement (.hfma2Bf16 f) := of_word f .blank 0x085 rfl rfl rfl rfl rfl rfl
theorem frcpF32 (f : FmtA) : Statement (.frcpF32 f) := of_word f .blank 0x088 rfl rfl rfl rfl rfl rfl
theorem frsqF32 (f : FmtA) : Statement (.frsqF32 f) := of_word f .blank 0x089 rfl rfl rfl rfl rfl rfl
theorem fsqrtF32 (f : FmtA) : Statement (.fsqrtF32 f) := of_word f .blank 0x08A rfl rfl rfl rfl rfl rfl
theorem fdivF32 (f : FmtA) : Statement (.fdivF32 f) := of_word f .blank 0x08B rfl rfl rfl rfl rfl rfl
theorem fexp2F32 (f : FmtA) : Statement (.fexp2F32 f) := of_word f .blank 0x08C rfl rfl rfl rfl rfl rfl
theorem flog2F32 (f : FmtA) : Statement (.flog2F32 f) := of_word f .blank 0x08D rfl rfl rfl rfl rfl rfl
theorem fsinF32 (f : FmtA) : Statement (.fsinF32 f) := of_word f .blank 0x08E rfl rfl rfl rfl rfl rfl
theorem fcosF32 (f : FmtA) : Statement (.fcosF32 f) := of_word f .blank 0x08F rfl rfl rfl rfl rfl rfl
theorem fexp2F16 (f : FmtA) : Statement (.fexp2F16 f) := of_word f .blank 0x090 rfl rfl rfl rfl rfl rfl
theorem cvtF16F32 (f : FmtA) : Statement (.cvtF16F32 f) := of_word f .blank 0x098 rfl rfl rfl rfl rfl rfl
theorem cvtBf16F32 (f : FmtA) : Statement (.cvtBf16F32 f) := of_word f .blank 0x099 rfl rfl rfl rfl rfl rfl
theorem cvtF32F16 (f : FmtA) : Statement (.cvtF32F16 f) := of_word f .blank 0x09A rfl rfl rfl rfl rfl rfl
theorem cvtF32Bf16 (f : FmtA) : Statement (.cvtF32Bf16 f) := of_word f .blank 0x09B rfl rfl rfl rfl rfl rfl
theorem cvtBf16F16 (f : FmtA) : Statement (.cvtBf16F16 f) := of_word f .blank 0x09C rfl rfl rfl rfl rfl rfl
theorem cvtF16Bf16 (f : FmtA) : Statement (.cvtF16Bf16 f) := of_word f .blank 0x09D rfl rfl rfl rfl rfl rfl
theorem cvtF16x2F32 (f : FmtA) : Statement (.cvtF16x2F32 f) := of_word f .blank 0x09E rfl rfl rfl rfl rfl rfl
theorem cvtBf16x2F32 (f : FmtA) : Statement (.cvtBf16x2F32 f) := of_word f .blank 0x09F rfl rfl rfl rfl rfl rfl
theorem cvtS32F32 (f : FmtA) : Statement (.cvtS32F32 f) := of_word f .blank 0x0A0 rfl rfl rfl rfl rfl rfl
theorem cvtN32F32 (f : FmtA) : Statement (.cvtN32F32 f) := of_word f .blank 0x0A1 rfl rfl rfl rfl rfl rfl
theorem cvtS64F32 (f : FmtA) : Statement (.cvtS64F32 f) := of_word f .blank 0x0A2 rfl rfl rfl rfl rfl rfl
theorem cvtN64F32 (f : FmtA) : Statement (.cvtN64F32 f) := of_word f .blank 0x0A3 rfl rfl rfl rfl rfl rfl
theorem cvtF32S32 (f : FmtA) : Statement (.cvtF32S32 f) := of_word f .blank 0x0A4 rfl rfl rfl rfl rfl rfl
theorem cvtF32N32 (f : FmtA) : Statement (.cvtF32N32 f) := of_word f .blank 0x0A5 rfl rfl rfl rfl rfl rfl
theorem cvtF32S64 (f : FmtA) : Statement (.cvtF32S64 f) := of_word f .blank 0x0A6 rfl rfl rfl rfl rfl rfl
theorem cvtF32N64 (f : FmtA) : Statement (.cvtF32N64 f) := of_word f .blank 0x0A7 rfl rfl rfl rfl rfl rfl
theorem qdecBf16 (f : FmtA) : Statement (.qdecBf16 f) := of_word f .blank 0x0A8 rfl rfl rfl rfl rfl rfl
theorem qdecF32 (f : FmtA) : Statement (.qdecF32 f) := of_word f .blank 0x0A9 rfl rfl rfl rfl rfl rfl
theorem qencBf16 (f : FmtA) : Statement (.qencBf16 f) := of_word f .blank 0x0AA rfl rfl rfl rfl rfl rfl
theorem qencF32 (f : FmtA) : Statement (.qencF32 f) := of_word f .blank 0x0AB rfl rfl rfl rfl rfl rfl
theorem qscl (f : FmtA) : Statement (.qscl f) := of_word f .blank 0x0AC rfl rfl rfl rfl rfl rfl
theorem shflIdx (f : FmtA) : Statement (.shflIdx f) := of_word f .blank 0x0C0 rfl rfl rfl rfl rfl rfl
theorem shflXor (f : FmtA) : Statement (.shflXor f) := of_word f .blank 0x0C1 rfl rfl rfl rfl rfl rfl
theorem shflUp (f : FmtA) : Statement (.shflUp f) := of_word f .blank 0x0C2 rfl rfl rfl rfl rfl rfl
theorem shflDown (f : FmtA) : Statement (.shflDown f) := of_word f .blank 0x0C3 rfl rfl rfl rfl rfl rfl
theorem voteAny (f : FmtA) : Statement (.voteAny f) := of_word f .blank 0x0C4 rfl rfl rfl rfl rfl rfl
theorem voteAll (f : FmtA) : Statement (.voteAll f) := of_word f .blank 0x0C5 rfl rfl rfl rfl rfl rfl
theorem voteBallot (f : FmtA) : Statement (.voteBallot f) := of_word f .blank 0x0C6 rfl rfl rfl rfl rfl rfl
theorem voteEq (f : FmtA) : Statement (.voteEq f) := of_word f .blank 0x0C7 rfl rfl rfl rfl rfl rfl
theorem wredIadd (f : FmtA) : Statement (.wredIadd f) := of_word f .blank 0x0C8 rfl rfl rfl rfl rfl rfl
theorem wredFadd (f : FmtA) : Statement (.wredFadd f) := of_word f .blank 0x0C9 rfl rfl rfl rfl rfl rfl
theorem wredMin (f : FmtA) : Statement (.wredMin f) := of_word f .blank 0x0CA rfl rfl rfl rfl rfl rfl
theorem wredMax (f : FmtA) : Statement (.wredMax f) := of_word f .blank 0x0CB rfl rfl rfl rfl rfl rfl
theorem wredAnd (f : FmtA) : Statement (.wredAnd f) := of_word f .blank 0x0CC rfl rfl rfl rfl rfl rfl
theorem wredOr (f : FmtA) : Statement (.wredOr f) := of_word f .blank 0x0CD rfl rfl rfl rfl rfl rfl
theorem wredXor (f : FmtA) : Statement (.wredXor f) := of_word f .blank 0x0CE rfl rfl rfl rfl rfl rfl
theorem wscanIadd (f : FmtA) : Statement (.wscanIadd f) := of_word f .blank 0x0CF rfl rfl rfl rfl rfl rfl
theorem wscanFadd (f : FmtA) : Statement (.wscanFadd f) := of_word f .blank 0x0D0 rfl rfl rfl rfl rfl rfl
theorem mlop (f : FmtA) : Statement (.mlop f) := of_word f .blank 0x0D1 rfl rfl rfl rfl rfl rfl
theorem ld8 (f : FmtA) (x : Upper) : Statement (.ld8 f x) := of_word f x 0x0E0 rfl rfl rfl rfl rfl rfl
theorem ld16 (f : FmtA) (x : Upper) : Statement (.ld16 f x) := of_word f x 0x0E1 rfl rfl rfl rfl rfl rfl
theorem ld32 (f : FmtA) (x : Upper) : Statement (.ld32 f x) := of_word f x 0x0E2 rfl rfl rfl rfl rfl rfl
theorem ld64 (f : FmtA) (x : Upper) : Statement (.ld64 f x) := of_word f x 0x0E3 rfl rfl rfl rfl rfl rfl
theorem ld128 (f : FmtA) (x : Upper) : Statement (.ld128 f x) := of_word f x 0x0E4 rfl rfl rfl rfl rfl rfl
theorem ldUb (f : FmtA) (x : Upper) : Statement (.ldUb f x) := of_word f x 0x0E5 rfl rfl rfl rfl rfl rfl
theorem st8 (f : FmtA) (x : Upper) : Statement (.st8 f x) := of_word f x 0x0E6 rfl rfl rfl rfl rfl rfl
theorem st16 (f : FmtA) (x : Upper) : Statement (.st16 f x) := of_word f x 0x0E7 rfl rfl rfl rfl rfl rfl
theorem st32 (f : FmtA) (x : Upper) : Statement (.st32 f x) := of_word f x 0x0E8 rfl rfl rfl rfl rfl rfl
theorem st64 (f : FmtA) (x : Upper) : Statement (.st64 f x) := of_word f x 0x0E9 rfl rfl rfl rfl rfl rfl
theorem st128 (f : FmtA) (x : Upper) : Statement (.st128 f x) := of_word f x 0x0EA rfl rfl rfl rfl rfl rfl
theorem stUb (f : FmtA) (x : Upper) : Statement (.stUb f x) := of_word f x 0x0EB rfl rfl rfl rfl rfl rfl
theorem gath32 (f : FmtA) (x : Upper) : Statement (.gath32 f x) := of_word f x 0x0EC rfl rfl rfl rfl rfl rfl
theorem gath64 (f : FmtA) (x : Upper) : Statement (.gath64 f x) := of_word f x 0x0ED rfl rfl rfl rfl rfl rfl
theorem scat32 (f : FmtA) (x : Upper) : Statement (.scat32 f x) := of_word f x 0x0EE rfl rfl rfl rfl rfl rfl
theorem scat64 (f : FmtA) (x : Upper) : Statement (.scat64 f x) := of_word f x 0x0EF rfl rfl rfl rfl rfl rfl
theorem ldw32 (f : FmtA) (x : Upper) : Statement (.ldw32 f x) := of_word f x 0x0F0 rfl rfl rfl rfl rfl rfl
theorem ldw64 (f : FmtA) (x : Upper) : Statement (.ldw64 f x) := of_word f x 0x0F1 rfl rfl rfl rfl rfl rfl
theorem ldt (f : FmtA) (x : Upper) : Statement (.ldt f x) := of_word f x 0x0F2 rfl rfl rfl rfl rfl rfl
theorem stt (f : FmtA) (x : Upper) : Statement (.stt f x) := of_word f x 0x0F3 rfl rfl rfl rfl rfl rfl
theorem pref (f : FmtA) (x : Upper) : Statement (.pref f x) := of_word f x 0x0F4 rfl rfl rfl rfl rfl rfl
theorem prefL2 (f : FmtA) (x : Upper) : Statement (.prefL2 f x) := of_word f x 0x0F5 rfl rfl rfl rfl rfl rfl
theorem cctlInv (f : FmtA) (x : Upper) : Statement (.cctlInv f x) := of_word f x 0x0F6 rfl rfl rfl rfl rfl rfl
theorem cctlWb (f : FmtA) (x : Upper) : Statement (.cctlWb f x) := of_word f x 0x0F7 rfl rfl rfl rfl rfl rfl
theorem cctlWbinv (f : FmtA) (x : Upper) : Statement (.cctlWbinv f x) := of_word f x 0x0F8 rfl rfl rfl rfl rfl rfl
theorem carve (f : FmtA) (x : Upper) : Statement (.carve f x) := of_word f x 0x0F9 rfl rfl rfl rfl rfl rfl
theorem stzLine (f : FmtA) (x : Upper) : Statement (.stzLine f x) := of_word f x 0x0FA rfl rfl rfl rfl rfl rfl
theorem ldtTr (f : FmtA) (x : Upper) : Statement (.ldtTr f x) := of_word f x 0x0FB rfl rfl rfl rfl rfl rfl
theorem tlbq (f : FmtA) (x : Upper) : Statement (.tlbq f x) := of_word f x 0x0FC rfl rfl rfl rfl rfl rfl
theorem prefRange (f : FmtA) (x : Upper) : Statement (.prefRange f x) := of_word f x 0x0FD rfl rfl rfl rfl rfl rfl
theorem ldw128 (f : FmtA) (x : Upper) : Statement (.ldw128 f x) := of_word f x 0x0FE rfl rfl rfl rfl rfl rfl
theorem stMsk (f : FmtA) (x : Upper) : Statement (.stMsk f x) := of_word f x 0x0FF rfl rfl rfl rfl rfl rfl
theorem ldBc (f : FmtA) (x : Upper) : Statement (.ldBc f x) := of_word f x 0x100 rfl rfl rfl rfl rfl rfl
theorem stzSec (f : FmtA) (x : Upper) : Statement (.stzSec f x) := of_word f x 0x101 rfl rfl rfl rfl rfl rfl
theorem atomAdd (f : FmtA) (x : Upper) : Statement (.atomAdd f x) := of_word f x 0x110 rfl rfl rfl rfl rfl rfl
theorem atomMin (f : FmtA) (x : Upper) : Statement (.atomMin f x) := of_word f x 0x111 rfl rfl rfl rfl rfl rfl
theorem atomMax (f : FmtA) (x : Upper) : Statement (.atomMax f x) := of_word f x 0x112 rfl rfl rfl rfl rfl rfl
theorem atomAnd (f : FmtA) (x : Upper) : Statement (.atomAnd f x) := of_word f x 0x113 rfl rfl rfl rfl rfl rfl
theorem atomOr (f : FmtA) (x : Upper) : Statement (.atomOr f x) := of_word f x 0x114 rfl rfl rfl rfl rfl rfl
theorem atomXor (f : FmtA) (x : Upper) : Statement (.atomXor f x) := of_word f x 0x115 rfl rfl rfl rfl rfl rfl
theorem atomXchg (f : FmtA) (x : Upper) : Statement (.atomXchg f x) := of_word f x 0x116 rfl rfl rfl rfl rfl rfl
theorem atomCas (f : FmtA) (x : Upper) : Statement (.atomCas f x) := of_word f x 0x117 rfl rfl rfl rfl rfl rfl
theorem atomAdd64 (f : FmtA) (x : Upper) : Statement (.atomAdd64 f x) := of_word f x 0x118 rfl rfl rfl rfl rfl rfl
theorem atomMin64 (f : FmtA) (x : Upper) : Statement (.atomMin64 f x) := of_word f x 0x119 rfl rfl rfl rfl rfl rfl
theorem atomMax64 (f : FmtA) (x : Upper) : Statement (.atomMax64 f x) := of_word f x 0x11A rfl rfl rfl rfl rfl rfl
theorem atomAnd64 (f : FmtA) (x : Upper) : Statement (.atomAnd64 f x) := of_word f x 0x11B rfl rfl rfl rfl rfl rfl
theorem atomOr64 (f : FmtA) (x : Upper) : Statement (.atomOr64 f x) := of_word f x 0x11C rfl rfl rfl rfl rfl rfl
theorem atomXor64 (f : FmtA) (x : Upper) : Statement (.atomXor64 f x) := of_word f x 0x11D rfl rfl rfl rfl rfl rfl
theorem atomXchg64 (f : FmtA) (x : Upper) : Statement (.atomXchg64 f x) := of_word f x 0x11E rfl rfl rfl rfl rfl rfl
theorem atomCas64 (f : FmtA) (x : Upper) : Statement (.atomCas64 f x) := of_word f x 0x11F rfl rfl rfl rfl rfl rfl
theorem atomFaddF32 (f : FmtA) (x : Upper) : Statement (.atomFaddF32 f x) := of_word f x 0x120 rfl rfl rfl rfl rfl rfl
theorem atomFminF32 (f : FmtA) (x : Upper) : Statement (.atomFminF32 f x) := of_word f x 0x121 rfl rfl rfl rfl rfl rfl
theorem atomFmaxF32 (f : FmtA) (x : Upper) : Statement (.atomFmaxF32 f x) := of_word f x 0x122 rfl rfl rfl rfl rfl rfl
theorem atomInc (f : FmtA) (x : Upper) : Statement (.atomInc f x) := of_word f x 0x123 rfl rfl rfl rfl rfl rfl
theorem atomDec (f : FmtA) (x : Upper) : Statement (.atomDec f x) := of_word f x 0x124 rfl rfl rfl rfl rfl rfl
theorem atomCas128 (f : FmtA) (x : Upper) : Statement (.atomCas128 f x) := of_word f x 0x125 rfl rfl rfl rfl rfl rfl
theorem redAdd (f : FmtA) (x : Upper) : Statement (.redAdd f x) := of_word f x 0x126 rfl rfl rfl rfl rfl rfl
theorem redFaddF32 (f : FmtA) (x : Upper) : Statement (.redFaddF32 f x) := of_word f x 0x127 rfl rfl rfl rfl rfl rfl
theorem fence (f : FmtA) (x : Upper) : Statement (.fence f x) := of_word f x 0x128 rfl rfl rfl rfl rfl rfl
theorem barWg (f : FmtA) (x : Upper) : Statement (.barWg f x) := of_word f x 0x129 rfl rfl rfl rfl rfl rfl
theorem barArrive (f : FmtA) (x : Upper) : Statement (.barArrive f x) := of_word f x 0x12A rfl rfl rfl rfl rfl rfl
theorem barWait (f : FmtA) (x : Upper) : Statement (.barWait f x) := of_word f x 0x12B rfl rfl rfl rfl rfl rfl
theorem gbar (f : FmtA) (x : Upper) : Statement (.gbar f x) := of_word f x 0x12C rfl rfl rfl rfl rfl rfl
theorem gbarArrive (f : FmtA) (x : Upper) : Statement (.gbarArrive f x) := of_word f x 0x12D rfl rfl rfl rfl rfl rfl
theorem gbarWait (f : FmtA) (x : Upper) : Statement (.gbarWait f x) := of_word f x 0x12E rfl rfl rfl rfl rfl rfl
theorem gcoll (f : FmtA) (x : Upper) : Statement (.gcoll f x) := of_word f x 0x12F rfl rfl rfl rfl rfl rfl
theorem chopen (f : FmtA) (x : Upper) : Statement (.chopen f x) := of_word f x 0x130 rfl rfl rfl rfl rfl rfl
theorem chclose (f : FmtA) (x : Upper) : Statement (.chclose f x) := of_word f x 0x131 rfl rfl rfl rfl rfl rfl
theorem waitc (f : FmtA) (x : Upper) : Statement (.waitc f x) := of_word f x 0x132 rfl rfl rfl rfl rfl rfl
theorem redAdd64 (f : FmtA) (x : Upper) : Statement (.redAdd64 f x) := of_word f x 0x133 rfl rfl rfl rfl rfl rfl
theorem chdef (f : FmtA) (x : Upper) : Statement (.chdef f x) := of_word f x 0x140 rfl rfl rfl rfl rfl rfl
theorem chrst (f : FmtA) (x : Upper) : Statement (.chrst f x) := of_word f x 0x141 rfl rfl rfl rfl rfl rfl
theorem chprodRsv (f : FmtA) (x : Upper) : Statement (.chprodRsv f x) :=
  of_mode f x 0x142 (x.ext.toNat / 16 % 16 = 0)
    (fun w => by simp only [Instr.wellFormed, Bool.and_eq_true, decide_eq_true_eq] at w; exact w.2) rfl rfl rfl rfl rfl (fun h =>
    (show buildInstr 0x142 f x = if x.ext.toNat / 16 % 16 = 0 then .chprodRsv f x else .chprodPub f x from rfl).trans (if_pos (by omega)))
theorem chprodPub (f : FmtA) (x : Upper) : Statement (.chprodPub f x) :=
  of_mode f x 0x142 (x.ext.toNat / 16 % 16 = 1)
    (fun w => by simp only [Instr.wellFormed, Bool.and_eq_true, decide_eq_true_eq] at w; exact w.2) rfl rfl rfl rfl rfl (fun h =>
    (show buildInstr 0x142 f x = if x.ext.toNat / 16 % 16 = 0 then .chprodRsv f x else .chprodPub f x from rfl).trans (if_neg (by omega)))
theorem chcons (f : FmtA) (x : Upper) : Statement (.chcons f x) := of_word f x 0x143 rfl rfl rfl rfl rfl rfl
theorem chwp (f : FmtA) (x : Upper) : Statement (.chwp f x) := of_word f x 0x144 rfl rfl rfl rfl rfl rfl
theorem chwaitData (f : FmtA) (x : Upper) : Statement (.chwaitData f x) :=
  of_mode f x 0x145 (x.ext.toNat / 16 % 16 = 0)
    (fun w => by simp only [Instr.wellFormed, Bool.and_eq_true, decide_eq_true_eq] at w; exact w.2) rfl rfl rfl rfl rfl (fun h =>
    (show buildInstr 0x145 f x = if x.ext.toNat / 16 % 16 = 0 then .chwaitData f x else .chwaitRoom f x from rfl).trans (if_pos (by omega)))
theorem chwaitRoom (f : FmtA) (x : Upper) : Statement (.chwaitRoom f x) :=
  of_mode f x 0x145 (x.ext.toNat / 16 % 16 = 1)
    (fun w => by simp only [Instr.wellFormed, Bool.and_eq_true, decide_eq_true_eq] at w; exact w.2) rfl rfl rfl rfl rfl (fun h =>
    (show buildInstr 0x145 f x = if x.ext.toNat / 16 % 16 = 0 then .chwaitData f x else .chwaitRoom f x from rfl).trans (if_neg (by omega)))
theorem copyG2s (f : FmtA) (x : Upper) : Statement (.copyG2s f x) := of_word f x 0x146 rfl rfl rfl rfl rfl rfl
theorem copyS2g (f : FmtA) (x : Upper) : Statement (.copyS2g f x) := of_word f x 0x147 rfl rfl rfl rfl rfl rfl
theorem copyG2g (f : FmtA) (x : Upper) : Statement (.copyG2g f x) := of_word f x 0x148 rfl rfl rfl rfl rfl rfl
theorem copyTile (f : FmtA) (x : Upper) : Statement (.copyTile f x) := of_word f x 0x149 rfl rfl rfl rfl rfl rfl
theorem bxform (f : FmtA) (x : Upper) : Statement (.bxform f x) := of_word f x 0x14A rfl rfl rfl rfl rfl rfl
theorem copyFill (f : FmtA) (x : Upper) : Statement (.copyFill f x) := of_word f x 0x14B rfl rfl rfl rfl rfl rfl
theorem wld (f : FmtA) (x : Upper) : Statement (.wld f x) := of_word f x 0x150 rfl rfl rfl rfl rfl rfl
theorem wswap (f : FmtA) (x : Upper) : Statement (.wswap f x) := of_word f x 0x151 rfl rfl rfl rfl rfl rfl
theorem mpass (f : FmtA) (x : Upper) : Statement (.mpass f x) := of_word f x 0x152 rfl rfl rfl rfl rfl rfl
theorem mpassb (f : FmtA) (x : Upper) : Statement (.mpassb f x) := of_word f x 0x153 rfl rfl rfl rfl rfl rfl
theorem mspass (f : FmtA) (x : Upper) : Statement (.mspass f x) := of_word f x 0x154 rfl rfl rfl rfl rfl rfl
theorem macz (f : FmtA) (x : Upper) : Statement (.macz f x) := of_word f x 0x155 rfl rfl rfl rfl rfl rfl
theorem macr (f : FmtA) (x : Upper) : Statement (.macr f x) := of_word f x 0x156 rfl rfl rfl rfl rfl rfl
theorem mepf (f : FmtA) (x : Upper) : Statement (.mepf f x) := of_word f x 0x157 rfl rfl rfl rfl rfl rfl
theorem wscl (f : FmtA) (x : Upper) : Statement (.wscl f x) := of_word f x 0x158 rfl rfl rfl rfl rfl rfl
theorem msel (f : FmtA) (x : Upper) : Statement (.msel f x) := of_word f x 0x159 rfl rfl rfl rfl rfl rfl
theorem mflushWait (f : FmtA) (x : Upper) : Statement (.mflushWait f x) :=
  of_mode f x 0x15A (x.ext.toNat / 8 % 8 = 0)
    (fun w => by simp only [Instr.wellFormed, Bool.and_eq_true, decide_eq_true_eq] at w; exact w.2) rfl rfl rfl rfl rfl (fun h =>
    (show buildInstr 0x15A f x = if x.ext.toNat / 8 % 8 = 0 then .mflushWait f x else .mflushClr f x from rfl).trans (if_pos (by omega)))
theorem mflushClr (f : FmtA) (x : Upper) : Statement (.mflushClr f x) :=
  of_mode f x 0x15A (x.ext.toNat / 8 % 8 = 1)
    (fun w => by simp only [Instr.wellFormed, Bool.and_eq_true, decide_eq_true_eq] at w; exact w.2) rfl rfl rfl rfl rfl (fun h =>
    (show buildInstr 0x15A f x = if x.ext.toNat / 8 % 8 = 0 then .mflushWait f x else .mflushClr f x from rfl).trans (if_neg (by omega)))
theorem mstat (f : FmtA) (x : Upper) : Statement (.mstat f x) := of_word f x 0x15B rfl rfl rfl rfl rfl rfl
theorem trace (f : FmtA) (x : Upper) : Statement (.trace f x) := of_word f x 0x160 rfl rfl rfl rfl rfl rfl
theorem traceCont (f : FmtA) (x : Upper) : Statement (.traceCont f x) := of_word f x 0x161 rfl rfl rfl rfl rfl rfl
theorem traceOcc (f : FmtA) (x : Upper) : Statement (.traceOcc f x) := of_word f x 0x162 rfl rfl rfl rfl rfl rfl
theorem traceEnd (f : FmtA) (x : Upper) : Statement (.traceEnd f x) := of_word f x 0x163 rfl rfl rfl rfl rfl rfl
theorem rayq (f : FmtA) (x : Upper) : Statement (.rayq f x) := of_word f x 0x164 rfl rfl rfl rfl rfl rfl
theorem rayc (f : FmtA) (x : Upper) : Statement (.rayc f x) := of_word f x 0x165 rfl rfl rfl rfl rfl rfl
theorem rayxf (f : FmtA) (x : Upper) : Statement (.rayxf f x) := of_word f x 0x166 rfl rfl rfl rfl rfl rfl
theorem ltwalk (f : FmtA) (x : Upper) : Statement (.ltwalk f x) := of_word f x 0x167 rfl rfl rfl rfl rfl rfl
theorem ltpdf (f : FmtA) (x : Upper) : Statement (.ltpdf f x) := of_word f x 0x168 rfl rfl rfl rfl rfl rfl
theorem sobol (f : FmtA) (x : Upper) : Statement (.sobol f x) := of_word f x 0x169 rfl rfl rfl rfl rfl rfl
theorem rnd (f : FmtA) (x : Upper) : Statement (.rnd f x) := of_word f x 0x16A rfl rfl rfl rfl rfl rfl
theorem rndf (f : FmtA) (x : Upper) : Statement (.rndf f x) := of_word f x 0x16B rfl rfl rfl rfl rfl rfl
theorem rsvld (f : FmtA) (x : Upper) : Statement (.rsvld f x) := of_word f x 0x170 rfl rfl rfl rfl rfl rfl
theorem rsvst (f : FmtA) (x : Upper) : Statement (.rsvst f x) := of_word f x 0x171 rfl rfl rfl rfl rfl rfl
theorem rsvupd (f : FmtA) (x : Upper) : Statement (.rsvupd f x) := of_word f x 0x172 rfl rfl rfl rfl rfl rfl
theorem rsvmrg (f : FmtA) (x : Upper) : Statement (.rsvmrg f x) := of_word f x 0x173 rfl rfl rfl rfl rfl rfl
theorem rsvnrm (f : FmtA) (x : Upper) : Statement (.rsvnrm f x) := of_word f x 0x174 rfl rfl rfl rfl rfl rfl
theorem rsvclr (f : FmtA) (x : Upper) : Statement (.rsvclr f x) := of_word f x 0x175 rfl rfl rfl rfl rfl rfl
theorem rsvhalo (f : FmtA) (x : Upper) : Statement (.rsvhalo f x) := of_word f x 0x176 rfl rfl rfl rfl rfl rfl
theorem rsvswap (f : FmtA) (x : Upper) : Statement (.rsvswap f x) := of_word f x 0x177 rfl rfl rfl rfl rfl rfl
theorem rsvq (f : FmtA) (x : Upper) : Statement (.rsvq f x) := of_word f x 0x178 rfl rfl rfl rfl rfl rfl
theorem rsvcfg (f : FmtA) (x : Upper) : Statement (.rsvcfg f x) := of_word f x 0x179 rfl rfl rfl rfl rfl rfl
theorem ruse (f : FmtA) (x : Upper) : Statement (.ruse f x) := of_word f x 0x17A rfl rfl rfl rfl rfl rfl
theorem calret (f : FmtA) (x : Upper) : Statement (.calret f x) := of_word f x 0x17B rfl rfl rfl rfl rfl rfl
theorem rcq (f : FmtA) (x : Upper) : Statement (.rcq f x) := of_word f x 0x180 rfl rfl rfl rfl rfl rfl
theorem rcqTrain (f : FmtA) (x : Upper) : Statement (.rcqTrain f x) := of_word f x 0x181 rfl rfl rfl rfl rfl rfl
theorem rcgen (f : FmtA) (x : Upper) : Statement (.rcgen f x) := of_word f x 0x182 rfl rfl rfl rfl rfl rfl
theorem rcwld (f : FmtA) (x : Upper) : Statement (.rcwld f x) := of_word f x 0x183 rfl rfl rfl rfl rfl rfl
theorem rcwst (f : FmtA) (x : Upper) : Statement (.rcwst f x) := of_word f x 0x184 rfl rfl rfl rfl rfl rfl
theorem rcstepStat (f : FmtA) (x : Upper) : Statement (.rcstepStat f x) :=
  of_mode f x 0x185 (x.ext.toNat % 8 = 0)
    (fun w => by simp only [Instr.wellFormed, Bool.and_eq_true, decide_eq_true_eq] at w; exact w.2) rfl rfl rfl rfl rfl (fun h =>
    (show buildInstr 0x185 f x = if x.ext.toNat / 1 % 8 = 0 then .rcstepStat f x else if x.ext.toNat / 1 % 8 = 1 then .rcstepWait f x else .rcstepClr f x from rfl).trans (if_pos (by omega)))
theorem rcstepWait (f : FmtA) (x : Upper) : Statement (.rcstepWait f x) :=
  of_mode f x 0x185 (x.ext.toNat % 8 = 1)
    (fun w => by simp only [Instr.wellFormed, Bool.and_eq_true, decide_eq_true_eq] at w; exact w.2) rfl rfl rfl rfl rfl (fun h =>
    (show buildInstr 0x185 f x = if x.ext.toNat / 1 % 8 = 0 then .rcstepStat f x else if x.ext.toNat / 1 % 8 = 1 then .rcstepWait f x else .rcstepClr f x from rfl).trans ((if_neg (by omega)).trans (if_pos (by omega))))
theorem rcstepClr (f : FmtA) (x : Upper) : Statement (.rcstepClr f x) :=
  of_mode f x 0x185 (x.ext.toNat % 8 = 2)
    (fun w => by simp only [Instr.wellFormed, Bool.and_eq_true, decide_eq_true_eq] at w; exact w.2) rfl rfl rfl rfl rfl (fun h =>
    (show buildInstr 0x185 f x = if x.ext.toNat / 1 % 8 = 0 then .rcstepStat f x else if x.ext.toNat / 1 % 8 = 1 then .rcstepWait f x else .rcstepClr f x from rfl).trans ((if_neg (by omega)).trans (if_neg (by omega))))
theorem launch (f : FmtA) (x : Upper) : Statement (.launch f x) := of_word f x 0x188 rfl rfl rfl rfl rfl rfl
theorem launchDep (f : FmtA) (x : Upper) : Statement (.launchDep f x) := of_word f x 0x189 rfl rfl rfl rfl rfl rfl
theorem nodeEnq (f : FmtA) (x : Upper) : Statement (.nodeEnq f x) := of_word f x 0x18A rfl rfl rfl rfl rfl rfl
theorem nodeEnqn (f : FmtA) (x : Upper) : Statement (.nodeEnqn f x) := of_word f x 0x18B rfl rfl rfl rfl rfl rfl
theorem nodeRec (f : FmtA) (x : Upper) : Statement (.nodeRec f x) := of_word f x 0x18C rfl rfl rfl rfl rfl rfl
theorem evwait (f : FmtA) (x : Upper) : Statement (.evwait f x) := of_word f x 0x18D rfl rfl rfl rfl rfl rfl
theorem evsig (f : FmtA) (x : Upper) : Statement (.evsig f x) := of_word f x 0x18E rfl rfl rfl rfl rfl rfl
theorem graphStart (f : FmtA) (x : Upper) : Statement (.graphStart f x) := of_word f x 0x18F rfl rfl rfl rfl rfl rfl
theorem graphWait (f : FmtA) (x : Upper) : Statement (.graphWait f x) := of_word f x 0x190 rfl rfl rfl rfl rfl rfl
theorem lrq (f : FmtA) (x : Upper) : Statement (.lrq f x) := of_word f x 0x191 rfl rfl rfl rfl rfl rfl
theorem lcancel (f : FmtA) (x : Upper) : Statement (.lcancel f x) := of_word f x 0x192 rfl rfl rfl rfl rfl rfl
theorem lquery (f : FmtA) (x : Upper) : Statement (.lquery f x) := of_word f x 0x193 rfl rfl rfl rfl rfl rfl
theorem wgid (f : FmtA) (x : Upper) : Statement (.wgid f x) := of_word f x 0x194 rfl rfl rfl rfl rfl rfl
theorem graphAbort (f : FmtA) (x : Upper) : Statement (.graphAbort f x) := of_word f x 0x195 rfl rfl rfl rfl rfl rfl
theorem trap (f : FmtA) : Statement (.trap f) := of_word f .blank 0x1A0 rfl rfl rfl rfl rfl rfl
theorem bkpt (f : FmtA) : Statement (.bkpt f) := of_word f .blank 0x1A1 rfl rfl rfl rfl rfl rfl
theorem reth (f : FmtA) : Statement (.reth f) := of_word f .blank 0x1A2 rfl rfl rfl rfl rfl rfl
theorem thrd (f : FmtA) : Statement (.thrd f) := of_word f .blank 0x1A3 rfl rfl rfl rfl rfl rfl
theorem thwr (f : FmtA) : Statement (.thwr f) := of_word f .blank 0x1A4 rfl rfl rfl rfl rfl rfl
theorem fstk (f : FmtA) : Statement (.fstk f) := of_word f .blank 0x1A5 rfl rfl rfl rfl rfl rfl
theorem fstkclr (f : FmtA) : Statement (.fstkclr f) := of_word f .blank 0x1A6 rfl rfl rfl rfl rfl rfl
theorem asrt (f : FmtA) : Statement (.asrt f) := of_word f .blank 0x1A7 rfl rfl rfl rfl rfl rfl
theorem pmcrd (f : FmtA) : Statement (.pmcrd f) := of_word f .blank 0x1A8 rfl rfl rfl rfl rfl rfl
theorem pmccfg (f : FmtA) : Statement (.pmccfg f) := of_word f .blank 0x1A9 rfl rfl rfl rfl rfl rfl
theorem pmcclr (f : FmtA) : Statement (.pmcclr f) := of_word f .blank 0x1AA rfl rfl rfl rfl rfl rfl
theorem dbgmsg (f : FmtA) : Statement (.dbgmsg f) := of_word f .blank 0x1AB rfl rfl rfl rfl rfl rfl
theorem ctxend (f : FmtA) : Statement (.ctxend f) := of_word f .blank 0x1AC rfl rfl rfl rfl rfl rfl
theorem hcall (f : FmtA) : Statement (.hcall f) := of_word f .blank 0x1AD rfl rfl rfl rfl rfl rfl
theorem hcallw (f : FmtA) : Statement (.hcallw f) := of_word f .blank 0x1AE rfl rfl rfl rfl rfl rfl
theorem errq (f : FmtA) : Statement (.errq f) := of_word f .blank 0x1AF rfl rfl rfl rfl rfl rfl
theorem prchk (f : FmtA) : Statement (.prchk f) := of_word f .blank 0x1B0 rfl rfl rfl rfl rfl rfl
theorem mcrd (f : FmtA) : Statement (.mcrd f) := of_word f .blank 0x1B1 rfl rfl rfl rfl rfl rfl
theorem dhop (f : FmtA) (x : Upper) : Statement (.dhop f x) := of_word f x 0x1C0 rfl rfl rfl rfl rfl rfl
theorem dcnt (f : FmtA) (x : Upper) : Statement (.dcnt f x) := of_word f x 0x1C1 rfl rfl rfl rfl rfl rfl
theorem dfreq (f : FmtA) (x : Upper) : Statement (.dfreq f x) := of_word f x 0x1C2 rfl rfl rfl rfl rfl rfl
theorem dtime (f : FmtA) (x : Upper) : Statement (.dtime f x) := of_word f x 0x1C3 rfl rfl rfl rfl rfl rfl
theorem dlink (f : FmtA) (x : Upper) : Statement (.dlink f x) := of_word f x 0x1C4 rfl rfl rfl rfl rfl rfl
theorem dquad (f : FmtA) (x : Upper) : Statement (.dquad f x) := of_word f x 0x1C5 rfl rfl rfl rfl rfl rfl
theorem illegalInstruction (reason : Nat) : Statement (.illegalInstruction reason) := of_none rfl
theorem clauseStart (h : Header) : Statement (.clauseStart h) := of_none rfl
theorem warpExchange (out into : Nat) : Statement (.warpExchange out into) := of_none rfl
theorem starvationPromotion (warp : Nat) : Statement (.starvationPromotion warp) := of_none rfl
theorem runaheadEntry (warp : Nat) : Statement (.runaheadEntry warp) := of_none rfl
theorem runaheadExit (warp : Nat) : Statement (.runaheadExit warp) := of_none rfl
theorem sleepWake (warp : Nat) : Statement (.sleepWake warp) := of_none rfl
theorem loadDataArrival (op : Nat) : Statement (.loadDataArrival op) := of_none rfl
theorem storeReachesPoint (op : Nat) : Statement (.storeReachesPoint op) := of_none rfl
theorem writebackUncorrectableError (die line location : Nat) : Statement (.writebackUncorrectableError die line location) := of_none rfl
theorem translationWalkComplete (op : Nat) : Statement (.translationWalkComplete op) := of_none rfl
theorem faultQueueHeadReread : Statement .faultQueueHeadReread := of_none rfl
theorem firmwareFaultSettlement : Statement .firmwareFaultSettlement := of_none rfl
theorem settleFaultRecord (context index : Nat) (resume : Bool) (pteAddr : Nat) (pte : Option Word64) : Statement (.settleFaultRecord context index resume pteAddr pte) := of_none rfl
theorem warpResourceRelease (warp : Nat) : Statement (.warpResourceRelease warp) := of_none rfl
theorem groupBarrierArrival (wg slot : Nat) : Statement (.groupBarrierArrival wg slot) := of_none rfl
theorem promotionRequest (op : Nat) : Statement (.promotionRequest op) := of_none rfl
theorem chopenTakeEffect (warp : Nat) : Statement (.chopenTakeEffect warp) := of_none rfl
theorem channelReservationFire (wg ch : Nat) : Statement (.channelReservationFire wg ch) := of_none rfl
theorem channelInputFire (wg ch : Nat) : Statement (.channelInputFire wg ch) := of_none rfl
theorem chwaitConditionMet (op : Nat) : Statement (.chwaitConditionMet op) := of_none rfl
theorem copyChunkStart (op : Nat) : Statement (.copyChunkStart op) := of_none rfl
theorem copyOperationComplete (op : Nat) : Statement (.copyOperationComplete op) := of_none rfl
theorem carveApply (warp : Nat) : Statement (.carveApply warp) := of_none rfl
theorem bxformStart (op : Nat) : Statement (.bxformStart op) := of_none rfl
theorem matrixOperationStart (op : Nat) : Statement (.matrixOperationStart op) := of_none rfl
theorem matrixOperationComplete (op : Nat) : Statement (.matrixOperationComplete op) := of_none rfl
theorem rayOperationComplete (op : Nat) : Statement (.rayOperationComplete op) := of_none rfl
theorem reservoirOperationComplete (op : Nat) : Statement (.reservoirOperationComplete op) := of_none rfl
theorem rsvcfgInstall (op : Nat) : Statement (.rsvcfgInstall op) := of_none rfl
theorem loessOperationStart (die : Nat) : Statement (.loessOperationStart die) := of_none rfl
theorem loessQuadComplete (die : Nat) : Statement (.loessQuadComplete die) := of_none rfl
theorem loessEvaluationBatch (die : Nat) : Statement (.loessEvaluationBatch die) := of_none rfl
theorem loessRayComplete (die : Nat) : Statement (.loessRayComplete die) := of_none rfl
theorem radianceQueryComplete (op : Nat) : Statement (.radianceQueryComplete op) := of_none rfl
theorem sampleArrival (op : Nat) : Statement (.sampleArrival op) := of_none rfl
theorem generationChange : Statement .generationChange := of_none rfl
theorem yarrowStepStart : Statement .yarrowStepStart := of_none rfl
theorem yarrowStepComplete : Statement .yarrowStepComplete := of_none rfl
theorem rcwldApply (op : Nat) : Statement (.rcwldApply op) := of_none rfl
theorem launchAcceptance (host : Option (Nat × Word64)) : Statement (.launchAcceptance host) := of_none rfl
theorem workgroupBatchDispatch (launch die : Nat) : Statement (.workgroupBatchDispatch launch die) := of_none rfl
theorem workgroupCompletionEvent (wg : Nat) : Statement (.workgroupCompletionEvent wg) := of_none rfl
theorem nodeRecordArrival (op : Nat) : Statement (.nodeRecordArrival op) := of_none rfl
theorem nodeWorkgroupStart (graph node : Nat) : Statement (.nodeWorkgroupStart graph node) := of_none rfl
theorem graphDrain (graph : Nat) : Statement (.graphDrain graph) := of_none rfl
theorem preemptContext (context : Nat) : Statement (.preemptContext context) := of_none rfl
theorem enginePreemptAck (unit : Nat) : Statement (.enginePreemptAck unit) := of_none rfl
theorem preemptionComplete : Statement .preemptionComplete := of_none rfl
theorem restoreContext (context : Nat) : Statement (.restoreContext context) := of_none rfl
theorem debugHaltRequest (warp : Nat) : Statement (.debugHaltRequest warp) := of_none rfl
theorem debugResume (warp : Nat) (single : Bool) : Statement (.debugResume warp single) := of_none rfl
theorem shootDown (context base size : Nat) : Statement (.shootDown context base size) := of_none rfl
theorem shootDownDrainAck (unit : Nat) : Statement (.shootDownDrainAck unit) := of_none rfl
theorem shootDownConfirm : Statement .shootDownConfirm := of_none rfl
theorem migrationCopy (die : Nat) (va frame size : Nat) : Statement (.migrationCopy die va frame size) := of_none rfl
theorem migrationRecopy : Statement .migrationRecopy := of_none rfl
theorem migrationRemap : Statement .migrationRemap := of_none rfl
theorem migrationComplete : Statement .migrationComplete := of_none rfl
theorem balloonReclaim (die : Nat) : Statement (.balloonReclaim die) := of_none rfl
theorem compressedWriteHold (die page chunks : Nat) : Statement (.compressedWriteHold die page chunks) := of_none rfl
theorem compressedHoldRelease (die : Nat) : Statement (.compressedHoldRelease die) := of_none rfl
theorem outOfSpaceTimeout (die : Nat) : Statement (.outOfSpaceTimeout die) := of_none rfl
theorem powerEvaluation : Statement .powerEvaluation := of_none rfl
theorem relockEnd (die : Nat) : Statement (.relockEnd die) := of_none rfl
theorem thermalShutdown : Statement .thermalShutdown := of_none rfl
theorem linkPacketDelivery (link : Nat) : Statement (.linkPacketDelivery link) := of_none rfl
theorem linkRetrain (link : Nat) : Statement (.linkRetrain link) := of_none rfl
theorem linkRetrainComplete (link modules : Nat) : Statement (.linkRetrainComplete link modules) := of_none rfl
theorem hostMemRead (die offset n : Nat) : Statement (.hostMemRead die offset n) := of_none rfl
theorem hostMemWrite (die offset : Nat) (data : List Byte) : Statement (.hostMemWrite die offset data) := of_none rfl
theorem hostSnoop (addr : Nat) : Statement (.hostSnoop addr) := of_none rfl
theorem deviceReset : Statement .deviceReset := of_none rfl
theorem start (image : List Byte) : Statement (.start image) := of_none rfl
theorem clrf : Statement .clrf := of_none rfl
theorem bootStartTimeout : Statement .bootStartTimeout := of_none rfl
theorem firmwareRunning : Statement .firmwareRunning := of_none rfl
theorem firmwareStartTimeout : Statement .firmwareStartTimeout := of_none rfl
theorem barRegisterWrite (place : BarPlace) (value : Word) : Statement (.barRegisterWrite place value) := of_none rfl
theorem declareRanges (coherent : List (Nat × Nat)) (peers : List (Nat × Nat)) : Statement (.declareRanges coherent peers) := of_none rfl
theorem setPowerLimits (cap : Nat) (steps : List (Nat × Nat)) : Statement (.setPowerLimits cap steps) := of_none rfl
theorem createContext (offset : Nat) : Statement (.createContext offset) := of_none rfl
theorem destroyContext (context : Nat) : Statement (.destroyContext context) := of_none rfl
theorem spdmRequest (request : List Byte) : Statement (.spdmRequest request) := of_none rfl
theorem hostMailboxTake (context : Nat) : Statement (.hostMailboxTake context) := of_none rfl
theorem hostMailboxReply (context call : Nat) (reply : Word64) : Statement (.hostMailboxReply context call reply) := of_none rfl
theorem thermalStep (die tenths : Nat) : Statement (.thermalStep die tenths) := of_none rfl
theorem firmwareStartFailure (reason : Nat) : Statement (.firmwareStartFailure reason) := of_none rfl
theorem powerRemoval : Statement .powerRemoval := of_none rfl
theorem debuggerAttach (context : Nat) (attach : Bool) (breakpoints : List Nat) : Statement (.debuggerAttach context attach breakpoints) := of_none rfl
theorem corePowerGating (core : Nat) (gate : Bool) : Statement (.corePowerGating core gate) := of_none rfl
theorem balloonPageOffer (die frame : Nat) : Statement (.balloonPageOffer die frame) := of_none rfl

end Sys2Proof.Laws.Rebuild
end

