-- ==== Sys2Proof/Tests/Slice0.lean ====
section
/-! SUPPORT. Tests: words written out from the encodings of the specification, its worked results, ill-formed terms, and a state
that meets the hypotheses of each statement. -/

namespace Sys2Proof.Tests

-- Each theorem is checked before the next is read: a thread for each would take more memory than they need.
set_option Elab.async false

open Machine Slice0

/-! ### Terms -/

/-- The fields of a word with nothing set. -/
def f0 : FmtA :=
  { cond := .always, fsel := false, wcc := false, neg := false, md := 0, dst := 0, sa := .lane 0, sb := .lane 0, sc := .lane 0
    lit := none }
def x0 : Upper := Upper.blank
/-- A half of a PAIR word with nothing set. -/
def c0 : Compact := { neg := false, rm := 0, sc := 0, kb := false, sb := 0, sa := 0, dst := 0, cop := 0 }

/-! ### Well-formed and ill-formed terms (R40, R48 to R57) -/

theorem wf_accepts :
    (Instr.iadd { f0 with dst := 3, sa := .lane 2 }).wellFormed = true
    ∧ (Instr.iadd { f0 with dst := 3, sa := .litS, lit := some 7 }).wellFormed = true
    ∧ (Instr.iadd64 { f0 with dst := 4, sa := .lane 2 }).wellFormed = true
    ∧ (Instr.ld64 { f0 with dst := 254, sa := .uni 62 } x0).wellFormed = true
    ∧ (Instr.pair { c0 with dst := 8, sa := 1 } { c0 with dst := 9, sa := 2 }).wellFormed = true
    ∧ (Instr.clauseStart { wait := 0xFFF, flag0 := some 11, flag1 := none, count := 63, yield := false }).wellFormed = true
    ∧ (Instr.nop .w128).wellFormed = true := by decide +kernel

/-- A field that the entry does not define (R47): reason 0x04. -/
theorem wf_refuses_undefined_field : (Instr.exit { f0 with dst := 1 }).wellFormed = false
    ∧ (Instr.iadd { f0 with md := 0x80 }).wellFormed = false := by decide +kernel
/-- An operand kind that the entry does not accept: reason 0x05. -/
theorem wf_refuses_operand_kind : (Instr.bra { f0 with sa := .lane 1 }).wellFormed = false := by decide +kernel
/-- A literal that no operand selects, and one selected by a word without it: reason 0x06. -/
theorem wf_refuses_literal : (Instr.iadd { f0 with lit := some 1 }).wellFormed = false
    ∧ (Instr.iadd { f0 with sa := .litS }).wellFormed = false := by decide +kernel
/-- A register group that does not start at a multiple of its size: reason 0x07. -/
theorem wf_refuses_register_group : (Instr.iadd64 { f0 with dst := 5, sa := .lane 2 }).wellFormed = false
    ∧ (Instr.iadd64 { f0 with dst := 4, sa := .lane 3 }).wellFormed = false := by decide +kernel
/-- FSEL of a word that is not long-latency: reason 0x0B. -/
theorem wf_refuses_flag : (Instr.iadd { f0 with fsel := true }).wellFormed = false := by decide +kernel
/-- PAIR halves that break R52, and a half with a literal past the uniform file: reasons 0x0C and 0x05. -/
theorem wf_refuses_pair : (Instr.pair { c0 with dst := 8, sa := 1 } { c0 with dst := 8, sa := 2 }).wellFormed = false
    ∧ (Instr.pair { c0 with dst := 8, sa := 1 } { c0 with dst := 9, sa := 5 }).wellFormed = false
    ∧ (Instr.pair { c0 with dst := 8, cop := 0x10, sa := 1 } { c0 with dst := 9, cop := 0x11, sa := 2 }).wellFormed = false
    ∧ (Instr.pair { c0 with dst := 8, cop := 0x18, sa := 1 } { c0 with dst := 9, sa := 2 }).wellFormed = false
    ∧ (Instr.pair { c0 with dst := 8, sa := 1, kb := true, sb := 64 } { c0 with dst := 9, sa := 2 }).wellFormed = false := by
  decide +kernel
/-- An upper field with a value that the class does not accept, and a literal in a 128-bit word: reasons 0x0D and 0x03. -/
theorem wf_refuses_upper : (Instr.ld32 { f0 with sa := .uni 2 } { x0 with space := 5 }).wellFormed = false
    ∧ (Instr.st32 { f0 with sa := .uni 2 } { x0 with ord := 1 }).wellFormed = false
    ∧ (Instr.ld32 { f0 with sa := .uni 2, lit := some 1 } x0).wellFormed = false := by decide +kernel
/-- Headers with a count or a flag out of range: reasons 0x08 and 0x0B. -/
theorem wf_refuses_header :
    (Instr.clauseStart { wait := 0, flag0 := none, flag1 := none, count := 0, yield := false }).wellFormed = false
    ∧ (Instr.clauseStart { wait := 0, flag0 := none, flag1 := none, count := 64, yield := false }).wellFormed = false
    ∧ (Instr.clauseStart { wait := 0, flag0 := some 12, flag1 := none, count := 1, yield := false }).wellFormed = false
    ∧ (Instr.clauseStart { wait := 0, flag0 := none, flag1 := some 14, count := 1, yield := false }).wellFormed = false := by
  decide +kernel

/-! ### Words from the specification's encodings -/

theorem test_decode_header : decodeTableWord 64 0x017C8027
    = some (.clauseStart { wait := 0x009, flag0 := some 2, flag1 := none, count := 5, yield := false }) := by decide +kernel
theorem test_decode_bra : decodeTableWord 64 0x0018100000380008
    = some (.bra { f0 with cond := .lt, sa := .imm 7 }) := by decide +kernel
theorem test_decode_exit : decodeTableWord 64 0x28 = some (.exit f0) := by decide +kernel
theorem test_decode_srd : decodeTableWord 64 0x44 = some (.srd f0) := by decide +kernel
theorem test_decode_iadd_sat : decodeTableWord 64 0x0120480100005080
    = some (.iadd { f0 with wcc := true, md := 1, dst := 10, sa := .uni 0, sb := .imm 32 }) := by decide +kernel
theorem test_decode_ffma : decodeTableWord 64 0x0000003810081998
    = some (.ffmaF32 { f0 with dst := 3, sa := .lane 1, sb := .lane 2, sc := .lane 7 }) := by decide +kernel
theorem test_decode_ffma_rdn_neg : decodeTableWord 64 0x0280003810083198
    = some (.ffmaF32 { f0 with md := 2, neg := true, dst := 6, sa := .lane 1, sb := .lane 2, sc := .lane 7 }) := by decide +kernel
theorem test_decode_wred_fadd : decodeTableWord 64 0x0000000000081324
    = some (.wredFadd { f0 with dst := 2, sa := .lane 1 }) := by decide +kernel
theorem test_decode_gath : decodeTableWord 128 (0x10000800182043B2 + 2 ^ 64 * 0x0000000000080000)
    = some (.gath32 { f0 with md := 0x10, dst := 8, sa := .uni 4, sb := .lane 3 } { x0 with offset := 0x100 }) := by decide +kernel
theorem test_decode_qenc : decodeTableWord 64 0x1800000028204AAC
    = some (.qencF32 { f0 with md := 0x18, dst := 9, sa := .lane 4, sb := .lane 5 }) := by decide +kernel
theorem test_decode_shfl : decodeTableWord 64 0x0200400008081B0C
    = some (.shflDown { f0 with md := 2, dst := 3, sa := .lane 1, sb := .imm 1 }) := by decide +kernel
theorem test_decode_ld32 : decodeTableWord 128 (0x000000000020438A + 2 ^ 64 * 0x0000000000020011)
    = some (.ld32 { f0 with dst := 8, sa := .lane 4 } { x0 with ord := 1, scope := 4, offset := 0x40 }) := by decide +kernel
theorem test_decode_atom_add : decodeTableWord 128 (0x0000480008103442 + 2 ^ 64 * 0x8015)
    = some (.atomAdd { f0 with dst := 6, sa := .uni 2, sb := .imm 1 } { x0 with ord := 1, scope := 5, offset := 0x10 }) := by decide +kernel
theorem test_decode_waitc : decodeTableWord 128 (0x4CA + 2 ^ 64 * 0x0000800000000000)
    = some (.waitc f0 { x0 with ext := 0x20 }) := by decide +kernel
theorem test_decode_gbar : decodeTableWord 128 (0x4B2 + 2 ^ 64 * 0x000000800000001F)
    = some (.gbar f0 { x0 with ord := 3, scope := 7, gsel := 1 }) := by decide +kernel
theorem test_decode_copy : decodeTableWord 128 (0x000088300010051A + 2 ^ 64 * 0x0000000000080200)
    = some (.copyG2s { f0 with sa := .uni 2, sc := .uni 6 } { x0 with offset := 0x100, space := 2 }) := by decide +kernel
theorem test_decode_trace : decodeTableWord 128 0x0000A01020408582
    = some (.trace { f0 with dst := 16, sa := .lane 8, sb := .uni 4, sc := .uni 2 } x0) := by decide +kernel
theorem test_decode_rsvupd : decodeTableWord 128 (0x00000000403015CA + 2 ^ 64 * 0x300)
    = some (.rsvupd { f0 with dst := 2, sa := .lane 6, sb := .lane 8 } { x0 with space := 3 }) := by decide +kernel
theorem test_decode_rsvmrg : decodeTableWord 128 (0x0000006050301DCE + 2 ^ 64 * 0x0000100000000300)
    = some (.rsvmrg { f0 with dst := 3, sa := .lane 6, sb := .lane 10, sc := .lane 12 } { x0 with space := 3, ext := 4 }) := by decide +kernel
theorem test_decode_rcq_train : decodeTableWord 128 0x000000C0A1008606
    = some (.rcqTrain { f0 with dst := 16, sa := .lane 32, sb := .lane 20, sc := .lane 24 } x0) := by decide +kernel
theorem test_decode_rcgen : decodeTableWord 128 0x260A
    = some (.rcgen { f0 with dst := 4 } x0) := by decide +kernel
theorem test_decode_rcstep : decodeTableWord 128 (0x4616 + 2 ^ 64 * 0x0000040000000000)
    = some (.rcstepWait { f0 with dst := 8 } { x0 with ext := 1 }) := by decide +kernel
theorem test_decode_launch_dep : decodeTableWord 128 0x0000280028104626
    = some (.launchDep { f0 with dst := 8, sa := .uni 2, sb := .uni 5 } x0) := by decide +kernel
theorem test_decode_trap : decodeTableWord 64 0x0000100000280680
    = some (.trap { f0 with sa := .imm 5 }) := by decide +kernel
theorem test_decode_thrd : decodeTableWord 64 0x030000000000368C
    = some (.thrd { f0 with md := 3, dst := 6 }) := by decide +kernel
theorem test_decode_thwr : decodeTableWord 64 0x0000080000300690
    = some (.thwr { f0 with sa := .uni 6 }) := by decide +kernel
theorem test_decode_reth : decodeTableWord 64 0x0100080000200688
    = some (.reth { f0 with md := 1, sa := .uni 4 }) := by decide +kernel
theorem test_decode_dtime : decodeTableWord 128 0x000010000008470E
    = some (.dtime { f0 with dst := 8, sa := .imm 1 } x0) := by decide +kernel
theorem test_decode_dhop : decodeTableWord 128 0x0000480018101F02
    = some (.dhop { f0 with dst := 3, sa := .uni 2, sb := .imm 3 } x0) := by decide +kernel

/-! ### States for the witnesses -/

/-- A machine about to issue a word: one warp of 32 lanes in a clause, a trap handler, memory mapped, a header at 0x10018. -/
def s0 : State := State.reset.withFetchWord 64 4
/-- The run that it is in. -/
def r0 : Run := { hdr := 0x10008, pc := 0x10010, left := 1, flag0 := none, flag1 := none, mask := 0xFFFFFFFF }
/-- A word whose condition holds in no lane of s0. -/
def fNone : FmtA := { f0 with cond := .eq }
/-- A word whose SA is 0x10018, where a header stands, or another address. -/
def fTo (a : Word) : FmtA := { f0 with sa := .litZ, lit := some a }
/-- A transfer by 2 units from the header at 0x10008, or by n. -/
def fBy (n : BitVec 8) : FmtA := { f0 with sa := .imm n, sb := .litS, lit := some 0xFFFFFFFF }
/-- s0 inside its trap handler, with the lanes of the interrupted program in the shadow. -/
def sTrap : State :=
  onWarp s0 fun w => { w with inHandler := true, shadow := some { lanes := s0.w.lanes, rcb := [], sync := {} } }
/-- s0 with a debugger attached. -/
def sDbg : State := { s0 with ctx := s0.ctx.map fun k => { k with debugger := true } }

theorem run_r0 : Issuing s0 r0 := by unfold Issuing; decide +kernel
/-- The context that runs. -/
def k0 : Ctx :=
  { num := 1, thv := 0x10008, fqBase := 0x100000, headAt := 0x200000, wroots := [0x1000, 0, 0, 0], nextNum := 2
    launches := [{ num := 1, lrec := placeRec, started := [0] }] }
theorem ctx_s0 : s0.ctx = some k0 := rfl
theorem can_trap : CanTrap s0 0x10008 := ⟨by decide +kernel, by decide +kernel, by decide, k0, rfl, rfl⟩

/-- What holds of the 32 lanes of a set holds of every lane in it. -/
theorem all_lanes {m : LaneMask} {p : Nat → Prop} (h : ∀ l < 32, inSet m l = true → p l) : ∀ l, inSet m l = true → p l := by
  intro l hl
  by_cases hb : l < 32
  · exact h l hb hl
  · simp [inSet, BitVec.getLsbD_of_ge m l (by omega)] at hl

/-! ### Witnesses: control and system words -/

theorem witness_words_without_effect : s0.execSet fNone.cond = 0 ∧ zeroLanes (fBy 1) s0 = 0
    ∧ sDbg.execSet f0.cond ≠ 0 ∧ debuggerHere sDbg = true := by decide +kernel
theorem witness_transfers_to_headers : ∀ o ∈ transfers, ∃ f ∈ [fBy 2, fTo 0x10018], o.Fetches f s0 ∧ o.take f s0 ≠ 0
    ∧ ∀ l < 32, inSet (o.take f s0) l = true → o.HeaderAt f s0 l = true := by
  unfold Transfer.Fetches; decide +kernel
theorem witness_transfer_to_no_header : ∀ o ∈ transfers, ∃ f ∈ [fBy 1, fTo 0x10010], o.Fetches f s0
    ∧ ∃ l < 32, inSet (o.take f s0) l = true ∧ o.HeaderAt f s0 l = false := by
  unfold Transfer.Fetches; decide +kernel
theorem witness_host_call : s0.mailboxFull = false := by decide +kernel
theorem witness_trap_words : s0.execSet f0.cond ≠ 0 ∧ debuggerHere s0 = false ∧ zeroLanes f0 s0 ≠ 0 ∧ s0.w.run = some r0 := by
  decide +kernel
theorem witness_return : sTrap.execSet f0.cond ≠ 0 ∧ sTrap.w.inHandler = true
    ∧ ∃ h, sTrap.w.shadow = some h ∧ CleanReturn sTrap h :=
  ⟨by decide +kernel, by decide +kernel, { lanes := s0.w.lanes, rcb := [], sync := {} }, rfl, by unfold CleanReturn; decide +kernel⟩
theorem witness_ctxend : s0.execSet f0.cond ≠ 0 ∧ s0.ctx = some k0 := by decide +kernel
theorem witness_exit : PhaseAgrees s0 ∧ Alone s0 := by unfold PhaseAgrees Alone; decide +kernel
theorem witness_barriers : s0.w.ra = none := by decide +kernel

/-! ### Witnesses: float and cross-lane words -/

/-- s0 with the trap enables of a launch record that enables every flag. -/
def sTen : State := { s0 with g := { s0.g with lrec := s0.g.lrec ||| (0x1F#2048 <<< 144) } }
/-- SA a literal. -/
def fLit (a : Word) : FmtA := { f0 with sa := .litS, lit := some a }

theorem witness_float_words : ∀ o ∈ floatArithmetic ++ conversions, NoFloatTrap s0 (raised f0 s0 (o.flags f0 s0)) := by
  unfold NoFloatTrap; decide +kernel
/-- A signalling NaN of each format raises NV. -/
theorem witness_enabled_flag : sTen.w.ra = none
    ∧ (∀ o ∈ [(floatArithmetic ++ conversions)[0]?, floatArithmetic[6]?, floatArithmetic[18]?, floatArithmetic[21]?,
        floatArithmetic[31]?, conversions[0]?, conversions[8]?, conversions[11]?],
      ∃ p, o = some p ∧ raised (fLit 0x7F800001) sTen (p.flags (fLit 0x7F800001) sTen) &&& sTen.ten ≠ 0) := by
  refine ⟨by decide +kernel, ?_⟩
  simp only [List.forall_mem_cons, List.not_mem_nil, false_implies, implies_true, and_true]
  refine ⟨⟨_, rfl, ?_⟩, ⟨_, rfl, ?_⟩, ⟨_, rfl, ?_⟩, ⟨_, rfl, ?_⟩, ⟨_, rfl, ?_⟩, ⟨_, rfl, ?_⟩, ⟨_, rfl, ?_⟩, ⟨_, rfl, ?_⟩⟩ <;>
    decide +kernel
theorem can_trap_ten : CanTrap sTen 0x10008 := ⟨by decide +kernel, by decide +kernel, by decide, k0, rfl, rfl⟩
theorem witness_compares : ∀ c ∈ compareWords, NoFloatTrap s0 (raised f0 s0 (laneNv c.2.2 f0 s0)) := by
  unfold NoFloatTrap; decide +kernel
/-- Halves of an addition and of a move. -/
def cX : Compact := { neg := false, rm := 0, sc := 0, kb := false, sb := 2, sa := 1, dst := 8, cop := 0 }
def cY : Compact := { neg := false, rm := 0, sc := 0, kb := true, sb := 3, sa := 3, dst := 9, cop := 5 }
theorem witness_pair :
    NoFloatTrap s0 (unionFlags s0.m0 fun l => (halfResult cX s0 l).fl ||| (halfResult cY s0 l).fl) := by
  unfold NoFloatTrap; decide +kernel
theorem witness_nan : ∀ p ∈ [(f32, 0x7F800001), (f16, 0x7C01), (bf16, 0x7F81)],
    isNan p.1 p.2 = true ∧ isSnan p.1 p.2 = true ∧ isNan p.1 0 = false := by decide +kernel
theorem witness_shuffles : (5 : BitVec 8).toNat % 8 ≤ 5 ∧ s0.execSet f0.cond ≠ 0 := by decide +kernel
theorem witness_reductions : f0.md.getLsbD 3 = false ∧ s0.execSet f0.cond ≠ 0 ∧ s0.ten = 0
    ∧ (BitVec.ofNat 8 8).getLsbD 3 = true := by decide +kernel

/-! ### Witnesses: memory and atomics -/

/-- An upper half with an address in scratch. -/
def xScr : Upper := { x0 with space := 1 }
/-- s0 with a translation of the first megabyte of window 0 in the core's TLB, and one whose operand log is full. -/
def tlb0 : TlbEnt := { ctx := 1, page := 0, size := 2 ^ 20, frame := 0, leaf := 0xFFF, addr := 0 }
def sTlb : State := { s0 with c := { s0.c with tlb := [tlb0] } }
def sLogFull : State := { s0 with c := { s0.c with log := (List.range 96).map fun k => (k, 100 + k) } }

theorem no_carve : NoCarve s0 := by unfold NoCarve; decide +kernel
theorem witness_access_scratch : s0.execSet f0.cond ≠ 0 ∧ s0.freeLog = some 0 ∧ ∀ a ∈ accessWords,
    EachPart (a.op f0 xScr s0 0) (PartOk s0 (a.op f0 xScr s0 0))
    ∧ ∀ l ∈ (a.op f0 xScr s0 0).askers, ∀ p ∈ (a.op f0 xScr s0 0).parts l, (a.op f0 xScr s0 0).x.space ≠ 0 := by
  unfold EachPart PartOk; decide +kernel
theorem witness_access_global : sTlb.execSet f0.cond ≠ 0 ∧ sTlb.freeLog = some 0 ∧ ∀ a ∈ accessWords,
    EachPart (a.op f0 x0 sTlb 0) (PartOk sTlb (a.op f0 x0 sTlb 0))
    ∧ ∀ l ∈ (a.op f0 x0 sTlb 0).askers, ∀ p ∈ (a.op f0 x0 sTlb 0).parts l,
        sTlb.heldAt p.1 (a.op f0 x0 sTlb 0).kind = false ∧ sTlb.tlbHit sTlb.g.die sTlb.g.core p.1 = some tlb0
        ∧ tlb0.serves (a.op f0 x0 sTlb 0).kind = true ∧ tlb0.late = false
        ∧ (a.op f0 x0 sTlb 0).kind.permitted tlb0.leaf = true := by
  unfold EachPart PartOk; decide +kernel
theorem witness_at_hand : ∀ a ∈ accessWords, AtHand sTlb (a.op f0 x0 sTlb 0) ∧ AtHand s0 (a.op f0 xScr s0 0) := by
  intro a ha
  have h := (witness_access_global.2.2 a ha).2
  have hx : (a.op f0 xScr s0 0).x.space ≠ 0 := by
    show xScr.space ≠ 0
    decide
  exact ⟨⟨fun l hl p hp => .inr ⟨tlb0, (h l hl p hp)⟩, .inr (.inr ⟨tlb0, fun l hl p hp => (h l hl p hp).2.1⟩)⟩,
    fun _ _ _ _ => .inl hx, .inl hx⟩
theorem witness_access_walk : ∀ a ∈ accessWords, ∃ f ∈ [f0, { f0 with sb := .imm 1 }],
    EachPart (a.op f x0 s0 0) (PartOk s0 (a.op f x0 s0 0)) ∧ EachPart (a.op f x0 s0 0) (Uncached s0 (a.op f x0 s0 0))
    ∧ ∃ l ∈ (a.op f x0 s0 0).askers, (a.op f x0 s0 0).parts l ≠ [] := by
  unfold EachPart PartOk Uncached; decide +kernel
theorem witness_log_full : sLogFull.execSet f0.cond ≠ 0 ∧ sLogFull.freeLog = none := by decide +kernel
theorem witness_scratch_faults : ∀ a ∈ accessWords, onceCode a.code = false → a.code ≠ 0xFB →
    ∃ l ∈ lanesOf (s0.execSet f0.cond),
      scratchBad s0 (a.op { fLit 0x10000 with sb := .imm 1 } xScr s0 0) l = true := by
  decide +kernel
/-- A load of s0 that waits for its translation, performed next or with its translations at hand. -/
def opOf (code : Nat) (x : Upper) (st : OpState) : Op := { s0.mkOp code f0 x [2, 1, 1] s0.m0 with st := st, id := 7 }
def sPend (o : Op) : State := onWarp { s0 with nextId := 8 } fun w => { w with pend := [o] }
theorem witness_walk : let o := opOf 0xE2 x0 .queued
    (sPend o).findOp o.id = some o ∧ o ∈ (sPend o).w.pend ∧ (sPend o).focus o.warp = some (sPend o) ∧ o.st = .queued
      ∧ (sPend o).onLinks o.id = false
      ∧ orderOnly o.code = false ∧ (∀ p ∈ (sPend o).w.pend, orderOnly p.code = false)
      ∧ ((sPend o).checkOp o true).wait = false ∧ ((sPend o).checkOp o true).faults = [] := by decide +kernel
/-- A .racq load whose line another core has noted in its release table. -/
def oRacq : Op := { opOf 0xE2 { x0 with racq := true, ord := 1 } .running with xl := [{ page := 0, size := 2 ^ 20, frame := 0, leaf := 0xFFF, own := 0, status := 0 }] }
def sRacq : State := (sPend oRacq).updDie 0 fun d => { d with rel := [{ slice := 0, line := 0, core := 5, ctx := 1, scope := 1 }] }
theorem witness_promotion : sRacq.findOp oRacq.id = some oRacq ∧ sRacq.focus oRacq.warp = some sRacq ∧ oRacq.x.racq = true
    ∧ oRacq.st = .running
    ∧ ∃ l ∈ oRacq.askers, ∃ p ∈ oRacq.parts l, (sRacq.racqEntry sRacq.g.die sRacq.g.core (oRacq.loc p.1)).isSome = true := by
  decide +kernel
theorem witness_performs : ∀ code ∈ [0xE2, 0xF0, 0x110, 0xE8, 0x126, 0xF7], let o := opOf code xScr .running
    (sPend o).focusOp o.id = some (o, sPend o) ∧ Performs (sPend o) o ∧ o.e ≠ 0 ∧ (sPend o).tagHeld o = false
      ∧ ((sPend o).chunksShort o).1 = 0 ∧ HubDone (sPend o) o := by unfold Performs HubDone; decide +kernel
/-- An atomic on a word of host memory, which the hub has still to read, and with the word read. -/
def oHub (aux : List Nat) : Op :=
  { opOf 0x110 { x0 with scope := 5 } .running with
    aux := aux, xl := [{ page := 0, size := 2 ^ 20, frame := 0, leaf := 0xFFF, own := 0xC, status := 0 }] }
theorem witness_hub_atomic : (∀ k ∈ [[], [0, 1, 0]], (sPend (oHub k)).focusOp (oHub k).id = some (oHub k, sPend (oHub k))
      ∧ Performs (sPend (oHub k)) (oHub k) ∧ atomCode (oHub k).code = true)
    ∧ ¬ HubDone (sPend (oHub [])) (oHub []) ∧ HubDone (sPend (oHub [0, 1, 0])) (oHub [0, 1, 0]) := by
  unfold Performs HubDone; decide +kernel
theorem witness_performs_kinds : loadCode 0xE2 = true ∧ loadCode 0xF0 = true ∧ atomCode 0x110 = true ∧ storeCode 0xE8 = true
    ∧ redCode 0x126 = true ∧ cctlCode 0xF7 = true ∧ uniformLoad (opOf 0xF0 xScr .running) = true := by decide +kernel
theorem witness_own_writes : 0 < s0.guestWays 0 ∧ s0.phys 0 < s0.dies.length ∧ HoldsDirty (s0.l1Line 0 0 0) 0
    ∧ HoldsDirty (s0.guestLine 0 0) 0 := by
  have h : s0.l1Line 0 0 0 = none ∧ s0.guestLine 0 0 = none := by decide +kernel
  refine ⟨by decide +kernel, by decide +kernel, ?_, ?_⟩ <;> intro x hx <;> simp [h] at hx

/-! ### Witnesses: synchronisation, engines, channels and the hub -/

/-- s0 with half of its lanes in the run, one that holds lanes at another kind of barrier, and one with a copy under way. -/
def sHalf : State := onWarp s0 fun w => { w with run := some { r0 with mask := 0xFFFF } }
def sHeld : State := onWarp sHalf fun w => { w with sync := { hold := 0x10000, kind := .gbarWait, bnum := 3 } }
def sBusy : State := onWarp s0 fun w =>
  { w with outs := [{ id := 9, flag := none, cls := some .copy, done := false, vdst := [], wdst := [] }] }
theorem witness_hold : ∀ h ∈ holdForms, ∃ s ∈ [sHalf, sBusy], s.execSet f0.cond ≠ 0 ∧ h.Agrees x0 s.w.sync
    ∧ h.StillWaits f0 x0 s := by
  unfold HoldForm.Agrees HoldForm.StillWaits; decide +kernel
theorem witness_hold_disagrees : CanTrap sHeld 0x10008 ∧ sHeld.execSet f0.cond ≠ 0
    ∧ ∀ h ∈ holdForms, ¬ h.Agrees x0 sHeld.w.sync := by
  refine ⟨⟨by decide +kernel, by decide +kernel, by decide, k0, rfl, rfl⟩, by decide +kernel, ?_⟩
  unfold HoldForm.Agrees; decide +kernel
/-- EXT with an expected count of 2 beside barrier 0. -/
def xTwo : Upper := { x0 with ext := 2 * 16 }
theorem witness_barrier_phase : s0.w.sync = {} ∧ s0.w.liveLanes &&& ~~~(s0.execSet f0.cond) = 0 ∧ s0.w.wg = s0.g.id ∧ s0.w.idx < 32
    ∧ s0.w.pend = [] ∧ s0.w.parked = [] ∧ s0.writesHeld = false ∧ s0.execSet f0.cond ≠ 0
    ∧ s0.phaseDone { arr := s0.w.bit, set := true, exp := 0 } = true
    ∧ s0.phaseDone { arr := s0.w.bit, set := true, exp := extCount xTwo } = false
    ∧ (s0.g.bars.get {} 0).set = false
    ∧ ∀ k ∈ [HoldKind.barWg, .barWait, .gbar, .gcoll], ∃ h ∈ holdForms, h.kind = k := by decide +kernel
/-- s0 with a channel that holds a reservation to publish, and with an access before the word. -/
def cPub : Chan := { dfn := true, lsz := 0, base := 0, pp := 16, outs := [{ op := 5, warp := 1, p := 0, n := 16, fired := true, byPub := true }] }
def xCh : Upper := { x0 with ext := 16 }
def sPub : State := s0.setChan (chOf xCh) cPub
theorem witness_order_words : (sPub.g.bars.get {} 0).arr &&& sPub.w.bit = 0 ∧ (sPub.g.bars.get {} 0).set = false
    ∧ (sPub.g.bars.get {} 16).arr &&& sPub.w.bit = 0
    ∧ (sPub.chan (chOf xCh)).dfn = true ∧ sPub.w.pubs (chOf xCh) < (unpublished sPub (chOf xCh)).length
    ∧ sPub.execSet f0.cond ≠ 0 := by decide +kernel
theorem witness_order_ready : Drained sPub ∧ ∀ o ∈ orderForms, o.Ready x0 sPub := by unfold Drained OrderForm.Ready; decide +kernel
/-- A store to scratch stands before the word, and ORD releases. -/
def sScrPend : State := onWarp s0 fun w => { w with pend := [opOf 0xE8 xScr .running] }
theorem witness_order_waits : Drained sScrPend ∧ ∀ o ∈ orderForms, ¬ o.Ready { x0 with ord := 2 } sScrPend := by
  unfold Drained OrderForm.Ready; decide +kernel
/-- An arrival with ORD 0 passes the warp's store. -/
theorem witness_order_passes : ∀ o ∈ orderForms, o.code ∈ [0x12A, 0x12D] → o.Ready x0 sScrPend := by
  unfold OrderForm.Ready; decide +kernel

/-! ### Witnesses: engines, channels and the hub -/

/-- s0 with a matrix parameter block in u0 to u7 (one row, eight segments), a RUSE block in u16 to u31 (a region of 2 by 2), a
channel of 2,048 bytes, and an image of 8 by 8 pixels in two layers. -/
def sEng : State :=
  let s1 : State := { s0 with
    w := { s0.w with u := [(3, 0x10008), (6, 1), (17, 0x20002), (18, 0x10010)] }
    ctx := some { k0 with rsvDesc := 0x400000E007 } }
  s1.setChan 0 { dfn := true, lsz := 3, base := 0 }
/-- Operands: the matrix block and one group of columns, the RUSE block, and a length of 4 bytes. -/
def fBlk : FmtA := { f0 with sa := .uni 0, sb := .imm 0, sc := .imm 4 }
def fRuse : FmtA := { f0 with sa := .uni 16 }
def fLen : FmtA := { f0 with sb := .zero, sa := .zero, sc := .imm 4 }
def xNc : Upper := { x0 with ext := 64, space := 3 }
theorem witness_engine_words : ∀ a ∈ engineWords, ∃ q ∈ [(fLen, x0), (fBlk, xNc), (fRuse, x0)],
    sEng.execSet q.1.cond ≠ 0 ∧ a.trap q.1 q.2 sEng = none ∧ ¬ a.Full sEng ∧ a.Clean q.1 q.2 sEng
    ∧ sEng.phys sEng.g.die < sEng.dies.length ∧ sEng.freeLog = some 0 := by
  intro a ha
  fin_cases ha <;> dsimp only [EngineWord.Full, EngineWord.Clean] <;> decide +kernel
/-- A machine whose queues are full, and one whose operand log is. -/
def oAt (code id : Nat) : Op := { s0.mkOp code f0 x0 [0, 0, 0] s0.m0 with id := id }
def sFull : State :=
  let q (n : Nat) : List Op := (List.range n).map fun i => oAt 0x150 (100 + i)
  let s1 : State := { sEng with c := { sEng.c with copyq := q 16, mtxq := q 16, rayq := q 16, rsvq := q 16 } }
  s1.updDie 0 fun d => { d with loessQ := q 8, radq := q 32 }
def sNoLog : State := { sEng with c := { sEng.c with log := (List.range 96).map fun k => (k, 100 + k) } }
theorem witness_engine_queues_full : ∀ a ∈ engineWords, ∃ q ∈ [(fLen, x0), (fBlk, xNc), (fRuse, x0)],
    sFull.execSet q.1.cond ≠ 0 ∧ a.trap q.1 q.2 sFull = none ∧ a.Full sFull := by
  intro a ha
  fin_cases ha <;> dsimp only [EngineWord.Full] <;> decide +kernel
theorem witness_engine_log_full : sNoLog.freeLog = none ∧ ∀ a ∈ [copyWords[0]?, rayWords[0]?], ∃ b, a = some b
    ∧ b.trap fLen x0 sNoLog = none ∧ ¬ b.Full sNoLog ∧ b.log x0 = true := by
  refine ⟨by decide +kernel, ?_⟩
  simp only [List.forall_mem_cons, List.not_mem_nil, false_implies, implies_true, and_true]
  refine ⟨⟨_, rfl, ?_⟩, ⟨_, rfl, ?_⟩⟩ <;> dsimp only [EngineWord.Full] <;> decide +kernel
/-- A copy from an address that is no multiple of 4, and a weight load from one that is no multiple of 16. -/
theorem witness_engine_fault : sEng.freeLog.isSome = true ∧
    (∃ a ∈ copyWords, ∃ e, a.trap { fLen with sa := .litS, lit := some 2 } x0 sEng = none
      ∧ a.fault { fLen with sa := .litS, lit := some 2 } x0 sEng = some e)
    ∧ ∃ a ∈ mtxWords, ∃ e, a.trap { fBlk with sa := .litS, lit := some 8 } { xNc with space := 0 } sEng = none
      ∧ a.fault { fBlk with sa := .litS, lit := some 8 } { xNc with space := 0 } sEng = some e := by
  refine ⟨by decide +kernel, ⟨_, List.mem_cons_self, (3, 0, 2), ?_⟩, ⟨_, List.mem_cons_self, (3, 0, 8), ?_⟩⟩ <;> decide +kernel
theorem witness_engine_trap : (∃ a ∈ copyWords, a.trap f0 { x0 with space := 2 } s0 = some (8, 0x40))
    ∧ (∃ a ∈ mtxWords, a.trap f0 x0 s0 = some (9, 0x54)) ∧ ∃ a ∈ rsvWords, a.trap f0 x0 s0 = some (10, 0x63) := by
  refine ⟨⟨_, List.mem_cons_self, by decide +kernel⟩, ⟨_, List.mem_cons_self, by decide +kernel⟩,
    ⟨rsvWords.getLast (by decide +kernel), List.getLast_mem _, by decide +kernel⟩⟩
/-- Another workgroup on the core. -/
def sTwo : State := { s0 with gs := [{ id := 9, launch := 1, lrec := placeRec }] }
theorem witness_bad_parameters : (s0.chan (chOf x0)).dfn = false ∧ ¬ DefFits { f0 with sb := .imm 1 } s0 ∧ s0.g.node = none
    ∧ (∃ g ∈ sTwo.gs, g.id ≠ 0 ∧ g.id ≠ sTwo.g.id ∧ g.die = sTwo.g.die ∧ g.core = sTwo.g.core)
    ∧ sTwo.w.run = some r0 ∧ sTwo.execSet f0.cond ≠ 0 := by unfold DefFits; decide +kernel
/-- The micro-core of Loess. -/
def sMicro : State := { s0 with c := { s0.c with num := microCore } }
theorem witness_calret : sMicro.w.run = some r0 ∧ sMicro.c.num = microCore ∧ s0.c.num ≠ microCore := by decide +kernel
theorem witness_channel_words : sEng.execSet f0.cond ≠ 0 ∧ NoWaits sEng ∧ sEng.w.wg = sEng.g.id
    ∧ DefFits { f0 with sa := .zero, sb := .zero } sEng ∧ DefFits { f0 with sa := .zero, sb := .litS, lit := some 65536 } sEng
    ∧ Idle sEng 0 ∧ Idle sEng 5 ∧ (sEng.chan 0).dfn = true
    ∧ CountFits { f0 with sb := .imm 4 } x0 sEng ∧ CountFits { f0 with sb := .litS, lit := some 2048 } x0 sEng := by
  unfold NoWaits DefFits Idle CountFits; decide +kernel
/-- A die that relocks. -/
def sRelock : State := s0.updDie 0 fun d => { d with relock := some 5 }
theorem witness_words_that_wait : s0.coreShared = false ∧ (min (max (saNat { f0 with sa := .imm 16 } s0) 2) 16 ≠ s0.c.ways)
    ∧ min (max (saNat { f0 with sa := .imm 4 } s0) 2) 16 = s0.c.ways
    ∧ saNat { f0 with sa := .zero } sRelock < sRelock.ndie ∧ (sRelock.die 0).relock.isSome = true
    ∧ s0.ndie ≤ saNat { f0 with sa := .imm 4 } s0 ∧ (s0.die 0).relock = none ∧ s0.routeHeld s0.g.die 0 = false := by decide +kernel
/-- A wait on the running launch, and one on a number that was never issued. -/
def waitOn (code : Nat) (n : BitVec 8) : Op := s0.mkOp code { f0 with sa := .imm n, sb := .zero } x0 [1, 1, 0] s0.m0
theorem witness_hub_waits : (s0.ctx.bind fun k => k.waitEnd (waitOn 0x18D 1)) = none
    ∧ (s0.ctx.bind fun k => k.waitEnd (waitOn 0x18D 77)).isSome = true
    ∧ (s0.ctx.bind fun k => k.waitEnd (waitOn 0x190 77)).isSome = true := by decide +kernel
/-- s0 as a workgroup of a node whose records have 16 bytes. -/
def graph0 : Graph := { num := 1, desc := 0, nodes := [{ ent := 16#256 <<< 80, tmpl := placeRec }] }
def sNode : State := { s0 with g := { s0.g with node := some 0 }, ctx := some { k0 with launches := [], graphs := [graph0] } }
def fNode (n : BitVec 8) : FmtA := { f0 with sb := .imm 0, sc := .imm n }
def oNode : Op := { sNode.mkOp 0x18A (fNode 0) { x0 with space := 1 } [1, 1, 0] sNode.m0 with logi := some 0, aux := [0, 16, 0] }
theorem witness_node_words : NodeSize sNode (sNode.usrc32 (fNode 0) (fNode 0).sb).toNat 16 ∧ sNode.freeLog = some 0 ∧ NoCarve sNode
    ∧ EachPart oNode (PartOk sNode oNode) ∧ AtHand sNode oNode
    ∧ sNode.usrc32 (fNode 1) (fNode 1).sc ≠ 0 ∧ sNode.usrc32 (fNode 0) (fNode 0).sc = 0 := by
  refine ⟨⟨graph0, _, by decide +kernel, by decide +kernel, rfl, by decide +kernel⟩, by decide +kernel, ?_, ?_, ?_, by decide +kernel,
    by decide +kernel⟩
  · unfold NoCarve; decide +kernel
  · unfold EachPart PartOk; decide +kernel
  · exact ⟨fun l _ p _ => .inl (by decide +kernel), .inl (by decide +kernel)⟩

/-! ### Witnesses: events of the scheduler -/

/-- The word answers a next state that passes a check. -/
def after (i : Instr) (s : State) (p : State → Bool) : Bool :=
  match exec i s with
  | .next t => p t
  | _ => false
def goes (i : Instr) (s : State) : Bool := after i s fun _ => true

def sHdr : State := onWarp s0 fun w => { w with run := none }
def ra0 : Runahead :=
  { v := [], u := [], m := [], ccC := 0, ccZ := 0, ccN := 0, ccV := 0, lanes := s0.w.lanes, rcb := [], run := some r0, sched := s0.w.sched, blocker := 7
    left := 0, unkV := [], unkU := [], unkM := [], unkC := 0 }
def sRa : State := onWarp s0 fun w => { w with ra := some ra0 }
theorem witness_clause_start : sHdr.w.run = none ∧ sHdr.w.ended = false ∧ sHdr.w.halted = false ∧ sHdr.w.sleep = none
    ∧ sHdr.preempted = false ∧ sHdr.w.carving = false ∧ sHdr.w.sched.active = true ∧ sHdr.w.ra = none
    ∧ (sHdr.w.pick.any fun d => decide (d.ent.mid = none) && (sHdr.headerHere d).any fun h =>
        sHdr.w.waitClear h && (sHdr.swapFirst h).isNone
          && after (.clauseStart h) sHdr fun t => decide (t.w.run = some r0)) = true := by decide +kernel
theorem witness_illegal_ahead : sRa.w.ra ≠ none ∧ s0.w.run = some r0 ∧ s0.w.ra = none := by decide +kernel
def sSleep : State := onWarp s0 fun w => { w with sleep := some 0 }
def sWaits : State := onWarp s0 fun w => { w with sched := { w.sched with pass := 4096 } }
theorem witness_sleep_and_starvation : sSleep.focus 1 = some sSleep ∧ sSleep.w.sleep = some 0 ∧ sWaits.focus 1 = some sWaits
    ∧ 4096 ≤ sWaits.w.sched.pass ∧ sWaits.w.sched.prom = false := by decide +kernel
/-- Two warps on one core: an active one that sleeps, and a pending one that is ready. -/
def wTwo : Warp := { id := 3, wg := 2, idx := 1, win := 32, lanes := s0.w.lanes, sched := { ceil := 15 } }
def sExch : State := { s0 with w := wTwo, ws := [{ s0.w with run := none, sleep := some 9 }], nextId := 4 }
theorem witness_exchange : sExch.focus 3 = some sExch ∧ wTwo.id = 3
    ∧ (bestWarp (sExch.pendingReady sExch.g.die sExch.g.core)).map (·.id) = some 3
    ∧ (sExch.warpsOn sExch.g.die sExch.g.core).countP (·.sched.active) < 8
    ∧ ((sExch.focus 1).any fun q => q.w.sched.active && q.blocked && q.w.ra.isNone) = true
    ∧ goes (.warpExchange 0 3) sExch = true ∧ goes (.warpExchange 1 3) sExch = true := by decide +kernel
/-- An addition of v2 waits for a load of v2 that has its walk to come. -/
def sBlock : State :=
  let s1 := State.reset.withFetchWord 64 0x101880
  onWarp { s1 with nextId := 8 } fun w => { w with
    pend := [opOf 0xE2 x0 .queued]
    outs := [{ id := 7, flag := none, cls := none, done := false, vdst := [2], wdst := [] }] }
theorem witness_runahead : sBlock.focus 1 = some sBlock ∧ sBlock.w.ra = none ∧ sBlock.w.sched.active = true ∧ sBlock.w.halted = false
    ∧ sBlock.w.sleep = none ∧ sBlock.w.ended = false ∧ sBlock.preempted = false ∧ sBlock.w.win ≤ sBlock.spareWindows
    ∧ sBlock.pendingReady sBlock.g.die sBlock.g.core = [] ∧ sBlock.blocker.isSome = true
    ∧ sRa.focus 1 = some sRa ∧ (∀ o ∈ sRa.w.pend, o.id ≠ ra0.blocker)
    ∧ goes (.runaheadEntry 1) sBlock = true := by decide +kernel
def sDone : State := onWarp s0 fun w => { w with run := none, ended := true }
/-- An ended warp whose last store is still to be performed. -/
def sLast : State := onWarp { s0 with nextId := 8 } fun w => { w with run := none, ended := true, pend := [opOf 0xE8 x0 .queued] }
theorem witness_release : sDone.focus 1 = some sDone ∧ sDone.quiet sDone.w = true ∧ goes (.warpResourceRelease 1) sDone = true
    ∧ sLast.focus 1 = some sLast ∧ sLast.quiet sLast.w = false ∧ sLast.w.clear = true ∧ sLast.w.released = false := by
  decide +kernel
def sGated : State := s0.updDie 0 fun d => { d with gated := [5] }
theorem witness_gating : s0.dies.length = 4 ∧ s0.ctx.isSome = true ∧ s0.others = [] ∧ s0.virt 0 = some 0 ∧ s0.wgsOn 0 5 = [] ∧ (s0.dieAt 0).gated.contains 5 = false
    ∧ (sGated.dieAt 0).gated.contains 5 = true ∧ goes (.corePowerGating 5 true) s0 = true
    ∧ goes (.corePowerGating 5 false) sGated = true := by decide +kernel

/-! ### Witnesses: events of channels, copies and engines -/

/-- An operation of s0 with its own identity, and where it stands: among the warp's waits, or in a queue of the core or a die. -/
def oIs (code : Nat) (f : FmtA) (x : Upper) (wid : List Nat) (e : LaneMask) : Op := { s0.mkOp code f x wid e with id := 7 }
def sWait (o : Op) : State := onWarp { s0 with nextId := 8 } fun w => { w with waits := [o] }
def sCore (g : Core → Core) : State := { s0 with nextId := 8, c := g s0.c }
def chIn : Chan := { dfn := true, lsz := 0, base := 0, pp := 16, wp := 16, ins := [{ op := 7, n := 4 }] }
def chOut : Chan :=
  { dfn := true, lsz := 0, base := 0, pp := 16, outs := [{ op := 5, warp := 1, p := 0, n := 16, byPub := true }] }
def sOut : State := s0.setChan 0 chOut
def sIn143 : State := (sWait (oIs 0x143 f0 x0 [0, 1, 0] s0.m0)).setChan 0 chIn
def sIn147 : State := (sCore fun c => { c with copyq := [oIs 0x147 fLen { x0 with space := 2 } [2, 1, 1] s0.m0] }).setChan 0 chIn
theorem witness_channel_events : sOut.focusWg 2 = some sOut
    ∧ ((sOut.chan 0).outs.find? (fun r => !r.fired)).any (fun r => (sOut.chan 0).mayFire r) = true
    ∧ goes (.channelReservationFire 2 0) sOut = true
    ∧ sIn143.focusWg 2 = some sIn143 ∧ (sIn143.chan 0).ins = [{ op := 7, n := 4 }] ∧ 4 ≤ (sIn143.chan 0).fill
    ∧ (sIn143.findOp 7).any (fun o => o.code == 0x143) = true ∧ (sIn143.warpOf 1).any (fun w => !(w.scratchBefore 7)) = true
    ∧ (∀ v ∈ sIn143.warps, ∀ p ∈ v.waits, p.code ≠ 0x140 ∧ p.code ≠ 0x141)
    ∧ after (.channelInputFire 2 0) sIn143 (fun t => decide ((t.chan 0).cp = 4 ∧ (t.chan 0).ins = [])) = true
    ∧ sIn147.focusWg 2 = some sIn147 ∧ (sIn147.findOp 7).any (fun o => o.code == 0x147 && decide ((o.aux[1]?).getD 0 = 0)) = true
    ∧ goes (.channelInputFire 2 0) sIn147 = true := by decide +kernel
def oMet : Op := { oIs 0x145 f0 x0 [0, 1, 0] s0.m0 with aux := [12] }
def oOpen : Op := oIs 0x130 f0 x0 [1, 0, 0] s0.m0
def oClose : Op := oIs 0x131 f0 x0 [] s0.m0
def oCarve (n : Nat) : Op := { oIs 0xF9 f0 x0 [1, 0, 0] s0.m0 with aux := [n] }
theorem witness_waiting_words : (sWait oMet).focusOp 7 = some (oMet, sWait oMet) ∧ goes (.chwaitConditionMet 7) (sWait oMet) = true
    ∧ (∀ o ∈ [oOpen, oClose], (sWait o).focus 1 = some (sWait o) ∧ goes (.chopenTakeEffect 1) (sWait o) = true
      ∧ (sWait o).w.waits.find? (fun o => o.code == 0x130 || o.code == 0x131) = some o
      ∧ (sWait o).taggedBefore (o.x.ext.toNat % 8) = false)
    ∧ ∀ n ∈ [8, 2], (sWait (oCarve n)).w.waits.find? (fun o => o.code == 0xF9) = some (oCarve n)
      ∧ (sWait (oCarve n)).scratchUsers 7 ((16 - n) * 32768) = false
      ∧ after (.carveApply 1) (sWait (oCarve n)) (fun t => decide (t.c.ways = n)) = true := by decide +kernel
/-- A load of 8 bytes into scratch, a fill of 8 bytes of scratch, and a block permutation. -/
def fEight : FmtA := { f0 with sa := .zero, sb := .zero, sc := .imm 8 }
def oG2s : Op := { oIs 0x146 fEight { x0 with space := 1 } [2, 1, 1] s0.m0 with cls := some .copy }
def sG2s : State := sCore fun c => { c with copyq := [oG2s] }
theorem pieces_ok {α β γ : Type} {r : α × Option (Except β γ)} (h : (match r.2 with | some (.ok _) => true | _ => false) = true) :
    ∃ s xs, r = (s, some (.ok xs)) := by
  obtain ⟨s, o⟩ := r
  match o, h with
  | some (.ok xs), _ => exact ⟨s, xs, rfl⟩
theorem witness_copy_chunk : InFocus sG2s 7 oG2s sG2s ∧ Nonempty (CopyTurn sG2s oG2s) ∧ goes (.copyChunkStart 7) sG2s = true := by
  refine ⟨⟨by decide +kernel, rfl, by unfold NoWaits; decide +kernel⟩, ?_, by decide +kernel⟩
  obtain ⟨s1, xs, h1⟩ := pieces_ok (r := checkPieces sG2s .read (oG2s.chunkReads 0)) (by decide +kernel)
  have hb : s1.bad = [] := by
    have : (checkPieces sG2s .read (oG2s.chunkReads 0)).1.bad = [] := by decide +kernel
    rwa [h1] at this
  exact ⟨{ pos := 0, len := 8, xs := xs, ys := [], s1 := s1, s2 := s1
           next := by decide +kernel
           turn := ⟨⟨oG2s, by decide +kernel, rfl⟩, by decide +kernel, by decide +kernel, by decide +kernel⟩
           free := by decide +kernel
           first := h1
           then_ := rfl
           good := hb }⟩
/-- A copy of 40 bytes of which the first 16 have moved. -/
def oFly : Op :=
  { oIs 0x146 { f0 with sa := .zero, sb := .zero, sc := .imm 40 } { x0 with space := 1 } [2, 1, 1] s0.m0 with
    cls := some .copy, st := .running, aux := [0, 0, 1, 16]
    xl := [{ page := 0, size := 2 ^ 20, frame := 0, leaf := 0xFFF, own := 0, status := 0 }] }
def sFly : State := sCore fun c => { c with copyq := [oFly] }
theorem witness_copy_part : InFocus sFly 7 oFly sFly ∧ InQueue sFly.c.copyq oFly ∧ oFly.code ≠ 0x14A ∧ sFly.copyTurn oFly = true
    ∧ oFly.inFlight = true ∧ (sFly.chunks oFly)[oFly.chunk]? = some (0, 40) ∧ sFly.bad = []
    ∧ after (.copyChunkStart 7) sFly (fun t => t.c.copyq.all fun q => decide (q.moved = 32)) = true := by
  unfold InFocus InQueue NoWaits; decide +kernel
def oDoneCopy : Op := { oG2s with st := .running, chunk := 1 }
def sDoneCopy : State := sCore fun c => { c with copyq := [oDoneCopy] }
def oBx : Op := { oIs 0x14A fEight { x0 with space := 1, ext := 0 } [1, 0, 1] s0.m0 with cls := some .copy }
def fBx : FmtA := { f0 with sa := .zero, sc := .litS, lit := some 128 }
def oBx128 : Op := { oIs 0x14A fBx { x0 with space := 1 } [1, 0, 1] s0.m0 with cls := some .copy }
def sBx : State := sCore fun c => { c with copyq := [oBx128] }
theorem witness_copy_ends : InFocus sDoneCopy 7 oDoneCopy sDoneCopy ∧ InQueue sDoneCopy.c.copyq oDoneCopy
    ∧ oDoneCopy.copyLen ≠ 0 ∧ (sDoneCopy.chunks oDoneCopy).length ≤ oDoneCopy.chunk
    ∧ goes (.copyOperationComplete 7) sDoneCopy = true
    ∧ InFocus sBx 7 oBx128 sBx ∧ InQueue sBx.c.copyq oBx128 ∧ oBx128.copyLen ≠ 0 ∧ sBx.copyTurn oBx128 = true
    ∧ oBx128.chunk = 0 ∧ sBx.bad = [] ∧ goes (.bxformStart 7) sBx = true := by
  unfold InFocus InQueue NoWaits; decide +kernel
/-- A workgroup of a group whose one warp has arrived at slot 0. -/
def sGroup : State := { s0 with g := { s0.g with groups := [0], bars := [(16, { arr := 1 })] } }
theorem witness_group_arrival : sGroup.wgOf 2 = some sGroup.g ∧ sGroup.groupArrives sGroup.g 0 = true
    ∧ goes (.groupBarrierArrival 2 0) sGroup = true := by decide +kernel

/-- An operation of the matrix engine: WSWAP, and a row of MACZ and MPASS of one column group. -/
def oMtx (code : Nat) : Op := { oIs code fBlk { x0 with ext := 64 } [8, 1, 0] s0.m0 with cls := some .mtx, uv := [0, 0, 0, 0x10008, 0, 0, 0, 0, 0] }
def sMtx (o : Op) : State := sCore fun c => { c with mtxq := [o] }
theorem witness_matrix : (∀ code ∈ [0x151, 0x152, 0x155], InFocus (sMtx (oMtx code)) 7 (oMtx code) (sMtx (oMtx code))
      ∧ MtxTurn (sMtx (oMtx code)) (oMtx code))
    ∧ goes (.matrixOperationStart 7) (sMtx (oMtx 0x151)) = true ∧ goes (.matrixOperationStart 7) (sMtx (oMtx 0x155)) = true := by
  unfold InFocus MtxTurn InQueue NoWaits; decide +kernel
def oMtxDone : Op := { oMtx 0x151 with st := .running, chunk := 1 }
theorem witness_matrix_ends : InFocus (sMtx oMtxDone) 7 oMtxDone (sMtx oMtxDone) ∧ InQueue (sMtx oMtxDone).c.mtxq oMtxDone
    ∧ oMtxDone.st = .running ∧ oMtxDone.mtxSteps ≤ oMtxDone.chunk ∧ goes (.matrixOperationComplete 7) (sMtx oMtxDone) = true := by
  unfold InFocus InQueue NoWaits; decide +kernel
def oRnd : Op := { oIs 0x16A f0 x0 [2, 0, 2] s0.m0 with cls := some .ray }
def sRay : State := sCore fun c => { c with rayq := [oRnd] }
theorem witness_ray : InFocus sRay 7 oRnd sRay ∧ InQueue sRay.c.rayq oRnd ∧ plainRay oRnd.code = true ∧ oRnd.pcm = 0
    ∧ sRay.rayReady oRnd = oRnd.e ∧ oRnd.e ≠ 0 ∧ goes (.rayOperationComplete 7) sRay = true := by
  unfold InFocus InQueue NoWaits; decide +kernel
/-- Record words of lane 0 on an image of 8 by 8 pixels in two layers. -/
def oRsv (code : Nat) : Op := { oIs code { f0 with dst := 8 } { x0 with space := 3 } [1, 8, 8] 1 with cls := some .rsv }
def sRsv (o : Op) : State := { (sCore fun c => { c with rsvq := [o] }) with ctx := some { k0 with rsvDesc := 0x400000E007 } }
def geom0 : Geom := { w := 8, h := 8, hw := 0, l := 2, nd := 4 }
theorem witness_reservoir : ∀ code ∈ [0x170, 0x171, 0x172], InFocus (sRsv (oRsv code)) 7 (oRsv code) (sRsv (oRsv code))
    ∧ RsvTurn (sRsv (oRsv code)) (oRsv code) geom0 ∧ lanesOf (oRsv code).e = [0]
    ∧ goes (.reservoirOperationComplete 7) (sRsv (oRsv code)) = true := by
  unfold InFocus RsvTurn InQueue NoWaits; decide +kernel
def oCfg : Op := oIs 0x179 f0 x0 [2, 0, 0] s0.m0
theorem witness_rsvcfg : InFocus (sRsv oCfg) 7 oCfg (sRsv oCfg) ∧ InQueue (sRsv oCfg).c.rsvq oCfg ∧ (sRsv oCfg).rsvReady oCfg ≠ 0
    ∧ (sRsv oCfg).ctx.isSome = true ∧ (sRsv oCfg).underOld (oCfg.val64 0 0).toNat = sRsv oCfg ∧ goes (.rsvcfgInstall 7) (sRsv oCfg) = true := by
  unfold InFocus InQueue NoWaits; decide +kernel

/-! ### Witnesses: events of Loess and the radiance cache -/

/-- A RUSE of a region of 2 by 2 pixels, at the head of Loess's queue on a die where a callable of one CALRET stands at 0x10008;
and the quad in flight for it. -/
def oRuse : Op :=
  { oIs 0x17A fRuse x0 [16, 0, 0] s0.m0 with
    cls := some .rsv, uv := [0, 0x20002, 0x10010, 0, 0, 0, 0, 0, 0, 0, 0x10008, 0, 0, 0, 0, 0] }
def calretWord : Nat := 2 + 0x17B * 4 + 0x0A * 2 ^ 27 + 3 * 2 ^ 45
def sLoess (q : Option Loess) : State :=
  let s1 := State.reset.withFetchWord 128 calretWord
  let s2 : State := { s1 with nextId := 8, ctx := some { k0 with rsvDesc := 0x400000E007 } }
  s2.updDie 0 fun d => { d with loessQ := [oRuse], loess := q }
def pix0 (x y : Nat) : LPix := { x := x, y := y, g := List.replicate 8 0, cen := 0 }
def eval0 (st : Nat) : LEval := { pix := 0, idx := 0, q := 0, src := 0, st := st, ray := [0x7F800000] }
def quad0 (st : Nat) : Loess := { op := 7, pixs := [pix0 0 0, pix0 1 0, pix0 0 1, pix0 1 1], evals := [eval0 st] }
theorem witness_loess_start : (sLoess none).loessHead 0 = some (oRuse, sLoess none) ∧ (sLoess none).dies.length = 4
    ∧ ((sLoess none).die 0).loess = none ∧ oRuse.st = .queued ∧ (sLoess none).preempting = false
    ∧ (sLoess none).loessTurn 0 oRuse = true ∧ ((sLoess none).withGeom oRuse.oldDesc).geom = some geom0
    ∧ (∃ s1 ps es, ((sLoess none).withGeom oRuse.oldDesc).readPixels oRuse geom0 0 oRuse.quadPixels = (s1, some (.ok (ps, es)))
        ∧ s1.dies.length = 4) := by
  refine ⟨by decide +kernel, by decide +kernel, by decide +kernel, by decide +kernel, by decide +kernel, by decide +kernel,
    by decide +kernel, ?_⟩
  obtain ⟨s1, p, h⟩ := pieces_ok (r := ((sLoess none).withGeom oRuse.oldDesc).readPixels oRuse geom0 0 oRuse.quadPixels) (by decide +kernel)
  have hd : s1.dies.length = 4 := by
    have : (((sLoess none).withGeom oRuse.oldDesc).readPixels oRuse geom0 0 oRuse.quadPixels).1.dies.length = 4 := by decide +kernel
    rwa [h] at this
  exact ⟨s1, p.1, p.2, h, hd⟩
/-- The callable of the batch, run to its end. -/
noncomputable def micro0 : Micro :=
  Micro.run microFuel ((sLoess (some (quad0 0))).microStart 0 (join2 (oRuse.reg 0 10 0) (oRuse.reg 0 11 0))
    ((List.range 16).map fun i => oRuse.reg 0 i 0) ((quad0 0).batch.map fun e => (quad0 0).regs e.2))
theorem at_work (st : Nat) (h : st < 3) : AtWork (sLoess (some (quad0 st))) 0 oRuse (sLoess (some (quad0 st))) (quad0 st) := by
  unfold AtWork; interval_cases st <;> decide +kernel
theorem witness_loess_batch : (quad0 0).batch ≠ [] ∧ micro0.wait = false ∧ micro0.err = none ∧ micro0.s.dies.length = 4
    ∧ micro0.s.ctx = (sLoess (some (quad0 0))).ctx := by decide +kernel
theorem witness_loess_ray_and_end : (quad0 1).rayAt = some (0, eval0 1) ∧ badRay (eval0 1).ray = true
    ∧ goes (.loessRayComplete 0) (sLoess (some (quad0 1))) = true
    ∧ (∀ e ∈ (quad0 2).evals, e.st = 2) ∧ oRuse.lostCfg = false ∧ oRuse.oldDesc = none
    ∧ (sLoess (some (quad0 2))).geom = some geom0 ∧ (quad0 2).pixs[0]? = some (pix0 0 0)
    ∧ goes (.loessQuadComplete 0) (sLoess (some (quad0 2))) = true := by decide +kernel
/-- A RUSE whose reservoir has been installed anew. -/
def oLost : Op := { oRuse with aux := [0x400000E007, 0, 1] }
theorem witness_loess_lost : AtWork ((sLoess (some (quad0 2))).updDie 0 fun d => { d with loessQ := [oLost] }) 0 oLost
    ((sLoess (some (quad0 2))).updDie 0 fun d => { d with loessQ := [oLost] }) (quad0 2) ∧ oLost.lostCfg = true := by
  unfold AtWork; decide +kernel
/-- A quad of one pixel, whose place no other has. -/
def quad1 : Loess := { op := 7, pixs := [pix0 0 0], evals := [eval0 2] }
theorem witness_loess_pixel : AtWork (sLoess (some quad1)) 0 oRuse (sLoess (some quad1)) quad1 ∧ (∀ e ∈ quad1.evals, e.st = 2)
    ∧ quad1.pixs[0]? = some (pix0 0 0) ∧ ∀ j y, quad1.pixs[j]? = some y → y.x = (pix0 0 0).x → y.y = (pix0 0 0).y → j = 0 := by
  refine ⟨by unfold AtWork; decide +kernel, by decide +kernel, rfl, ?_⟩
  intro j y h _ _
  match j, h with
  | 0, _ => rfl
  | j + 1, h => simp [quad1] at h

/-- A query unit that holds one operation. -/
def oRad (code chunk : Nat) (aux : List Nat) : Op :=
  { oIs code f0 x0 [16, 4, 1] s0.m0 with cls := some .rad, chunk := chunk, aux := aux }
def sRad (o : Op) : State := { s0 with nextId := 8 }.updDie 0 fun d => { d with radq := [o] }
def radOps0 : List Op := [oRad 0x180 0 [], oRad 0x185 0 [1, 2, 3, 4], oRad 0x181 1 [], oRad 0x182 0 [], oRad 0x183 32 []]
theorem witness_radiance : ∀ o ∈ radOps0, RadTurn (sRad o) 7 o (sRad o) ∧ (sRad o).ctx.isSome = true ∧ (sRad o).preempting = false
    ∧ (∀ q ∈ ((sRad o).die (sRad o).g.die).radq, q.isQuery = true → (sRad o).clusterOf q = (sRad o).clusterOf o → o.id ≤ q.id)
    ∧ lowestLane (o.e &&& ~~~o.pcm) = some 0 := by
  unfold RadTurn InFocus NoWaits; decide +kernel
theorem witness_generation : (sRad (oRad 0x182 0 [])).hubHead 0x182 = some (oRad 0x182 0 [])
    ∧ (sRad (oRad 0x182 0 [])).focus 1 = some (sRad (oRad 0x182 0 [])) ∧ (sRad (oRad 0x182 0 [])).rad.sdn = (sRad (oRad 0x182 0 [])).rad.ns
    ∧ (sRad (oRad 0x182 0 [])).unitsClear = true ∧ (sRad (oRad 0x182 0 [])).rad.step = false := by decide +kernel
def sYarrow (step : Bool) : State := { s0 with ctx := some { k0 with rad := { ns := 4, step := step } } }
theorem witness_yarrow : (sYarrow false).ctx.isSome = true ∧ (sYarrow false).rad.step = false
    ∧ (sYarrow false).rad.sdn < (sYarrow false).rad.ns ∧ (sYarrow false).storing = false ∧ (sYarrow false).preempting = false
    ∧ (sYarrow true).rad.step = true ∧ goes .yarrowStepStart (sYarrow false) = true := by decide +kernel
/-- An RCWLD that has read its whole image: no chunk is left. -/
theorem witness_image : (sRad (oRad 0x183 32 [])).hubTurn (oRad 0x183 32 []) = true ∧ (oRad 0x183 32 []).imageCuts = []
    ∧ (sRad (oRad 0x183 32 [])).storing = false := by decide +kernel
/-- One that has a last chunk to read. -/
theorem witness_image_chunk : (oRad 0x183 31 []).imageCuts ≠ [] ∧ ∃ s1 o1,
    imageChunks .read (oRad 0x183 31 []) readChunk (sRad (oRad 0x183 31 [])) (oRad 0x183 31 []) (oRad 0x183 31 []).imageCuts
      = (s1, o1, some (.ok ())) := by
  refine ⟨by decide +kernel, ?_⟩
  have h : (match (imageChunks .read (oRad 0x183 31 []) readChunk (sRad (oRad 0x183 31 [])) (oRad 0x183 31 [])
      (oRad 0x183 31 []).imageCuts).2.2 with
    | some (.ok _) => true
    | _ => false) = true := by decide +kernel
  generalize imageChunks .read (oRad 0x183 31 []) readChunk (sRad (oRad 0x183 31 [])) (oRad 0x183 31 [])
    (oRad 0x183 31 []).imageCuts = r at h ⊢
  obtain ⟨s1, o1, x⟩ := r
  match x, h with
  | some (.ok ()), _ => exact ⟨s1, o1, rfl⟩

/-! ### Witnesses: launches and graphs -/

/-- s0 with a submission at the hub, whose word waits. -/
def oSub (code : Nat) : Op := oIs code f0 x0 [2, 1, 1] s0.m0
def sSub (code addr : Nat) (graph : Bool) : State :=
  { sWait (oSub code) with ctx := some { k0 with submits := [{ op := 7, addr := addr, pred := none, graph := graph }] } }
theorem witness_acceptance : s0.ctx = some k0 ∧ k0.ended = false ∧ k0.num = 1 ∧ (0x30000 : Word64).toNat % 64 = 0
    ∧ (s0.homeRead 0x30000 256).any (fun bs => lrGtab (BitVec.ofNat 2048 (leNat bs)) == 0) = true
    ∧ goes (.launchAcceptance (some (1, 0x30000))) s0 = true := by decide +kernel
theorem witness_submission : (sSub 0x188 0x30000 false).focusOp 7 = some (oSub 0x188, sSub 0x188 0x30000 false)
    ∧ ((sSub 0x188 0x30000 false).ctx.any fun k => !k.ended
        && ((sSub 0x188 0x30000 false).acceptRecord k (some (oSub 0x188)) 0x30000 none).isSome) = true
    ∧ goes (.launchAcceptance none) (sSub 0x188 0x30000 false) = true
    ∧ (sSub 0x18F 0x30000 true).focusOp 7 = some (oSub 0x18F, sSub 0x18F 0x30000 true)
    ∧ ((sSub 0x18F 0x30000 true).ctx.any fun k => ((sSub 0x18F 0x30000 true).readGraph (oSub 0x18F) k 0x30000).2.isSome) = true
    ∧ goes (.launchAcceptance none) (sSub 0x18F 0x30000 true) = true := by decide +kernel
/-- s0 with launch 1 accepted and not begun; with GANG it is placed at once. -/
def gangRec : BitVec 2048 := placeRec ||| (1#2048 <<< 72)
def kLaunch (r : BitVec 2048) : Ctx := { k0 with launches := [{ num := 1, lrec := r }] }
def sLaunch (r : BitVec 2048) : State := { s0 with ctx := some (kLaunch r) }
theorem witness_dispatch : (kLaunch placeRec).preempt = false ∧ (kLaunch placeRec).ended = false
    ∧ (kLaunch placeRec).launchOf 1 = some { num := 1, lrec := placeRec }
    ∧ (kLaunch placeRec).readyWgs { num := 1, lrec := placeRec } = [0]
    ∧ 0 ∈ (sLaunch placeRec).affDies (lrAff placeRec) ∧ 3 ∈ (sLaunch placeRec).affDies (lrAff placeRec) ∧ lrGang placeRec = false
    ∧ (kLaunch placeRec).gangKeeps 1 0 = false ∧ (sLaunch placeRec).earlierUses (kLaunch placeRec) 1 0 = false
    ∧ (sLaunch placeRec).coresOk placeRec 256 0 ≠ [] := by decide +kernel
theorem witness_gang : (kLaunch gangRec).gangWaits { num := 1, lrec := gangRec } = true
    ∧ (∀ v ∈ (sLaunch gangRec).affDies (lrAff gangRec), (kLaunch gangRec).gangKeeps 1 v = false
        ∧ (sLaunch gangRec).earlierUses (kLaunch gangRec) 1 v = false)
    ∧ ∃ t, (sLaunch gangRec).dispatchList { num := 1, lrec := gangRec } ((sLaunch gangRec).affDies (lrAff gangRec)) true
        ((kLaunch gangRec).readyWgs { num := 1, lrec := gangRec }) = some t := by
  refine ⟨by decide +kernel, by decide +kernel, ?_⟩
  have hr : (kLaunch gangRec).readyWgs { num := 1, lrec := gangRec } = [0] := by decide +kernel
  have hs : ((sLaunch gangRec).affDies (lrAff gangRec)).flatMap (fun v =>
      ((sLaunch gangRec).coresOk gangRec 256 v).map fun n => (v, n)) ≠ [] := by decide +kernel
  have hone : ∃ t, (sLaunch gangRec).dispatchOne { num := 1, lrec := gangRec } ((sLaunch gangRec).affDies (lrAff gangRec)) 0 = some t := by
    unfold State.dispatchOne
    have hlt := Nat.mod_lt (Config.placeCore (sLaunch gangRec).nextId) (List.length_pos_of_ne_nil hs)
    exact ⟨_, by simp only [Nat.one_mul]; rw [List.getElem?_eq_getElem hlt]; rfl⟩
  obtain ⟨t, ht⟩ := hone
  rw [hr]
  exact ⟨t, by simp only [State.dispatchList, ht]⟩
/-- A workgroup whose last warp has ended, of a launch and of a node. -/
def sWgEnd : State := onWarp { s0 with g := { s0.g with live := 0 } } fun w => { w with run := none, ended := true }
def kNode (g : Graph) : Ctx := { k0 with launches := [], graphs := [g] }
def sNodeEnd : State := { sWgEnd with g := { sWgEnd.g with node := some 0 }, ctx := some (kNode graph0) }
theorem witness_completion : ∀ s ∈ [sWgEnd, sNodeEnd], s.wgOf 2 = some s.g ∧ s.g.event = false ∧ s.g.live = 0 ∧ s.ctx.isSome = true
    ∧ (∀ w ∈ s.warps, w.wg = 2 → s.quiet w = true) ∧ lrCscope s.g.lrec ≤ 4
    ∧ goes (.workgroupCompletionEvent 2) s = true := by decide +kernel
theorem witness_completion_numbers : sWgEnd.g.node = none ∧ (k0.launchOf sWgEnd.g.launch).isSome = true ∧ sNodeEnd.g.node = some 0
    ∧ (kNode graph0).graphOf sNodeEnd.g.launch = some graph0 ∧ k0.ageOf sWgEnd.g.launch < 65536 := by decide +kernel
/-- NODE.ENQ of scratch bytes, and NODE.ENQN, oldest of a workgroup of a graph. -/
def oEnq (code : Nat) : Op :=
  { s0.mkOp code { f0 with sb := .imm 0, sc := .imm 1 } { x0 with space := 1 } [1, 1, 1] s0.m0 with id := 7, st := .running, aux := [0, 16, 0] }
def sEnq (o : Op) : State := { onWarp { s0 with nextId := 8 } (fun w => { w with pend := [o] }) with ctx := some (kNode graph0) }
theorem witness_node_records : ∀ code ∈ [0x18A, 0x18B], (sEnq (oEnq code)).focusOp 7 = some (oEnq code, sEnq (oEnq code))
    ∧ oEnq code ∈ (sEnq (oEnq code)).w.pend ∧ (∀ p ∈ (sEnq (oEnq code)).w.pend, orderOnly p.code = false)
    ∧ (sEnq (oEnq code)).opReady (oEnq code) = true ∧ (sEnq (oEnq code)).bad = []
    ∧ (sEnq (oEnq code)).graphOf (sEnq (oEnq code)).g.launch = some graph0
    ∧ lowestLane ((oEnq code).e &&& ~~~(oEnq code).sent) = some 0
    ∧ goes (.nodeRecordArrival 7) (sEnq (oEnq code)) = true := by decide +kernel
theorem witness_node_check : (sEnq (oEnq 0x18B)).checkRecord (oEnq 0x18B) 0 = (sEnq (oEnq 0x18B), some (.ok []))
    ∧ ((sEnq (oEnq 0x18B)).releaseIf (oEnq 0x18B).x.ord.toNat (oEnq 0x18B).x.scope.toNat).bad = [] := ⟨rfl, by decide +kernel⟩
/-- A graph with one record, enough for a workgroup, and one that has drained. -/
def graphQ (q : List (List Byte)) : Graph :=
  { num := 1, desc := 0, nodes := [{ ent := (16#256 <<< 80) ||| (1#256 <<< 64), tmpl := placeRec, queue := q }] }
theorem witness_node_start : (({ s0 with ctx := some (kNode (graphQ [[0]])) } : State).gather (graphQ [[0]]) 0).nodes[0]?.any (fun n =>
      n.takes == some 1 && n.spill.isEmpty) = true ∧ (graphQ [[0]]).complete = false
    ∧ 1 ∈ ({ s0 with ctx := some (kNode (graphQ [[0]])) } : State).affDies (lrAff placeRec)
    ∧ (kNode (graphQ [[0]])).gangKeeps 1 1 = false
    ∧ 0 ∈ ({ s0 with ctx := some (kNode (graphQ [[0]])) } : State).coresOk placeRec 256 1 := by decide +kernel
theorem witness_drain : (graphQ []).complete = false ∧ (kNode (graphQ [])).ageOf 1 < 65536
    ∧ ∀ n ∈ (graphQ []).nodes, n.running = 0 ∧ n.takes = none ∧ n.waiting = 0 := by
  decide +kernel
/-- A record that fills no batch is left at a drain. -/
def graphD : Graph := { num := 1, desc := 0, nodes := [{ ent := (16#256 <<< 80) ||| (2#256 <<< 64), tmpl := placeRec, queue := [[0]] }] }
theorem witness_drain_rest : (∀ n ∈ graphD.nodes, n.running = 0 ∧ n.takes = none) ∧ (∃ n ∈ graphD.nodes, n.waiting ≠ 0)
    ∧ goes (.graphDrain 1) { s0 with ctx := some (kNode graphD) } = true
    ∧ goes (.graphDrain 1) { s0 with ctx := some (kNode (graphQ [])) } = true := by decide +kernel

/-! ### Witnesses: services of the hub -/

def withCtx (k : Ctx) : State := { s0 with ctx := some k }
/-- A held fault record with room for it, an unsettled record that has been written, and one that firmware can settle. -/
def kHeld : Ctx := { k0 with fqHeld := [0], fqSeq := 1 }
def u0 (kind : Nat) : Unsettled :=
  { seq := 0, slot := 0, kind := kind, op := 7, warp := 1, va := 0, read := false, write := false, exec := false, since := 0 }
def kFault (kind : Nat) : Ctx := { k0 with unsettled := [u0 kind], fqSeq := 1 }
theorem witness_fault_queue : kHeld.fqHeld = [0] ∧ (withCtx kHeld).queueFull kHeld = false ∧ goes .faultQueueHeadReread (withCtx kHeld) = true
    ∧ (kFault 1).policy = 0 ∧ (kFault 1).unsettled = [] ++ u0 1 :: [] ∧ (kFault 1).written (u0 1) = true
    ∧ (withCtx (kFault 1)).verdict (u0 1) = some false ∧ goes .firmwareFaultSettlement (withCtx (kFault 1)) = true := by decide +kernel
theorem witness_settle : (withCtx (kFault 7)).hub.state = 4 ∧ 9 ∉ (withCtx (kFault 7)).ctxNums ∧ (kFault 7).num = 1
    ∧ (kFault 7).settleable 1 = none ∧ (kFault 7).settleable 0 = some (u0 7)
    ∧ goes (.settleFaultRecord 1 0 true 0 none) (withCtx (kFault 7)) = true := by decide +kernel
def kPre (acks : List Nat) : Ctx := { k0 with preempt := true, acks := acks }
/-- The context with every unit stopped and its acknowledgement given. -/
def sStopped : State := onWarp (withCtx (kPre (withCtx (kPre [])).busyUnits)) fun w => { w with run := none }
theorem witness_preemption : k0.preempt = false ∧ k0.ended = false ∧ s0.hub.state = 4 ∧ goes (.preemptContext 1) s0 = true
    ∧ (kPre []).preempt = true ∧ 0 ∉ (kPre []).acks ∧ 0 ∈ (withCtx (kPre [])).busyUnits
    ∧ (onWarp (withCtx (kPre [])) fun w => { w with run := none }).unitStopped 0 = true
    ∧ (withCtx (kPre [])).unitRelocks 0 = false
    ∧ goes (.enginePreemptAck 0) (onWarp (withCtx (kPre [])) fun w => { w with run := none }) = true
    ∧ (∀ u ∈ sStopped.busyUnits, u ∈ (withCtx (kPre [])).busyUnits ∧ sStopped.unitStopped u = true)
    ∧ goes .preemptionComplete sStopped = true := by decide +kernel
def saved0 : Saved := { ctx := k0, wgs := [s0.g], warps := [s0.w], cores := [s0.c], rsv := [], loess := [], radq := [] }
def sSaved : State := { s0 with ctx := none, w := Warp.idle, saved := [saved0] }
theorem witness_restore : sSaved.hub.state = 4 ∧ sSaved.ctx = none ∧ sSaved.savedOf 1 = some saved0 ∧ saved0.ctx.ended = false
    ∧ (sSaved.forRestore saved0).2 = saved0 ∧ sSaved.ctxNum ≠ 1 ∧ sSaved.others = [] := by decide +kernel
/-- Another context with no workgroup, saved or running beside the one in focus. -/
def saved2 : Saved := { saved0 with ctx := { k0 with num := 2 }, wgs := [], warps := [], cores := [] }
def sBeside : State := { s0 with others := [saved2] }
theorem witness_restore_beside : ({ s0 with saved := [saved2] } : State).savedOf 2 = some saved2
    ∧ ({ s0 with saved := [saved2] } : State).forRestore saved2 = ({ s0 with saved := [saved2] }, saved2)
    ∧ ((({ s0 with saved := [saved2] } : State).aside.install saved2).seatAll saved2 saved2.wgs).isSome = true
    ∧ goes (.restoreContext 2) { s0 with saved := [saved2] } = true := by decide +kernel
theorem witness_debugger_saved : sSaved.ctxNum ≠ 1 ∧ 1 ∉ sSaved.others.map (·.ctx.num) ∧ (sSaved.savedOf 1).isSome = true
    ∧ goes (.debuggerAttach 1 true []) sSaved = true := by decide +kernel
def kDbg : Ctx := { k0 with debugger := true }
def sHalt : State := onWarp (withCtx kDbg) fun w => { w with halted := true }
theorem witness_debug : kDbg.debugger = true ∧ (withCtx kDbg).warpOf 1 = some s0.w
    ∧ (withCtx kDbg).stopped ((((withCtx kDbg).wgOf s0.w.wg).map (·.die)).getD 0) = false ∧ sHalt.warpOf 1 = some sHalt.w ∧ sHalt.w.halted = true
    ∧ goes (.debugHaltRequest 1) (withCtx kDbg) = true ∧ goes (.debugResume 1 true) sHalt = true
    ∧ goes (.debuggerAttach 1 true (List.replicate 8 0x10010)) s0 = true ∧ goes (.debuggerAttach 1 true []) sSaved = true := by
  decide +kernel
def call0 (taken : Bool) (wait : Option Nat) : Call := { id := 6, data := 5, code := 3, wait := wait, taken := taken }
def oHost : Op := oIs 0x1AE f0 x0 [2, 1, 0] s0.m0
def sCall : State := { sWait oHost with ctx := some { k0 with mailbox := [call0 true (some 7)] } }
theorem witness_mailbox : ∀ w ∈ [none, some 7], ([call0 false w]).find? (fun c => !c.taken) = some (call0 false w)
    ∧ goes (.hostMailboxTake 1) (withCtx { k0 with mailbox := [call0 false w] }) = true := by decide +kernel
theorem witness_reply : ([call0 true (some 7)]).find? (fun c => c.taken && c.id == 6 && c.wait.isSome) = some (call0 true (some 7))
    ∧ sCall.findOp 7 = some oHost ∧ oHost.warp = sCall.w.id ∧ goes (.hostMailboxReply 1 6 0x123456789) sCall = true := by
  decide +kernel

/-! ### Witnesses: shoot-downs, migration and the balloon engine -/

def shoot0 (phase : Nat) (acks : List Nat) : ShootDown := { ctx := 1, base := 0, size := 4096, phase := phase, acks := acks }
def sShoot (acks : List Nat) : State := { s0 with hub := { s0.hub with shoot := [shoot0 1 acks] } }
theorem witness_shoot : s0.hub.state = 4 ∧ 1 ∈ s0.ctxNums ∧ 0 ∈ (sShoot []).shootUnits 1 ∧ 0 ∉ (shoot0 1 []).acks
    ∧ ((sShoot []).swapTo 1).flightIn 0 0 4096 = false
    ∧ goes (.shootDown 1 0 4096) s0 = true ∧ goes (.shootDownDrainAck 0) (sShoot []) = true
    ∧ (sShoot []).ctxNum = 1 ∧ (sShoot []).ctx ≠ none
    ∧ (∀ u ∈ (sShoot ((sShoot []).shootUnits 1)).shootUnits 1, u ∈ (sShoot []).shootUnits 1)
    ∧ goes .shootDownConfirm (sShoot ((sShoot []).shootUnits 1)) = true
    ∧ goes .shootDownConfirm { sShoot [] with ctx := none } = true
    ∧ (({ sShoot [] with ctx := none } : State).swapTo 1).ctx = none ∧ ((sShoot []).swapTo 1).ctxNum = 1 := by decide +kernel
/-- The window's first page mapped to a frame of 4 KB through four tables. -/
def pageTables (m : Sparse Byte) : Sparse Byte :=
  writeBytes (writeBytes (writeBytes m 0x2000 (leBytes 8 0x3001)) 0x3000 (leBytes 8 0x4001)) 0x4000 (leBytes 8 0x50EF)
def sPage : State := s0.updDie 0 fun d => { d with mem := pageTables d.mem }
theorem witness_migration : sPage.hub.state = 4 ∧ sPage.ctx ≠ none ∧ sPage.dies.length = 4 ∧ sPage.owner 0 = some 0
    ∧ (sPage.die 0).mig = none ∧ (sPage.walk 0).status = 0 ∧ (sPage.walk 0).page = 0 ∧ (sPage.walk 0).size = 4096
    ∧ 0x8000 % 4096 = 0 ∧ 0x8000 + 4096 ≤ (sPage.die 0).capacity ∧ 0x8000 ≠ (sPage.walk 0).frame := by decide +kernel
def sMig (st : Nat) : State :=
  sPage.updDie 0 fun d => { d with mig := some { ctx := 1, st := st, va := 0, size := 4096, old := 0x5000, new := 0x8000 } }
/-- What a step of a migration finds: its virtual die, the migration, and a package of four dies. -/
def migFound (s : State) (st : Nat) : Bool :=
  (s.migIn st).any fun p => decide (p.1 = 0) && decide (p.2.1.st = st) && decide (p.2.1.ctx = 1) && decide (p.2.2.dies.length = 4)
theorem witness_migration_steps : ((sMig 1).migIn 1).any (fun p => (p.2.2.c :: p.2.2.cs).all fun c => c.copyq.isEmpty) = true
    ∧ migFound (sMig 1) 1 = true ∧ migFound (sMig 2) 2 = true ∧ migFound (sMig 3) 3 = true
    ∧ (sMig 3).hub.shoot = [] ∧ (sMig 3).dies.length = 4 ∧ goes .migrationRemap (sMig 2) = true ∧ goes .migrationComplete (sMig 3) = true := by
  decide +kernel
/-- A die with no chunk free, and a dirty home line of the page of frame 0. -/
def line0 : Line := { tag := 0, ctx := 0, data := 0, valid := 1, dirty := 1 }
def sFull0 (held : List HeldWrite) : State := s0.updDie 0 fun d => { d with pool := 0, l2 := [line0], held := held }
theorem witness_balloon : s0.dies.length = 4 ∧ (s0.dieAt 0).present = true ∧ 2 ^ 30 % 4096 = 0 ∧ 2 ^ 30 < (s0.dieAt 0).capacity
    ∧ 2 ^ 30 ∉ (s0.dieAt 0).offered ∧ s0.ownersOf 0 (2 ^ 30) = [] ∧ (s0.dieAt 0).held = []
    ∧ goes (.balloonPageOffer 0 (2 ^ 30)) s0 = true := by decide +kernel
/-- A die below its watermark, with a page that a program has set to zero, and with an offered page, mapped or not. -/
def sZero : State := s0.updDie 0 fun d => { d with pool := 0, chunks := [(2 ^ 18, 3)] }
def sOffer (frame : Nat) : State := s0.updDie 0 fun d => { d with pool := 0, offered := [frame] }
theorem witness_reclaim : (sZero.dieAt 0).pool ≤ Config.lowWatermark 0 ∧ (sZero.dieAt 0).zeroTracked = some (2 ^ 18)
    ∧ ∀ p ∈ [(2 ^ 30, true), (0, false)], ((sOffer p.1).dieAt 0).pool ≤ Config.lowWatermark 0
      ∧ ((sOffer p.1).dieAt 0).zeroTracked = none ∧ ((sOffer p.1).dieAt 0).offered = [p.1]
      ∧ decide ((sOffer p.1).ownersOf 0 p.1 = []) = p.2 ∧ ((sOffer p.1).dieAt 0).held = [] ∧ p.1 % 4096 = 0 := by
  refine ⟨?_, by decide +kernel, ?_⟩
  · have h : (sZero.dieAt 0).pool = 0 := by decide +kernel
    rw [h]
    exact Nat.zero_le _
  · intro p hp
    have h : ∀ p ∈ [(2 ^ 30, true), (0, false)], ((sOffer p.1).dieAt 0).pool = 0
      ∧ ((sOffer p.1).dieAt 0).zeroTracked = none ∧ ((sOffer p.1).dieAt 0).offered = [p.1]
      ∧ decide ((sOffer p.1).ownersOf 0 p.1 = []) = p.2 ∧ ((sOffer p.1).dieAt 0).held = [] ∧ p.1 % 4096 = 0 := by decide +kernel
    exact ⟨(h p hp).1 ▸ Nat.zero_le _, (h p hp).2⟩
/-- A dirty line of a compressed page, of which the pool gives no chunk. -/
def lineC : Line := { line0 with data := 1, cmp := true }
theorem witness_chunks : 0 < (sFull0 []).dies.length ∧ lineC.cmp = true ∧ lineC.dirtyBytes = [(0, 1)]
    ∧ ((sFull0 []).dieAt 0).pool + ((sFull0 []).dieAt 0).chunksAt 0 < (sFull0 []).chunksFor 0 0 [(0, 1)] := by
  have h : ((sFull0 []).dieAt 0).pool = 0 ∧ ((sFull0 []).dieAt 0).chunksAt 0 = 0
      ∧ ((sFull0 []).dieAt 0).pageZero 0 [(0, 1)] = false := by decide +kernel
  refine ⟨by decide +kernel, rfl, by decide +kernel, ?_⟩
  simp only [State.chunksFor, h, Bool.false_eq_true, if_false]
  omega
/-- A write-back of page 0 that its memory channel holds for two chunks. -/
def held0 : HeldWrite := { ctx := 1, addr := 0, since := 0, chunks := 2, bytes := [(0, 1)] }
theorem witness_held : ((sFull0 [held0]).dieAt 0).held.find? (fun h => !h.told && h.addr == 0 && h.chunks == 2) = some held0
    ∧ (sFull0 [held0]).ctx = some k0 ∧ (sFull0 [held0]).holders 0 held0 = [k0.num] ∧ (sFull0 [held0]).ctxNums.Nodup
    ∧ goes (.compressedWriteHold 0 0 2) (sFull0 [held0]) = true := by decide +kernel
def sFree : State := (sFull0 [held0]).updDie 0 fun d => { d with pool := 2 }
def sLate : State := { sFull0 [held0] with time := 2000000 }
theorem witness_held_writes : (sFree.dieAt 0).held = held0 :: [] ∧ held0.chunks ≤ (sFree.dieAt 0).pool
    ∧ (held0.bytes.map (·.1)).Nodup ∧ goes (.compressedHoldRelease 0) sFree = true ∧ held0 ∈ (sLate.dieAt 0).held
    ∧ held0.ctx = k0.num ∧ k0.ended = false ∧ sLate.ctxNums.Nodup
    ∧ held0.since + k0.timeout * 1000000 < sLate.time ∧ goes (.outOfSpaceTimeout 0) sLate = true := by decide +kernel

/-! ### Witnesses: power, links, boot and the host -/

def onDie0 (s : State) (g : Die → Die) : State := s.updDie 0 g
theorem witness_power : ({ s0 with time := 50000 } : State).hub.nextEval ≤ 50000 ∧ s0.hub.state = 4
    ∧ ((onDie0 s0 fun d => { d with relock := some 0 }).dieAt 0).relock = some 0
    ∧ goes (.relockEnd 0) (onDie0 s0 fun d => { d with relock := some 0 }) = true
    ∧ (∃ d ∈ (onDie0 s0 fun d => { d with temp := 1100 }).dies, d.present = true ∧ 1100 ≤ d.temp)
    ∧ goes .thermalShutdown (onDie0 s0 fun d => { d with temp := 1100 }) = true
    ∧ s0.mayRelock = true ∧ (s0.dieAt 0).step ≠ 0 ∧ (∀ p < 4, (s0.dieAt p).temp < 1050)
    ∧ goes (.setPowerLimits 600 [(0, 6), (0, 6), (6, 6), (3, 4)]) s0 = true ∧ 600 ≤ s0.designPower
    ∧ (∀ p ∈ [(0, 6), (0, 6), (6, 6), (3, 4)], p.1 ≤ p.2 ∧ p.2 ≤ 6) := by decide +kernel
/-- The first link of die 0 with a packet of its queue, training, and after three failures. -/
def onFirst (g : Link → Link) : List Link → List Link
  | l :: ls => g l :: ls
  | [] => []
def onLink (g : Link → Link) : State := onDie0 s0 fun d => { d with links := onFirst g d.links }
/-- A packet that a relock has held, and one from the hub at the hub link of die 0. -/
def pkt0 (src dst : Nat) : Packet := { src := src, dst := dst, vc := 0, flits := 1, due := some 0 }
def sBack : State :=
  onDie0 s0 fun d => { d with links := d.links.map fun l => if l.far = 4 then { l with back := [pkt0 4 0] } else l }
theorem witness_links : (s0.linkAt 0).any (fun l => !l.down && !l.training && l.far != 0) = true
    ∧ ((onLink fun l => { l with queue := [pkt0 0 l.far] }).linkAt 0).any
        (fun l => decide ((onLink id).nextPacket l.far l.queue = some (pkt0 0 l.far)) && !((onLink id).linkHeld 0 l.far)) = true
    ∧ goes (.linkPacketDelivery 0) (onLink fun l => { l with queue := [pkt0 0 l.far] }) = true
    ∧ ((sBack.dieAt 0).links.find? (fun l => l.far == 4)).any (fun l => decide (sBack.nextPacket 0 l.back = some (pkt0 4 0))
        && !l.down && !l.training && !(sBack.linkHeld 0 4)) = true
    ∧ goes (.linkPacketDelivery 3) sBack = true
    ∧ (s0.dieAt 0).present = true ∧ s0.hub.state ≠ 5 ∧ goes (.linkRetrain 0) s0 = true
    ∧ goes (.linkRetrain 0) (onLink fun l => { l with training := true, failed := 3 }) = true
    ∧ goes (.linkRetrainComplete 0 4) (onLink fun l => { l with training := true }) = true := by decide +kernel
/-- Lines with an error that have not been written back, and errors in a dirty line wherever it stands. -/
def lost0 (location : Nat) : Lost := { location := location, die := 0, line := 0, ctxs := [1] }
def sLost (location : Nat) : State := { s0 with hub := { s0.hub with lost := [lost0 location] } }
theorem witness_writeback : (∀ location ∈ [0, 1, 2],
      (sLost location).hub.lost.find? (fun x => x.die == 0 && x.line == 0 && x.location == location) = some (lost0 location)
      ∧ (sLost location).ctx = some k0 ∧ k0.num ∈ (lost0 location).ctxs ∧ k0.ended = false ∧ (sLost location).ctxNums.Nodup
      ∧ (sLost location).bad = [] ∧ goes (.writebackUncorrectableError 0 0 location) (sLost location) = true)
    ∧ line0.dirty ≠ 0 ∧ ∀ k ∈ [(0, 0, 0), (1, 0, 0), (2, 0, 0)], ({ s0 with bad := [k] } : State).bad.contains k = true
      ∧ k.2.1 = coreId (s0.phys 0) 0 ∧ k.2.2 = line0.tag := by decide +kernel
theorem witness_host_access : (∀ i < 64, s0.hdmOk 0 (0x1000 + i) = true ∧ s0.hostBad 0 (0x1000 + i) = false)
    ∧ s0.hdmOk 0 (2 ^ 37) = false ∧ (∀ l ∈ (s0.dieAt 0).l2, l.dirty &&& ~~~l.valid = 0)
    ∧ goes (.hostMemWrite 0 0x1000 [1, 2, 3]) s0 = true ∧ goes (.hostMemRead 0 0x1000 64) s0 = true
    ∧ goes (.hostSnoop 130) { s0 with hub := { s0.hub with coherent := [(128, 64)] } } = true
    ∧ ({ s0 with hub := { s0.hub with coherent := [(128, 64)] } } : State).hostCoherent (130 / 64 * 64) = true := by decide +kernel
def inState (n : BitVec 4) (time : Nat) : State := { s0 with hub := { s0.hub with state := n }, time := time }
theorem witness_boot : (inState 1 0).hub.state = 1 ∧ checkImage [] = some 2 ∧ goes (.start []) (inState 1 0) = true
    ∧ goes (.start []) (inState 4 0) = true ∧ goes .clrf (inState 5 0) = true ∧ goes .clrf (inState 4 0) = true
    ∧ goes .bootStartTimeout (inState 1 (30000 * 1000000)) = true ∧ 30000 * 1000000 ≤ (inState 1 (30000 * 1000000)).time
    ∧ goes .firmwareRunning (inState 3 (10000 * 1000000)) = true
    ∧ goes .firmwareStartTimeout (inState 3 (10000 * 1000000 + 1)) = true
    ∧ goes (.firmwareStartFailure 7) (inState 3 0) = true ∧ after (.barRegisterWrite ⟨0, 4⟩ 3) (inState 1 0) (fun t => decide (t.hub.state = 2)) = true
    ∧ after (.barRegisterWrite ⟨0, 4⟩ 3) (inState 5 0) (fun t => decide (t.hub.state = 0)) = true
    ∧ goes (.barRegisterWrite ⟨0, 4⟩ 3) s0 = true ∧ goes (.barRegisterWrite ⟨0, 8⟩ 1) s0 = true ∧ (67108863 : Nat) < windowBytes
    ∧ after (.barRegisterWrite ⟨2, 4⟩ 0x04030201) s0 (fun t => decide (t.hub.image = [0, 0, 0, 0, 1, 2, 3, 4])) = true
    ∧ (inState 2 0).hub.state = 2 ∧ checkImage (inState 2 0).hub.image = some 2 ∧ State.reset.turn = none
    ∧ State.reset.hub.state = 0 := by decide +kernel
/-- A context descriptor: six ways for the reservoir store, a timeout of one second, and the tables of every die. -/
def desc0 : List Byte :=
  leBytes 8 0x10008 ++ leBytes 8 0x100000 ++ [6, 0, 11, 0] ++ leBytes 4 1 ++ leBytes 8 0x1000 ++ List.replicate 96 0
def sDesc : State := s0.updDie 0 fun d => { d with mem := writeBytes d.mem 0x6000 desc0 }
theorem witness_contexts : sDesc.hub.state = 4
    ∧ descBad (sDesc.hdmBytes 0x6000 128) 4 = none ∧ (descBad (sDesc.hdmBytes 0x7000 128) 4).isSome = true ∧ s0.ctxNums ≠ [] ∧ 9 ∉ s0.ctxNums ∧ (inState 4 0).hub.state = 4
    ∧ goes (.declareRanges [(0, 64)] []) { inState 4 0 with ctx := none } = true
    ∧ goes (.destroyContext 1) s0 = true ∧ goes (.destroyContext 1) sSaved = true ∧ goes (.destroyContext 9) s0 = true
    ∧ 1 ∉ sSaved.others.map (·.ctx.num) ∧ sBeside.ctxNum ≠ 2 ∧ saved2 ∈ sBeside.others ∧ saved2.ctx.num = 2
    ∧ goes (.destroyContext 2) sBeside = true ∧ s0.ctx ≠ none ∧ goes (.createContext 0x6000) sDesc = true
    ∧ goes (.createContext 0x6000) { sDesc with ctx := none } = true ∧ goes (.createContext 0x7000) sDesc = true := by
  decide +kernel

/-! ### Witnesses: the step -/

/-- A step answers a next state that passes a check. -/
noncomputable def stepped (s : State) (p : State → Bool) : Bool :=
  match step s with
  | .next t => p t
  | _ => false
/-- What the statement about a step asks of the warp whose turn it is. -/
def turnOk (s : State) : Bool :=
  decide (s.turn = some 1) && (({ s with turn := none } : State).focus 1).any fun f =>
    decide (f.w.id ≠ 0) && !(f.stopped f.g.die) && !f.w.ended && !f.w.halted && f.w.sleep.isNone && f.w.sched.active
      && f.w.mcPend.isEmpty && f.w.ra.isNone
def f1 (s : State) : State := { s with turn := none }
/-- The word at the run's address is fetched, and no breakpoint and no entry of the warp stands before it. -/
def fetchesWord (s : State) : Bool :=
  let f := f1 s
  f.w.run.any fun r => decide (r.mask ≠ 0) && !f.stalled && (f.fetchCheck r.pc.toNat).2.isNone
    && ((f.fetchCheck r.pc.toNat).1.wordBad r.pc.toNat).isNone && !((f.fetchCheck r.pc.toNat).1.breaksAt r.pc) && ((f.fetchCheck r.pc.toNat).1.resumableAt r.pc r.mask).isNone
def sIll : State := State.reset.withFetchWord 64 0
theorem witness_step_word : turnOk s0 = true ∧ fetchesWord s0 = true ∧ turnOk sIll = true ∧ fetchesWord sIll = true
    ∧ (let p := ((f1 s0).fetchCheck r0.pc.toNat).1
       placeReasons (p.wordBits r0.pc.toNat) r0.pc.toNat (p.decodeCtx true).last = []
        ∧ decodeWith (p.decodeCtx true) (p.wordBits r0.pc.toNat) = .ok (.nop .w64)
        ∧ p.clearPass.parityLanes (wordRegs (p.decodeCtx true) (p.wordBits r0.pc.toNat)).1 = 0
        ∧ goes (.nop .w64) p.clearPass = true)
    ∧ (let p := ((f1 sIll).fetchCheck r0.pc.toNat).1
       lowest (clauseReasons (p.decodeCtx true) (p.wordBits r0.pc.toNat) r0.pc.toNat) = some 1
        ∧ goes (.illegalInstruction 1) p.clearPass = true) := by decide +kernel
theorem witness_step_clause : turnOk sHdr = true ∧ (f1 sHdr).w.run = none ∧ (f1 sHdr).preempted = false
    ∧ (f1 sHdr).w.carving = false
    ∧ ((f1 sHdr).w.pick.any fun h => decide (h.ent.mid = none) && !((f1 sHdr).fetchHeld h.pc.toNat) && ((f1 sHdr).fetchCheck h.pc.toNat).2.isNone
        && (((f1 sHdr).fetchCheck h.pc.toNat).1.wordBad h.pc.toNat).isNone && ((f1 sHdr).fetchCheck h.pc.toNat).1.headerAt h.pc.toNat
        && (headerReasons ((((f1 sHdr).fetchCheck h.pc.toNat).1.wordBits h.pc.toNat).extractLsb' 0 64)).isEmpty
        && goes (.clauseStart (((f1 sHdr).fetchCheck h.pc.toNat).1.header h.pc)) (f1 sHdr)) = true := by decide +kernel
theorem witness_steps_run : stepped s0 (fun t => decide (t.w.run = none)) = true
    ∧ stepped sIll (fun t => t.w.inHandler && decide (t.w.th.cause = 3) && decide (t.w.th.info = infoWord 0 1)) = true
    ∧ stepped sHdr (fun t => decide (t.w.run = some r0)) = true := by decide +kernel
theorem witness_package_form : PackageForm s0 := by
  unfold PackageForm; decide +kernel
theorem witness_start_fails : ∀ n ∈ [0, 1, 2], checkImage (stage (({ State.reset with hub := { fails := n, state := 1 } } : State).hub.image) 0 []) = some 2
    ∧ ({ State.reset with hub := { fails := n, state := 1 } } : State).hub.state = 1 := by decide +kernel

/-! ### Results that the specification works out -/

def withV (s : State) (r : Nat) (x : Word) : State := s.setV r 0xFFFFFFFF fun _ => x
/-- "TRAP #5" (R463): info holds the argument in bits 31 to 16. -/
theorem test_trap : after (.trap { f0 with sa := .imm 5 }) s0 (fun t => decide (t.w.th.info = 0x00050000) && t.w.inHandler) = true := by
  decide +kernel
/-- The integer chapter: lane 0 of ISUB.cc v1, v0, #16 gives −16, and (lt) holds. -/
theorem test_isub : after (.isub { f0 with wcc := true, dst := 1, sa := .laneIdx, sb := .imm 16 }) s0
    (fun t => decide (t.v 1 0 = 0xFFFFFFF0) && (t.codes 0).n && !(t.codes 0).v && !(t.codes 16).n) = true := by decide +kernel
/-- Its carry chain: IADD.cc v8, v4, v6 then IADDC.cc v9, v5, v7. -/
def sMore : State := onWarp s0 fun w => { w with run := some { r0 with left := 3 } }
def sSum : State := withV (withV (withV (withV sMore 4 0xFFFFFFF0) 5 1) 6 0x20) 12 0xFFFFFFF0
theorem test_carry_chain : after (.iadd { f0 with wcc := true, dst := 8, sa := .lane 4, sb := .lane 6 }) sSum (fun t =>
    decide (t.v 8 0 = 0x10) && decide (t.codes 0 = { n := false, z := false, c := true, v := false })
      && after (.iaddc { f0 with wcc := true, dst := 9, sa := .lane 5, sb := .lane 7 }) t (fun q =>
        decide (q.v 9 0 = 2) && decide (q.codes 0 = { n := false, z := false, c := false, v := false }))) = true := by
  decide +kernel
/-- IADD.s32.sat.cc v10, w0, #32 and IADD.n32.sat.cc v11, v12, #32. -/
theorem test_saturating_adds : after (.iadd { f0 with wcc := true, md := 1, dst := 10, sa := .uni 0, sb := .imm 32 })
      (onWarp s0 fun w => { w with u := [(0, 0x7FFFFFF0)] })
      (fun t => decide (t.v 10 0 = 0x7FFFFFFF) && decide (t.codes 0 = { n := true, z := false, c := false, v := true })) = true
    ∧ after (.iadd { f0 with wcc := true, md := 3, dst := 11, sa := .lane 12, sb := .imm 32 }) sSum
      (fun t => decide (t.v 11 0 = 0xFFFFFFFF) && decide (t.codes 0 = { n := false, z := false, c := true, v := true })) = true := by
  decide +kernel
/-- The float chapter: v1 = v2 = 1 + 2^-23 and v7 = -(1 + 2^-22). -/
def sFma : State := withV (withV (withV s0 1 0x3F800001) 2 0x3F800001) 7 0xBF800002
theorem test_ffma : after (.ffmaF32 { f0 with dst := 3, sa := .lane 1, sb := .lane 2, sc := .lane 7 }) sFma
    (fun t => decide (t.v 3 0 = 0x28800000) && decide (t.w.sticky = 0)) = true := by decide +kernel
theorem test_fmul : after (.fmulF32 { f0 with dst := 4, sa := .lane 1, sb := .lane 2 }) sFma
    (fun t => decide (t.v 4 0 = 0x3F800002) && decide (t.w.sticky = flNX)) = true := by decide +kernel
theorem test_ffma_rdn_neg : after (.ffmaF32 { f0 with md := 2, neg := true, dst := 6, sa := .lane 1, sb := .lane 2, sc := .lane 7 }) sFma
    (fun t => decide (t.v 6 0 = 0xC0000003) && decide (t.w.sticky = flNX)) = true := by decide +kernel
/-- Slot fs3 = 0x30104000: a block of largest magnitude 21 takes scale 0x181, and 30.0 encodes as 7 with OF and NX. -/
def sQ4 : State := { s0 with g := { s0.g with lrec := s0.g.lrec ||| (0x30104000#2048 <<< (256 + 64 * 3)) } }
theorem test_qscl : after (.qscl { f0 with md := 0x18, dst := 5, sa := .lane 4, sb := .imm 0 }) (withV sQ4 4 0x41A80000)
    (fun t => decide (t.v 5 0 = 0x181)) = true := by decide +kernel
theorem test_qenc : [(0xC1A80000, 0xF), (0x3FA66666, 1), (0x41200000, 4), (0x41400000, 5), (0x41F00000, 7)].all (fun p =>
    after (.qencF32 { f0 with md := 0x18, dst := 9, sa := .lane 4, sb := .lane 5 }) (withV (withV sQ4 4 p.1) 5 0x181)
      (fun t => decide (t.v 9 0 = p.2))) = true := by decide +kernel
theorem test_qdec : [(0xF, 0xC1C00000), (1, 0x40000000), (4, 0x41000000), (5, 0x41400000), (7, 0x41C00000)].all (fun p =>
    after (.qdecF32 { f0 with md := 0x98, dst := 9, sa := .lane 4, sb := .lane 5, sc := .zero }) (withV (withV sQ4 4 p.1) 5 0x181)
      (fun t => decide (t.v 9 0 = p.2))) = true := by decide +kernel
/-- The cross-lane chapter: lanes 0 to 7 run, lane 0 with 2^24 and the others with 1. -/
def sRed : State :=
  (onWarp s0 fun w => { w with run := some { r0 with mask := 0xFF } }).setV 1 0xFF fun l => if l = 0 then 0x4B800000 else 0x3F800000
theorem test_wred_fadd : after (.wredFadd { f0 with dst := 2, sa := .lane 1 }) sRed
    (fun t => (List.range 8).all (fun l => decide (t.v 2 l = 0x4B800003)) && decide (t.w.sticky = flNX)) = true := by decide +kernel
theorem test_wscan_fadd : after (.wscanFadd { f0 with dst := 3, sa := .lane 1 }) sRed
    (fun t => (List.range 8).all (fun l => decide (t.v 3 l = 0x4B800000)) && decide (t.w.sticky = flNX)) = true := by decide +kernel
theorem test_shfl_down : after (.shflDown { f0 with md := 2, dst := 3, sa := .lane 1, sb := .imm 1 }) sRed
    (fun t => (List.range 8).all fun l => decide (t.v 3 l = 0x3F800000)) = true := by decide +kernel
/-- R350 to R353. -/
theorem test_philox : (List.range 4).map (philox 0 0) = [0x6627E8D5, 0xE169C58D, 0xBC57AC4C, 0x9B00DBD8]
    ∧ unitOf 0x6627E8D5 = 0x3ECC4FD0 ∧ rnd24 0 0 0 = 6694888 ∧ rnd24 0 0 1 = 14772677 := by decide +kernel
theorem test_sobol : nest 1 0 = 0x2536CA49 ∧ owen 0x80000000 0 = 0x92536CA4
    ∧ [1, 2, 3].map (sobolRaw · 0) = [0x80000000, 0x40000000, 0xC0000000]
    ∧ [1, 2, 3].map (sobolRaw · 1) = [0x80000000, 0xC0000000, 0x40000000] := by decide +kernel
/-- The ray chapter's box node and triangle, and the ray that meets it. -/
def sTri (opq fl : Word) : State :=
  let node : BitVec 1024 := (0x4000000002000080#1024 <<< 512) ||| (0x00FFFF000000#1024 <<< 128) ||| (0x01777777#1024 <<< 96)
  let f1 : Word := 0x3F800000
  let tri : List Word := [0, 0, 0, f1, 0, 0, 0, f1, 0, 7, 0, opq]
  let mem (m : Sparse Byte) : Sparse Byte :=
    writeBytes (writeBytes m 0x2000000 (leBytes 128 node.toNat)) 0x2000080 (tri.flatMap fun w => leBytes 4 w.toNat)
  let s1 := s0.updDie 0 fun d => { d with mem := mem d.mem }
  let ray : List Word := [0x3E800000, 0x3F000000, 0xC0000000, 0, 0, 0, f1, 0x42C80000]
  let s2 := onWarp { s1 with nextId := 8 } fun w => { w with u := [(2, 0x2000000), (4, fl)] }
  let s3 := (ray.zipIdx).foldl (fun s p => s.setV (8 + p.2) 1 fun _ => p.1) s2
  let f : FmtA := { f0 with dst := 16, sa := .lane 8, sb := .uni 4, sc := .uni 2 }
  { s3 with c := { s3.c with rayq := [{ s3.mkOp 0x160 f x0 [8, 1, 2] 1 with id := 7, cls := some .ray }] } }
def octet (t : State) : List Word := (List.range 8).map fun i => t.v (16 + i) 0
theorem test_trace_hit : after (.rayOperationComplete 7) (sTri 1 0xFF)
    (fun t => decide (octet t = [0x10000000, 0x40000000, 0x3E800000, 0x3F000000, 7, 0xFFFFFFFF, 0, 1])) = true := by decide +kernel
theorem test_trace_culled : after (.rayOperationComplete 7) (sTri 1 0x1FF)
    (fun t => decide ((octet t).take 6 = [0, 0x42C80000, 0, 0, 0, 0])) = true := by decide +kernel
theorem test_trace_candidate : after (.rayOperationComplete 7) (sTri 0 0xFF)
    (fun t => decide ((octet t).take 6 = [0x20000000, 0x40000000, 0x3E800000, 0x3F000000, 7, 0xFFFFFFFF])) = true := by decide +kernel
/-- Its walk of two lights. -/
def sLights : State :=
  let node (x y pw li ri : Word) (leaf : Nat) : List Byte :=
    [x, y, 0, 0, pw, li, ri].flatMap (fun w => leBytes 4 w.toNat) ++ leBytes 4 leaf
  let bs := node 0 0 0 1 2 0 ++ node 0x40000000 0 0x41000000 3 0 1 ++ node 0 0x40800000 0x41800000 9 0 1
  let s1 := s0.updDie 0 fun d => { d with mem := writeBytes d.mem 0x2000000 bs }
  let s2 := onWarp { s1 with nextId := 8 } fun w => { w with u := [(8, 0x2000000)] }
  let f : FmtA := { f0 with dst := 24, sa := .lane 8, sb := .lane 12, sc := .uni 8 }
  { s2 with c := { s2.c with rayq := [{ s2.mkOp 0x167 f x0 [3, 2, 4] 1 with id := 7, cls := some .ray }] } }
theorem test_ltwalk : after (.rayOperationComplete 7) sLights
    (fun t => decide ((List.range 4).map (fun i => t.v (24 + i) 0) = [3, 0x3F2AAAAB, 0, 1])) = true := by decide +kernel
/-- The reservoir chapter's steps on the record of pixel (5, 3). -/
def cand (key phat w pay fl rnd : Word) : List Word := [key, phat, w, pay, 0x40000000, 0x40400000, fl, rnd]
def rec2 : Rec × Nat := (Rec.ofBits 0).update (cand 0x11 0x40000000 0x40400000 0x3F800000 2 0xFFFFFF00) 65535
def rec3 : Rec × Nat := rec2.1.update (cand 0x22 0x40800000 0x3F800000 0x3F800000 2 0x40000000) 65535
def rec4 : Rec := rec3.1.normalise
def recSrc : Rec :=
  { key := 0x33, phat := 0, wsum := 0, wt := 0x3F000000, m := 3, lyr := 0, res := 0, age := 5, valid := true
    pay := 0x3F8000000000000000000000 }
def rec5 : Rec × Bool := rec4.merge recSrc 0x3F800000 0x200000 4
def fields (r : Rec) : List Word := (List.range 5).map fun i => r.toBits.extractLsb' (32 * i) 32
theorem test_reservoir_updates : fields rec2.1 = [0x11, 0x40000000, 0x40400000, 0, 0x80020001] ∧ rec2.2 = 1
    ∧ fields rec3.1 = [0x11, 0x40000000, 0x40800000, 0, 0x80020002] ∧ rec3.2 = 0 ∧ rec4.wt = 0x3F800000 := by decide +kernel
theorem test_reservoir_merge : fields rec5.1 = [0x33, 0x3F800000, 0x40B00000, 0x3F800000, 0x85000004] ∧ rec5.2 = true
    ∧ rec5.1.normalise.wt = 0x3FB00000 ∧ leBytes 32 rec5.1.normalise.toBits.toNat
      = [0x33, 0, 0, 0, 0, 0, 0x80, 0x3F, 0, 0, 0xB0, 0x40, 0, 0, 0xB0, 0x3F, 4, 0, 0, 0x85, 0, 0, 0, 0, 0, 0, 0, 0, 0, 0, 0x80, 0x3F] := by
  decide +kernel
/-- The matrix chapter's pass: the terms of columns 0 to 2, and the accumulators that they reach. -/
def rowA : List FVal := [0x3F80, 0x4040, 0x3580, 0xBF00].map (fval bf16)
def colB (codes : List Nat) (ty : Nat) (k : Int) : List FVal := codes.map fun c => (q4Val c ty).scale k
theorem test_matrix_columns :
    (segTerm false rowA (colB [7, 0xE, 1, 4] 0 0)).bits = 0xBF800000
    ∧ (accAdd false 0x40000000 0xBF800000).bits = 0x3F800000
    ∧ (segTerm false rowA (colB [1, 0, 0, 0] 0 0)).bits = 0x3F800000
    ∧ (accAdd false 0x4B800000 0x3F800000).bits = 0x4B800000 ∧ (accAdd false 0x4B800000 0x3F800000).fl = flNX
    ∧ (segTerm false rowA (colB [3, 0, 0, 0] 1 2)).bits = 0x40C00000 := by decide +kernel
/-- The ordering chapter: lanes 2 and 5 each add 1 to one word that holds 7. -/
def oAtom : Op :=
  { s0.mkOp 0x110 { f0 with dst := 6, sa := .zero, sb := .imm 1 } { x0 with space := 1 } [1, 1, 0] 0x24 with id := 7, st := .running }
def sAtom : State := { sPend oAtom with g := { s0.g with scratch := [(0, 7)] } }
theorem test_atomic : after (.loadDataArrival 7) sAtom
    (fun t => decide (t.v 6 2 = 7) && decide (t.v 6 5 = 8) && decide (t.g.scratch = [(0, 9)])) = true := by decide +kernel

/-! ### Witnesses: rounding, global stores, promotions -/

theorem witness_rounding : ∀ fm ∈ [f32, f16, bf16], (1 : Nat) ≠ 0
    ∧ (((1 : Nat) : ℚ) * (2 : ℚ) ^ (0 : Int) < magnitude fm fm.infBits)
    ∧ magnitude fm fm.infBits ≤ ((1 : Nat) : ℚ) * (2 : ℚ) ^ (200 : Int) := by
  intro fm h
  simp only [List.mem_cons, List.not_mem_nil, or_false] at h
  rcases h with rfl | rfl | rfl <;> norm_num [magnitude, f32, f16, bf16, Fmt.infBits, Fmt.bias, zpow_ofNat]
/-- No die of the machine that a promotion finds relocks. -/
theorem no_relock_racq : ∀ p, (sRacq.dieAt p).relock = none := by
  have hd : ∀ d ∈ sRacq.dies, d.relock = none := by decide +kernel
  intro p
  unfold State.dieAt
  cases hp : sRacq.dies[p]? with
  | none => rfl
  | some d => exact hd d (List.mem_of_getElem? hp)
def rel0 : Release := { slice := 0, line := 0, core := 5, ctx := 1, scope := 1 }
theorem witness_promotion_goes : sRacq.racqEntry sRacq.g.die sRacq.g.core (oRacq.loc 0) = some rel0 ∧ rel0.ctx = sRacq.ctxNum
    ∧ (∀ k ∈ oRacq.askers, ∀ q ∈ oRacq.parts k, (sRacq.racqEntry sRacq.g.die sRacq.g.core (oRacq.loc q.1)).isSome = true →
        sRacq.racqEntry sRacq.g.die sRacq.g.core (oRacq.loc q.1) = some rel0 ∧ (oRacq.loc q.1).own = (oRacq.loc 0).own)
    ∧ sRacq.w.id ≠ 0 ∧ sRacq.ctx.isSome = true ∧ goes (.promotionRequest 7) sRacq = true := by decide +kernel
theorem witness_promotion_now : ∀ own r, r ∈ (sRacq.die own).rel → sRacq.promoteWaits own r = false := by
  intro own r hr
  have hd : ∀ d ∈ sRacq.dies, ∀ r ∈ d.rel, r = rel0 := by decide +kernel
  have h0 : r = rel0 := by
    unfold State.die State.dieAt at hr
    cases hp : sRacq.dies[sRacq.phys own]? with
    | none => simp [hp] at hr
    | some d => rw [hp] at hr; exact hd d (List.mem_of_getElem? hp) r hr
  have hs : (sRacq.swapTo 1).stopped 0 = false ∧ (sRacq.swapTo 1).releaseWaits 0 5 = false := by decide +kernel
  subst h0
  have hc : rel0.core / 160 = 0 ∧ rel0.core % 160 = 5 ∧ rel0.ctx = 1 := by decide
  unfold State.promoteWaits
  simp [State.posHeld, no_relock_racq, hs.1, hs.2, hc]
/-- A store, a zeroing store, a reduction and an atomic of lane 0 on the first word of window 0. -/
def oGlob (code : Nat) : Op :=
  { opOf code x0 .running with e := 1, xl := [{ page := 0, size := 2 ^ 20, frame := 0, leaf := 0xFFF, own := 0, status := 0 }] }
theorem witness_global_bytes : ∀ code ∈ [0xE8, 0x101, 0x126, 0x110],
    (sPend (oGlob code)).focusOp 7 = some (oGlob code, sPend (oGlob code)) ∧ Performs (sPend (oGlob code)) (oGlob code)
    ∧ ((sPend (oGlob code)).chunksShort (oGlob code)).1 = 0 ∧ HubDone (sPend (oGlob code)) (oGlob code) ∧ (oGlob code).kept = []
    ∧ (sPend (oGlob code)).tagHeld (oGlob code) = false := by unfold Performs HubDone; decide +kernel
theorem witness_global_kinds : storeCode 0xE8 = true ∧ stzCode 0xE8 = false ∧ storeCode 0x101 = true ∧ stzCode 0x101 = true
    ∧ redCode 0x126 = true ∧ atomCode 0x110 = true := by decide +kernel
/-- The four bytes of the store find room, and lie apart from the word that follows. -/
theorem witness_room : (globalBytes (oGlob 0xE8)).length = 4
    ∧ (∀ k < 4, ∀ x, (globalBytes (oGlob 0xE8))[k]? = some x → Room (stored (oGlob 0xE8) (sPend (oGlob 0xE8)) k) ((oGlob 0xE8).loc x.1))
    ∧ ∀ x ∈ (globalBytes (oGlob 0xE8)).take 4, Apart (sPend (oGlob 0xE8)) ((oGlob 0xE8).loc x.1) ((oGlob 0xE8).loc 4) := by
  have h : (globalBytes (oGlob 0xE8)).length = 4 ∧ (∀ k < 4, ∀ x ∈ ((globalBytes (oGlob 0xE8))[k]?).toList,
      Room (stored (oGlob 0xE8) (sPend (oGlob 0xE8)) k) ((oGlob 0xE8).loc x.1))
      ∧ ∀ x ∈ (globalBytes (oGlob 0xE8)).take 4, Apart (sPend (oGlob 0xE8)) ((oGlob 0xE8).loc x.1) ((oGlob 0xE8).loc 4) := by
    unfold Room Apart; decide +kernel
  exact ⟨h.1, fun k hk x hx => h.2.1 k hk x (by simp [hx]), h.2.2⟩
/-- A machine with a home line of the first word, for the zeroing store. -/
def sHome : State := (sPend (oGlob 0x101)).updDie 0 fun d => { d with l2 := [{ tag := 0, ctx := 0, slice := sliceOf 0, valid := 15 }] }
theorem witness_zeroing : (∀ i < 4, ((oGlob 0x101).loc (0 + i)).own < 4 → (sHome.homeLine ((oGlob 0x101).loc (0 + i))).isSome = true)
    ∧ 0 % 128 + 4 ≤ 128 ∧ (∀ i < 4, Apart sHome ((oGlob 0x101).loc (0 + i)) ((oGlob 0x101).loc 4)) := by unfold Apart; decide +kernel
theorem witness_one_line : OneLine sHome 0 := by
  have h : sHome.l1Line sHome.g.die sHome.g.core 0 = none ∧ sHome.guestLine sHome.g.die 0 = none
      ∧ (sHome.core sHome.g.die (sHome.l1Core sHome.g.die sHome.g.core 0)).l1 = [] ∧ (sHome.die sHome.g.die).guest = [] := by decide +kernel
  refine ⟨by rw [h.2.2.1]; simp, by rw [h.2.2.2]; simp, ?_⟩
  intro l hl
  simp [h.1, h.2.1] at hl
/-- A load of scratch is performed whole. -/
theorem witness_load_whole : (sPend (opOf 0xE2 xScr .running)).loadPart (opOf 0xE2 xScr .running) = (opOf 0xE2 xScr .running).e := by
  decide +kernel
theorem witness_release_free : s0.releaseWaits s0.g.die s0.g.core = false ∧ sWgEnd.releaseWaits sWgEnd.g.die sWgEnd.g.core = false
    ∧ ({ s0 with ctx := some (kNode (graphQ [])) } : State).diesWait (graphQ []).aff (graphQ []).cscope = false := by decide +kernel

/-! ### Witnesses: reservations, splits, copies of each kind and groups -/

/-- A CHPROD.rsv whose reservation may fire. -/
def oRsvd : Op := oIs 0x142 f0 x0 [0, 1, 0] s0.m0
def sRsvd : State :=
  (sWait oRsvd).setChan 0 { dfn := true, lsz := 0, base := 0, pp := 16, outs := [{ op := 7, warp := 1, p := 0, n := 16, byPub := true }] }
theorem witness_reservation_word : sRsvd.focusWg 2 = some sRsvd
    ∧ ((sRsvd.chan 0).outs.find? (fun r => !r.fired)).any (fun r => r.byPub && decide (r.op = 7) && (sRsvd.chan 0).mayFire r) = true
    ∧ sRsvd.findOp 7 = some oRsvd ∧ (sRsvd.warpOf oRsvd.warp).isSome = true
    ∧ (∀ v ∈ sRsvd.warps, ∀ p ∈ v.waits, p.code ≠ 0x140 ∧ p.code ≠ 0x141 ∧ p.code ≠ 0x145)
    ∧ after (.channelReservationFire 2 0) sRsvd (fun t => t.w.waits.isEmpty) = true := by decide +kernel
/-- The split is what a CARVE asks for when its turn comes. -/
theorem witness_carve_same : s0.c.ways = 4 ∧ (sWait (oCarve 4)).w.waits.find? (fun o => o.code == 0xF9) = some (oCarve 4)
    ∧ after (.carveApply 1) (sWait (oCarve 4)) (fun t => decide (t.c.ways = 4 ∧ t.g.size = s0.g.size)) = true := by decide +kernel
/-- A check that has found its translations. -/
def isOk {α β : Type} : Option (Except α β) → Bool
  | some (.ok _) => true
  | _ => false
theorem of_isOk {α β γ : Type} {r : α × Option (Except β γ)} (h : isOk r.2 = true) : ∃ s xs, r = (s, some (.ok xs)) := by
  obtain ⟨s, o⟩ := r
  match o, h with
  | some (.ok xs), _ => exact ⟨s, xs, rfl⟩
/-- A copy of 8 bytes of each kind with global memory: from scratch, within it, a tile into scratch, and a fill. -/
def oCopy (code : Nat) : Op :=
  { oIs code (if code = 0x149 then { fEight with sc := .litZ, lit := some 0x10008 } else fEight)
      { x0 with space := if code = 0x147 ∨ code = 0x149 then 1 else 0 } [2, 2, if code = 0x149 then 2 else 1] s0.m0 with
    cls := some .copy }
def sCopy (code : Nat) : State := sCore fun c => { c with copyq := [oCopy code] }
theorem copy_turn (code : Nat)
    (next : ((sCopy code).chunks (oCopy code))[(oCopy code).chunk]? = some (0, 8))
    (turn : (sCopy code).copyTurn (oCopy code) = true) (hf : (oCopy code).inFlight = false) (hc : (oCopy code).code ≠ 0x14A)
    (free : (sCopy code).chunkHeld (oCopy code) 0 8 = false)
    (h1 : ∃ s1 xs, checkPieces (sCopy code) .read ((oCopy code).chunkReads 0) = (s1, some (.ok xs))
      ∧ ∃ s2 ys, checkPieces s1 .write ((oCopy code).chunkWrites 0 8) = (s2, some (.ok ys)) ∧ s2.bad = []) :
    Nonempty (CopyTurn (sCopy code) (oCopy code)) := by
  obtain ⟨s1, xs, h1, s2, ys, h2, hb⟩ := h1
  exact ⟨{ pos := 0, len := 8, xs := xs, ys := ys, s1 := s1, s2 := s2, next := next
           turn := ⟨⟨oCopy code, List.mem_singleton.2 rfl, rfl⟩, hc, turn, hf⟩
           free := free, first := h1, then_ := h2, good := hb }⟩
/-- Two checks one after the other find their translations. -/
theorem both_ok (s : State) (ps qs : List Nat)
    (h1 : isOk (checkPieces s .read ps).2 = true) (h2 : isOk (checkPieces (checkPieces s .read ps).1 .write qs).2 = true)
    (hb : (checkPieces (checkPieces s .read ps).1 .write qs).1.bad = []) :
    ∃ s1 xs, checkPieces s .read ps = (s1, some (.ok xs)) ∧ ∃ s2 ys, checkPieces s1 .write qs = (s2, some (.ok ys)) ∧ s2.bad = [] := by
  obtain ⟨s1, xs, e1⟩ := of_isOk h1
  rw [e1] at h2 hb
  obtain ⟨s2, ys, e2⟩ := of_isOk h2
  rw [e2] at hb
  exact ⟨s1, xs, e1, s2, ys, e2, hb⟩
theorem witness_copies : ∀ code ∈ [0x147, 0x148, 0x149, 0x14B], InFocus (sCopy code) 7 (oCopy code) (sCopy code)
    ∧ Nonempty (CopyTurn (sCopy code) (oCopy code)) ∧ goes (.copyChunkStart 7) (sCopy code) = true := by
  have h : ∀ code ∈ [0x147, 0x148, 0x149, 0x14B], InFocus (sCopy code) 7 (oCopy code) (sCopy code)
      ∧ ((sCopy code).chunks (oCopy code))[(oCopy code).chunk]? = some (0, 8) ∧ (sCopy code).copyTurn (oCopy code) = true
      ∧ (oCopy code).inFlight = false ∧ (oCopy code).code ≠ 0x14A ∧ (sCopy code).chunkHeld (oCopy code) 0 8 = false
      ∧ isOk (checkPieces (sCopy code) .read ((oCopy code).chunkReads 0)).2 = true
      ∧ isOk (checkPieces (checkPieces (sCopy code) .read ((oCopy code).chunkReads 0)).1 .write ((oCopy code).chunkWrites 0 8)).2 = true
      ∧ (checkPieces (checkPieces (sCopy code) .read ((oCopy code).chunkReads 0)).1 .write ((oCopy code).chunkWrites 0 8)).1.bad = []
      ∧ goes (.copyChunkStart 7) (sCopy code) = true := by unfold InFocus NoWaits; decide +kernel
  intro code hc
  obtain ⟨hi, hn, ht, hf, ha, hh, h1, h2, hb, hg⟩ := h code hc
  exact ⟨hi, copy_turn code hn ht hf ha hh (both_ok _ _ _ h1 h2 hb), hg⟩
/-- A group of one workgroup, whose arrival ends its phase, and of two, where it does not; a warp of it waits at the barrier. -/
def sGroups (ms : List Nat) (sync : Sync) : State :=
  { onWarp sGroup (fun w => { w with sync := sync }) with
    ctx := some { k0 with launches := [{ num := 1, lrec := placeRec, started := [0], groups := [ms] }] } }
theorem witness_groups : ∀ sync ∈ [({} : Sync), { hold := s0.m0, kind := .gbar, arrived := true }, { hold := s0.m0, kind := .gcoll, arrived := true }],
    (sGroups [0] sync).groupArrives (sGroups [0] sync).g 0 = true
    ∧ (sGroups [0] sync).launchOf 1 = some { num := 1, lrec := placeRec, started := [0], groups := [[0]] }
    ∧ ((hubArrivals { k0 with launches := [{ num := 1, lrec := placeRec, started := [0], groups := [[0]] }] } 1 0).1 ++ [0]) = [0]
    ∧ (((sGroups [0] sync).g :: (sGroups [0] sync).gs).map (·.id)).Nodup ∧ ((sGroups [0] sync).warps.map (·.id)).Nodup
    ∧ (sGroups [0] sync).stopped 0 = false
    ∧ after (.groupBarrierArrival 2 0) (sGroups [0] sync) (fun t => decide ((t.g.bars.get {} 16).ph = true) && decide (t.w.sync = {})) = true
    ∧ (sGroups [0, 1] sync).groupArrives (sGroups [0, 1] sync).g 0 = true
    ∧ (sGroups [0, 1] sync).memberEnded { num := 1, lrec := placeRec, started := [0], groups := [[0, 1]] } 1 = false
    ∧ goes (.groupBarrierArrival 2 0) (sGroups [0, 1] sync) = true := by decide +kernel
theorem witness_group_stopped : ((sGroups [0] {}).updDie 0 fun d => { d with relock := some 5 }).stopped 0 = true
    ∧ ((sGroups [0] {}).updDie 0 fun d => { d with relock := some 5 }).groupArrives (sGroups [0] {}).g 0 = true
    ∧ after (.groupBarrierArrival 2 0) ((sGroups [0] {}).updDie 0 fun d => { d with relock := some 5 })
        (fun t => t.ctx.any fun k => decide (k.gheld.length = 1)) = true := by decide +kernel

/-! ### Witnesses: results of the matrix engine -/

/-- An operation at the head of the matrix queue: one group of columns, C in scratch from 0 on, rows of 256 bytes, one row of one
segment, and a list of one entry at 0. -/
def oMat (code : Nat) (x : Upper) : Op :=
  { oIs code { f0 with sa := .uni 0, sb := .zero } { x with ext := x.ext ||| 64 } [2, 1, 0] s0.m0 with
    cls := some .mtx, uv := [0, 0, 0x1000000, 0x10001, 0, 0, 1, 0, 0] }
def sMat (o : Op) (m : Mtx) (c : Chan) : State :=
  (sCore fun q => { q with mtxq := [o], mtx := m }).setChan 0 c
/-- Its channel, with the bytes of an input ready. -/
def chMat : Chan := { dfn := true, lsz := 3, base := 0, pp := 1024, wp := 1024, ins := [{ op := 7, n := 1024 }] }
def xMem : Upper := { x0 with space := 0 }
def xChan : Upper := { x0 with space := 2 }
theorem witness_matrix_words : ∀ o ∈ [oMat 0x150 xMem, oMat 0x150 xChan, oMat 0x151 x0, oMat 0x152 x0, oMat 0x153 x0,
      { oMat 0x154 x0 with chunk := 1, aux := [1, 0, 0] }, oMat 0x155 x0, oMat 0x156 { x0 with space := 1 }, oMat 0x158 xMem, oMat 0x159 x0,
      oMat 0x15A x0, oMat 0x15B x0],
    InFocus (sMat o {} chMat) 7 o (sMat o {} chMat) ∧ MtxTurn (sMat o {} chMat) o ∧ goes (.matrixOperationStart 7) (sMat o {} chMat) = true := by
  unfold InFocus MtxTurn InQueue NoWaits; decide +kernel
/-- A load of a column from memory finds its translation; one from a channel, and a pass of rows from one, their input. -/
theorem witness_matrix_loads : ∀ o ∈ [oMat 0x150 xMem, oMat 0x158 xMem], mtxLoad o.code = true ∧ o.x.space ≠ 2
    ∧ (∀ p ∈ pagesOf (o.colAddr o.chunk) ((sMat o {} chMat).colBytes o), (sMat o {} chMat).heldAt p .read = false)
    ∧ (sMat o {} chMat).warpFirst o (o.colAddr o.chunk) ((sMat o {} chMat).colBytes o) = false
    ∧ isOk (checkPieces (loadBegun (sMat o {} chMat) o) .read (pagesOf (o.colAddr o.chunk) ((sMat o {} chMat).colBytes o))).2 = true
    ∧ (checkPieces (loadBegun (sMat o {} chMat) o) .read (pagesOf (o.colAddr o.chunk) ((sMat o {} chMat).colBytes o))).1.bad = [] := by
  decide +kernel
theorem witness_matrix_inputs : ((loadBegun (sMat (oMat 0x150 xChan) {} chMat) (oMat 0x150 xChan)).takeInput (oMat 0x150 xChan)
        ((sMat (oMat 0x150 xChan) {} chMat).mtxCount (oMat 0x150 xChan))).isSome = true
    ∧ (oMat 0x150 xChan).chanNamed = some 0
    ∧ ((sMat (oMat 0x153 x0) {} chMat).takeInput (oMat 0x153 x0) (64 * (oMat 0x153 x0).kblk)).isSome = true
    ∧ (oMat 0x153 x0).chanNamed = some 0 := by decide +kernel
/-- The formats of a load: 16-bit in slot 0 as it stands, and Q4. -/
theorem witness_matrix_formats : slotFmtOf (s0.fslot 0) 1 ≠ 4 ∧ ∃ r : BitVec 2048,
    slotFmtOf (({ s0 with g := { s0.g with lrec := r } } : State).fslot 0) 1 = 4 ∧ ({} : Mtx).tagOf 1 = tagQ4 :=
  ⟨by decide +kernel, 0x400#2048 <<< 256, by decide +kernel⟩
/-- Entries of MSPASS in the entry buffer: a malformed one, one of a new row, one that is empty, and one with a tile; a block
row of one tile goes before them, or the list ends with it. -/
def oSp (chunk : Nat) (aux : List Nat) : Op := { oMat 0x154 x0 with chunk := chunk, aux := aux, uv := [0, 0, 0x1000000, 0x20008, 0, 0, 1, 0, 0] }
def sSp (o : Op) (e : Word128) : State := sMat o { ebuf := [(0, e)] } { chMat with lsz := 6, pp := 2048, wp := 2048, ins := [{ op := 7, n := 2048 }] }
def tile0 : List Nat := 0 :: List.replicate 1024 0
theorem witness_mspass_end : InFocus (sSp (oSp 1 ([1, 0] ++ tile0)) 0) 7 (oSp 1 ([1, 0] ++ tile0)) (sSp (oSp 1 ([1, 0] ++ tile0)) 0)
    ∧ MtxTurn (sSp (oSp 1 ([1, 0] ++ tile0)) 0) (oSp 1 ([1, 0] ++ tile0)) ∧ (oSp 1 ([1, 0] ++ tile0)).chunk = (oSp 1 ([1, 0] ++ tile0)).pb 6
    ∧ tilesOf 8 ((oSp 1 ([1, 0] ++ tile0)).aux.drop 2) ≠ [] ∧ 128 * mtxNc (oSp 1 ([1, 0] ++ tile0)).x ≤ (oSp 1 ([1, 0] ++ tile0)).cpitch := by
  unfold InFocus MtxTurn InQueue NoWaits; decide +kernel
/-- The entry that an operation takes next, where the buffer holds it. -/
def entryIs (s : State) (o : Op) (e : Word128) : Bool :=
  match s.mspEntry o with
  | (_, some (.ok x), none) => decide (x = e)
  | _ => false
theorem witness_mspass_entries : ∀ p ∈ [((oSp 0 []), (1 <<< 83 : Word128), true), (oSp 0 ([1, 0] ++ tile0), (1 <<< 64 : Word128), false),
      (oSp 0 [1, 8], (0x1000001 <<< 64 : Word128), false), (oSp 0 [], (0 : Word128), false)],
    MtxTurn (sSp p.1 p.2.1) p.1 ∧ p.1.chunk < p.1.pb 6 ∧ entryIs (sSp p.1 p.2.1) p.1 p.2.1 = true
    ∧ badEntry p.1.nrow p.1.aux p.2.1 = p.2.2 ∧ goes (.matrixOperationStart 7) (sSp p.1 p.2.1) = true := by
  unfold MtxTurn InQueue; decide +kernel
theorem witness_mspass_cases : (oSp 0 ([1, 0] ++ tile0)).aux[0]?.getD 0 ≠ entryRow (1 <<< 64) + 1 ∧ 2 < (oSp 0 ([1, 0] ++ tile0)).aux.length
    ∧ (0x1000001 <<< 64 : Word128).getLsbD 88 = true ∧ (0 : Word128).getLsbD 88 = false ∧ (oSp 0 []).aux.length ≤ 2
    ∧ ((sSp (oSp 0 []) 0).takeInput (oSp 0 []) 2048).isSome = true := by decide +kernel
/-- MACR into a channel whose reservation has fired, and MEPF. -/
def oMacr : Op := { oMat 0x156 xChan with aux := [0] }
def sMacr : State := sMat oMacr {} { dfn := true, lsz := 3, base := 0, pp := 64, outs := [{ op := 7, warp := 1, p := 0, n := 64, fired := true }] }
theorem witness_macr : InFocus sMacr 7 oMacr sMacr ∧ MtxTurn sMacr oMacr ∧ oMacr.chanNamed = some 0
    ∧ (∃ r ∈ (sMacr.chan 0).outs, r.op = oMacr.id ∧ r.p = (oMacr.aux[oMacr.chunk]?).getD 0 ∧ r.fired = true)
    ∧ goes (.matrixOperationStart 7) sMacr = true ∧ (oMat 0x156 { x0 with space := 1 }).chanNamed = none := by
  unfold InFocus MtxTurn InQueue NoWaits; decide +kernel
/-- MEPF of one entry: found and readable, not readable, or not mapped. -/
def oMepf (a : Word) : Op :=
  { oIs 0x157 { f0 with sa := .litZ, sb := .imm 1, lit := some a } x0 [2, 1, 0] s0.m0 with cls := some .mtx }
def sMepf (a : Word) (leaf : Nat) : State :=
  (sMat (oMepf a) {} {}).updDie 0 fun d => { d with mem := d.mem.set byte0 0x2000 (BitVec.ofNat 8 leaf) }
theorem witness_mepf : ∀ p ∈ [((0x100 : Word), 0xEF, true, true), (0x100, 0xE5, true, false), (0x40000000, 0xEF, false, false)],
    let s := sMepf p.1 p.2.1
    let o := oMepf p.1
    InFocus s 7 o s ∧ MtxTurn s o ∧ o.chunk < (o.val32 1 0).toNat ∧ s.heldAt ((o.gAddr + 16 * o.chunk) % 2 ^ 64) .quiet = false
    ∧ s.warpFirst o ((o.gAddr + 16 * o.chunk) % 2 ^ 64) 16 = false
    ∧ (match (checkPieces s .quiet (pagesOf ((o.gAddr + 16 * o.chunk) % 2 ^ 64) 16)).2 with
        | some (.ok xs) => p.2.2.1 && decide ((xs.all fun x => Kind.read.permitted x.leaf) = p.2.2.2)
        | some (.error _) => !p.2.2.1
        | none => false) = true
    ∧ goes (.matrixOperationStart 7) s = true := by
  unfold InFocus MtxTurn InQueue NoWaits; decide +kernel

/-! ### Witnesses: results of the ray unit -/

/-- A ray that a word takes from its lane, one towards -z, and a state of one such word whose lane holds a traversal record. -/
def rayZ : List Word := [0x3E800000, 0x3F000000, 0xC0000000, 0, 0, 0, 0x3F800000, 0x42C80000]
def rayStill : List Word := [0x3E800000, 0x3F000000, 0xC0000000, 0, 0, 0, 0, 0x42C80000]
def oRay (code : Nat) (sa sb : Src) (v : Word) (ray : List Word) : Op :=
  { oIs code { f0 with dst := 16, sa := sa, sb := sb, sc := .zero, lit := some v } x0 [8, 1, 2] 1 with cls := some .ray, lv := [ray] }
def sOneRay (o : Op) (t : Trav) : State :=
  onWarp (sCore fun c => { c with rayq := [o] }) fun w => { w with trav := w.trav.set {} 0 t }
/-- A traversal that waits for its candidate's word, with token 9, and one that is over. -/
def tPause : Trav := { seq := 9, st := 2, ray := rayZ, flags := 0xFF, root := 0x2000000, cand := some { tri := 0x40, data := List.replicate 12 0, inst := none, idata := [] } }
def tOver : Trav := { tPause with st := 3, cand := none }
def RayTurn (s : State) (o : Op) : Prop :=
  InFocus s 7 o s ∧ InQueue s.c.rayq o ∧ s.rayReady o = o.e ∧ lanesOf o.e = [0] ∧ o.pcm = 0 ∧ o.begun 0 = false
    ∧ goes (.rayOperationComplete 7) s = true
def headOp (s : State) : Op := s.c.rayq.headD (oRay 0 .zero .zero 0 [])
/-- TRACE whose flags are bad, whose ray is still, and which goes on; TRACE.OCC. -/
theorem witness_trace_starts : ∀ code ∈ [0x160, 0x162],
    RayTurn (sOneRay (oRay code (.lane 8) .litZ 0x2000 rayZ) {}) (oRay code (.lane 8) .litZ 0x2000 rayZ)
    ∧ (badRay (traceStart s0 (oRay code (.lane 8) .litZ 0x2000 rayZ) 0).ray || badFlags 0x2000) = true
    ∧ RayTurn (sOneRay (oRay code (.lane 8) .litZ 0xFF rayStill) {}) (oRay code (.lane 8) .litZ 0xFF rayStill)
    ∧ (badRay (traceStart s0 (oRay code (.lane 8) .litZ 0xFF rayStill) 0).ray || badFlags 0xFF) = false
    ∧ (∀ i ∈ [4, 5, 6], units (nth0 (traceStart s0 (oRay code (.lane 8) .litZ 0xFF rayStill) 0).ray i) = 0)
    ∧ RayTurn (sOneRay (oRay code (.lane 8) .litZ 0xFF rayZ) {}) (oRay code (.lane 8) .litZ 0xFF rayZ)
    ∧ units (nth0 (traceStart s0 (oRay code (.lane 8) .litZ 0xFF rayZ) 0).ray 6) ≠ 0
    ∧ (traceStart s0 (oRay code (.lane 8) .litZ 0xFF rayZ) 0).tmin.le (traceStart s0 (oRay code (.lane 8) .litZ 0xFF rayZ) 0).tmax = true := by
  unfold RayTurn InFocus InQueue NoWaits; decide +kernel
/-- How a traversal comes to stand: 1 done, 2 paused with a candidate, 3 at a malformed item. -/
def outKind (s : State) (o : Op) (q : Trav) : Nat :=
  let r := s.travRun (o.begin 0) s.spills travFuel { q with st := 1 }
  match r.2.1 with
  | .done _ => 1
  | .pause _ => if r.2.2.cand.isSome then 2 else 0
  | .malformed _ => 3
  | _ => 0
def traceFrom (s : State) : Trav :=
  let q := traceStart s (headOp s) 0
  { q with stack := [{ ref := q.root, te := q.tmin.q, inInst := false }] }
theorem witness_traversals : ∀ p ∈ [(sTri 1 0xFF, 1), (sTri 0 0xFF, 2), (sOneRay (oRay 0x160 (.lane 8) .litZ 0xFF rayZ) {}, 3)],
    RayTurn p.1 (headOp p.1) ∧ outKind p.1 (headOp p.1) (traceFrom p.1) = p.2 := by
  unfold RayTurn InFocus InQueue NoWaits; decide +kernel
/-- TRACE.CONT with a token that is not current, with words that end the traversal, and with ones that go on; TRACE.END. -/
theorem witness_trace_cont : (∀ d ∈ [0, 1, 2, 3], RayTurn (sOneRay (oRay 0x161 .litZ (.imm (BitVec.ofNat 8 d)) 9 []) tPause) (oRay 0x161 .litZ (.imm (BitVec.ofNat 8 d)) 9 [])
      ∧ ((oRay 0x161 .litZ (.imm (BitVec.ofNat 8 d)) 9 []).val32 0 0).toNat = ((sOneRay (oRay 0x161 .litZ (.imm (BitVec.ofNat 8 d)) 9 []) tPause).trav 0).seq
      ∧ ((oRay 0x161 .litZ (.imm (BitVec.ofNat 8 d)) 9 []).val32 1 0).toNat % 4 = d)
    ∧ RayTurn (sOneRay (oRay 0x161 .litZ (.imm 0) 8 []) tPause) (oRay 0x161 .litZ (.imm 0) 8 [])
    ∧ ((oRay 0x161 .litZ (.imm 0) 8 []).val32 0 0).toNat ≠ 9 ∧ tPause.st = 2 ∧ tPause.flags.getLsbD 12 = false := by
  unfold RayTurn InFocus InQueue NoWaits; decide +kernel
theorem witness_trace_end : ∀ p ∈ [(tPause, true), (tOver, true), ({}, false)], RayTurn (sOneRay (oRay 0x163 .litZ .zero 9 []) p.1) (oRay 0x163 .litZ .zero 9 [])
      ∧ p.1.current ((oRay 0x163 .litZ .zero 9 []).val32 0 0) = p.2 := by
  unfold RayTurn InFocus InQueue NoWaits; decide +kernel
/-- LTWALK over two lights, from a leaf, and LTPDF. -/
def sLight (code : Nat) (root : Word) : State :=
  { sLights with c := { sLights.c with rayq := (sLights.c.rayq).map fun o => { o with code := code, uv := o.uv.set 0 root } } }
theorem witness_lights : (∀ code ∈ [0x167, 0x168], RayTurn (sLight code 0x2000000) (headOp (sLight code 0x2000000))
      ∧ isOk ((sLight code 0x2000000).lightLane (headOp (sLight code 0x2000000)) 0).2 = true)
    ∧ RayTurn (sLight 0x167 0x2000020) (headOp (sLight 0x167 0x2000020))
    ∧ (join2 ((headOp (sLight 0x167 0x2000020)).reg 2 0 0) ((headOp (sLight 0x167 0x2000020)).reg 2 1 0)).toNat = 0x2000020
    ∧ (match ((sLight 0x167 0x2000020).lightNode (headOp (sLight 0x167 0x2000020)) 0x2000020 0).2 with
        | some (.ok ws) => !(nodeBad ws) && (nth0 ws 7).getLsbD 0
        | _ => false) = true
    ∧ ∀ i ∈ [0, 1, 2], isFinite ((headOp (sLight 0x167 0x2000020)).reg 0 i 0) = true := by
  unfold RayTurn InFocus InQueue NoWaits; decide +kernel
/-- A ray that meets a triangle, one that does not, and a box with the interval of a ray in it. -/
theorem witness_ray_tests :
    (triTest (1, 1, -4) (0, 0, 1) [0, 0, 0, 0x3F800000, 0, 0, 0, 0x3F800000, 0]).isSome = true
    ∧ triTest (-1, -1, -4) (0, 0, 1) [0, 0, 0, 0x3F800000, 0, 0, 0, 0x3F800000, 0] = none
    ∧ (((v3At [0, 0, 0, 0x3F800000, 0, 0, 0, 0x3F800000, 0] 3).sub (v3At [0, 0, 0, 0x3F800000, 0, 0, 0, 0x3F800000, 0] 0)).cross
        ((v3At [0, 0, 0, 0x3F800000, 0, 0, 0, 0x3F800000, 0] 6).sub (v3At [0, 0, 0, 0x3F800000, 0, 0, 0, 0x3F800000, 0] 0))).dot (0, 0, 1) ≠ 0
    ∧ (slab [1, 1, -4] [0, 0, 1] (.fin { num := 0, den := 1 }) (.fin { num := 100, den := 1 })
        ([0, 0, 0].map fun n => .fin { num := n, den := 1 }) ([2, 2, 2].map fun n => .fin { num := n, den := 1 })).isSome = true
    ∧ slab [5, 1, -4] [0, 0, 1] (.fin { num := 0, den := 1 }) (.fin { num := 100, den := 1 })
        ([0, 0, 0].map fun n => .fin { num := n, den := 1 }) ([2, 2, 2].map fun n => .fin { num := n, den := 1 }) = none := by decide +kernel

/-! ### Witnesses: results of the reservoir -/

theorem witness_reservoir_results : ∀ code ∈ [0x173, 0x174, 0x175, 0x176], InFocus (sRsv (oRsv code)) 7 (oRsv code) (sRsv (oRsv code))
    ∧ RsvTurn (sRsv (oRsv code)) (oRsv code) geom0 ∧ lanesOf (oRsv code).e = [0]
    ∧ goes (.reservoirOperationComplete 7) (sRsv (oRsv code)) = true := by
  unfold InFocus RsvTurn InQueue NoWaits; decide +kernel
/-- RSVHALO where die 0 owns the tile, and where it does not. -/
def oHalo (a : Nat) : Op := { oIs 0x176 { f0 with sa := .litZ, lit := some (BitVec.ofNat 32 a) } { x0 with space := 3 } [1, 0, 0] 1 with cls := some .rsv }
theorem witness_halo : ∀ p ∈ [(0, true), (0xC0, false)],
    InFocus (sRsv (oHalo p.1)) 7 (oHalo p.1) (sRsv (oHalo p.1)) ∧ RsvTurn (sRsv (oHalo p.1)) (oHalo p.1) geom0
    ∧ (∀ v < geom0.nd, (sRsv (oHalo p.1)).phys v < 4
        ∧ ∀ w < geom0.nd, (sRsv (oHalo p.1)).phys v = (sRsv (oHalo p.1)).phys w → v = w)
    ∧ decide (geom0.owner (rsvAddr ((oHalo p.1).rsvA 0)).x (rsvAddr ((oHalo p.1).rsvA 0)).y = (sRsv (oHalo p.1)).g.die) = p.2
    ∧ goes (.reservoirOperationComplete 7) (sRsv (oHalo p.1)) = true := by
  unfold InFocus RsvTurn InQueue NoWaits; decide +kernel
theorem witness_rsvswap : ∀ m ∈ [0, 1], let o := { oIs 0x177 f0 { x0 with ext := BitVec.ofNat 22 (65536 * m) } [0, 0, 0] s0.m0 with cls := some .rsv }
    InFocus (sRsv o) 7 o (sRsv o) ∧ InQueue (sRsv o).c.rsvq o ∧ (sRsv o).rsvReady o ≠ 0 ∧ (sRsv o).geom = some geom0
    ∧ rsvMode o.x = m ∧ goes (.reservoirOperationComplete 7) (sRsv o) = true := by
  unfold InFocus InQueue NoWaits; decide +kernel

/-! ### Witnesses: the conditions of submissions, shoot-downs, migrations, writes held, power and the host -/

theorem witness_submissions_read : ∀ g ∈ [false, true], ((sSub 0x188 0x30000 g).ctx.any fun k => (k.submits.all fun q => q.count == 0)) = true
    ∧ (sSub 0x188 0x30000 g).bad = [] ∧ (∀ code ∈ [0x18A, 0x18B], (sEnq (oEnq code)).bad = [])
    ∧ lrCscope sWgEnd.g.lrec ≤ 4 ∧ s0.diesWait graphD.aff graphD.cscope = false := by decide +kernel
theorem witness_shoot_clear : (sShoot ((sShoot []).shootUnits 1)).inFlight 0 4096 = false
    ∧ (((sPage.die 0).chunkList 0x5000 4096).sum ≤ (sPage.die 0).pool + ((sPage.die 0).chunkList 0x8000 4096).sum)
    ∧ (sPage.walk 0).frame = 0x5000 := by
  refine ⟨by decide +kernel, ?_, by decide +kernel⟩
  have h : ((sPage.die 0).chunkList 0x5000 4096).sum = 0 := by decide +kernel
  rw [h]
  exact Nat.zero_le _
theorem witness_recopy : (∀ u ∈ (sMig 1).shootUnits 1, (sMig 1).flightIn u 0 4096 = false)
    ∧ (0x8000 % 128 = 0 ∧ 0x5000 % 128 = 0 ∧ 4096 % 128 = 0 ∧ 0x5000 + 4096 ≤ 0x8000) ∧ goes .migrationRecopy (sMig 1) = true
    ∧ 0x8000 % 4096 = 0 ∧ 0x8000 < 2 ^ 56 := by decide +kernel
/-- An access is held in a range that is shot down, an atomic while a page is copied, and any write before it is remapped. -/
theorem witness_accesses_held : (sShoot []).hub.shoot = [shoot0 1 []] ∧ (sShoot []).ctxNum = 1
    ∧ (∀ k ∈ [Kind.read, Kind.write, Kind.atomic, Kind.quiet], (sShoot []).heldAt 8 k = true)
    ∧ (sMig 1).owner 8 = some 0 ∧ (sMig 1).ctxNum = 1 ∧ (sMig 1).heldAt 8 .atomic = true ∧ (sMig 1).heldAt 8 .write = false
    ∧ (sMig 2).heldAt 8 .write = true ∧ (sMig 2).heldAt 8 .read = false := by decide +kernel
theorem witness_line_held : (sFull0 []).bad.contains (1, 0, lineC.tag) = false ∧ lineC.dirtyBytes ≠ []
    ∧ (∃ h ∈ ((sFull0 [held0]).dieAt 0).held, h.addr = lineC.tag / 32 * 4096) := by decide +kernel
/-- Die 1 at 110 °C beside die 0, which reaches 105 °C; and none. -/
def sHotter : State := s0.updDie 1 fun d => { d with temp := 1100 }
theorem witness_thermal : (∀ p, p ≠ 0 → (s0.dieAt p).temp < 1100 ∧ (s0.dieAt p).overheat = false)
    ∧ (1 < 4 ∧ 1 ≠ 0 ∧ (sHotter.dieAt 1).present = true ∧ 1100 ≤ (sHotter.dieAt 1).temp)
    ∧ goes (.thermalStep 0 1060) s0 = true ∧ goes (.thermalStep 0 1060) sHotter = true := by
  refine ⟨fun p _ => ?_, by decide +kernel⟩
  by_cases h : p < 4
  · have : ∀ p < 4, (s0.dieAt p).temp < 1100 ∧ (s0.dieAt p).overheat = false := by decide +kernel
    exact this p h
  · have hl : s0.dies.length = 4 := by decide +kernel
    have hd : s0.dieAt p = { phys := p, present := false } := by
      unfold State.dieAt; rw [List.getElem?_eq_none (by omega)]; rfl
    rw [hd]
    exact ⟨Nat.lt_of_sub_eq_succ rfl, rfl⟩
/-- The host's reads and writes where no die relocks, and a read that meets an error. -/
theorem witness_host_reads : s0.hostWaits 0 = false ∧ s0.relocks = false
    ∧ after (.hostMemRead 0 0x1000 64) s0 (fun t => !t.hub.poison) = true
    ∧ ({ s0 with bad := [(5, 0, 0x80)] } : State).hostBad 0 0x1000 = true
    ∧ after (.hostMemRead 0 0x1000 64) { s0 with bad := [(5, 0, 0x80)] } (fun t => t.hub.poison) = true
    ∧ after (.hostMemRead 0 (2 ^ 37) 4) s0 (fun t => t.hub.poison) = true := by decide +kernel
theorem witness_bar_words : ∀ p ∈ [(0, 0), (0, 1), (1, 2), (1, 1), (5, 2), (5, 1), (4, 3)],
    goes (.barRegisterWrite ⟨0, 4⟩ (BitVec.ofNat 32 p.2)) (inState (BitVec.ofNat 4 p.1) 0) = true
    ∧ ((inState (BitVec.ofNat 4 p.1) 0).barRead 0).extractLsb' 28 4 = BitVec.ofNat 4 p.1 := by decide +kernel
theorem witness_answers : goes (.settleFaultRecord 1 0 true 0 none) s0 = true
    ∧ (k0.settleable 0).isNone = true := by decide +kernel

end Sys2Proof.Tests
end

section
/-! PROOF of O39. A word of an engine's class reaches one state of issue (`issued`), out of which its engine takes it in: what the
engine does there (`OnlyQueues`) touches queues, channels and what the dies report, and no register and no byte. -/

namespace Sys2Proof.Slice0

open Sys2Proof.Machine

/-! ### The state in which a word has issued (R34, R43, R456) -/

/-- The entry that a word takes of the operand log: a free one, or none where the word needs none. -/
inductive LogEntry (s : State) : Bool → Option Nat → Prop
  | taken {n : Nat} : s.freeLog = some n → LogEntry s true (some n)
  | unused : LogEntry s false none

/-- An operation has issued and no engine has it yet: its flag is set, its class counts it, its destinations are held, its run has
moved on and its log entry is taken. -/
def issued (s : State) (o : Op) (vdst wdst : List Nat) (glob : Bool) (k : Option Nat) : State :=
  { s with
    nextId := o.id + 1
    w := ((s.addOut o vdst wdst glob).advance 16).w
    c := { s.c with log := s.c.log ++ k.toList.map fun n => (n, o.id) } }

/-- Moving past a word changes the warp in focus alone. -/
theorem advance_eq_withWarp (s : State) (len : Nat) : s.advance len = { s with w := (s.advance len).w } := by
  rw [advance_eq]

theorem advance_takeLog (s : State) (k id len : Nat) : (s.takeLog k id).advance len = (s.advance len).takeLog k id := by
  cases h : s.w.run with
  | none => rw [advance_none s len h, advance_none (s.takeLog k id) len h]
  | some r =>
    by_cases hl : 1 < r.left
    · rw [advance_more s len r h hl, advance_more (s.takeLog k id) len r h hl]; rfl
    · rw [advance_last s len r h (by omega), advance_last (s.takeLog k id) len r h (by omega)]
      simp only [State.endRun, State.takeLog, h]

theorem advance_addOut_eq_issued (s : State) (o : Op) (vdst wdst : List Nat) (glob : Bool) :
    (s.addOut o vdst wdst glob).advance 16 = issued s o vdst wdst glob none := by
  rw [advance_eq_withWarp]
  simp [issued, State.addOut]

theorem takeLog_advance_addOut_eq_issued (s : State) (o : Op) (vdst wdst : List Nat) (glob : Bool) (k : Nat) :
    ((s.addOut o vdst wdst glob).advance 16).takeLog k o.id = issued s o vdst wdst glob (some k) := by
  rw [advance_eq_withWarp]
  rfl

/-- An operation for which the parameters, the queue, the log and the checks make no difficulty issues, and `enter` takes it in. -/
theorem engineIssue_eq_enter {s : State} {q : Queue} {o : Op} {log glob : Bool} {cause acc : Nat} {wdst vdst : List Nat}
    {enter : Op → State → State} {k : Option Nat} (hq : s.queueFullAt q = false) (hk : LogEntry s log k) :
    s.engineIssue q o log glob cause none acc none wdst vdst enter =
      .next (enter { o with logi := k } (issued s o vdst wdst glob k)) := by
  cases hk with
  | taken hn =>
    rw [← takeLog_advance_addOut_eq_issued]
    simp only [State.engineIssue, hq, hn]
    rfl
  | unused =>
    rw [← advance_addOut_eq_issued]
    simp only [State.engineIssue, hq]
    rfl

/-! ### What an engine changes when it takes an operation in -/

/-- Queues, channels and what the dies report differ at most: no register, no byte, and nothing of other warps and workgroups. -/
structure OnlyQueues (u t : State) : Prop where
  w : t.w = u.w
  ws : t.ws = u.ws
  g : { t.g with ch := u.g.ch } = u.g
  gs : t.gs = u.gs
  log : t.c.log = u.c.log
  cs : t.cs = u.cs
  ctx : t.ctx = u.ctx
  others : t.others = u.others
  saved : t.saved = u.saved
  hub : t.hub = u.hub
  host : t.host = u.host
  peer : t.peer = u.peer
  nextId : t.nextId = u.nextId
  bytes : ∀ p a, (t.dieAt p).hostByte a = (u.dieAt p).hostByte a

namespace OnlyQueues

theorem refl (u : State) : OnlyQueues u u := by constructor <;> intros <;> rfl

theorem trans {u v t : State} (h : OnlyQueues u v) (h' : OnlyQueues v t) : OnlyQueues u t where
  w := h'.w.trans h.w
  ws := h'.ws.trans h.ws
  g := (congrArg (fun g : Wg => { g with ch := u.g.ch }) h'.g).trans h.g
  gs := h'.gs.trans h.gs
  log := h'.log.trans h.log
  cs := h'.cs.trans h.cs
  ctx := h'.ctx.trans h.ctx
  others := h'.others.trans h.others
  saved := h'.saved.trans h.saved
  hub := h'.hub.trans h.hub
  host := h'.host.trans h.host
  peer := h'.peer.trans h.peer
  nextId := h'.nextId.trans h.nextId
  bytes p a := (h'.bytes p a).trans (h.bytes p a)

theorem g_die {u t : State} (h : OnlyQueues u t) : t.g.die = u.g.die := by
  rw [← h.g]

theorem scratchRead {u t : State} (h : OnlyQueues u t) (a n : Nat) : t.scratchRead a n = u.scratchRead a n := by
  rw [State.scratchRead, State.scratchRead, ← h.g]

end OnlyQueues

theorem onlyQueues_enqueue (u : State) (q : Queue) (o : Op) : OnlyQueues u (u.enqueue q o) := by
  cases q <;> constructor <;> intros <;> rfl

theorem onlyQueues_setChan (u : State) (k : Nat) (c : Chan) : OnlyQueues u (u.setChan k c) := by
  constructor <;> intros <;> rfl

/-- What an update leaves of every die, it leaves of each die of the package. -/
theorem dieAt_updDie_keeps {α : Type} (π : Die → α) {g : Die → Die} (h : ∀ d, π (g d) = π d) (u : State) (v p : Nat) :
    π ((u.updDie v g).dieAt p) = π (u.dieAt p) := by
  simp only [State.updDie, State.dieAt, updDieAt_dies, updateAt, List.getElem?_mapIdx]
  cases u.dies[p]? with
  | none => rfl
  | some d =>
    simp only [Option.map_some, Option.getD_some]
    split
    · exact h d
    · rfl

theorem die_updDie_same (u : State) {v : Nat} (g : Die → Die) (h : u.phys v < u.dies.length) :
    (u.updDie v g).die v = g (u.die v) := by
  change (u.updDie v g).dieAt (u.phys v) = g (u.dieAt (u.phys v))
  simp [State.updDie, State.dieAt, updateAt, h]

theorem onlyQueues_updDie (u : State) (v : Nat) {g : Die → Die} (h : ∀ d a, (g d).hostByte a = d.hostByte a) :
    OnlyQueues u (u.updDie v g) where
  w := rfl
  ws := rfl
  g := rfl
  gs := rfl
  log := rfl
  cs := rfl
  ctx := rfl
  others := rfl
  saved := rfl
  hub := rfl
  host := rfl
  peer := rfl
  nextId := rfl
  bytes p a := dieAt_updDie_keeps (·.hostByte a) (fun d => h d a) u v p

/-- What a status word does when it has entered its queue: it clears no more than what a die reports (R390, R419). -/
structure ClearsStatus (after : State → State) : Prop where
  only : ∀ u, OnlyQueues u (after u)
  c : ∀ u, (after u).c = u.c
  radq : ∀ u v, ((after u).die v).radq = (u.die v).radq

theorem clearsStatus_id : ClearsStatus id := ⟨.refl, fun _ => rfl, fun _ _ => rfl⟩

theorem clearsStatus_updDie {g : Die → Die} (hb : ∀ d a, (g d).hostByte a = d.hostByte a) (hq : ∀ d, (g d).radq = d.radq) :
    ClearsStatus fun u => u.updDie u.g.die g where
  only u := onlyQueues_updDie u _ hb
  c _ := rfl
  radq u v := dieAt_updDie_keeps (·.radq) hq u _ (u.phys v)

theorem ClearsStatus.ite {after : State → State} (h : ClearsStatus after) (c : Prop) [Decidable c] :
    ClearsStatus fun u => if c then after u else u := by
  by_cases hc : c
  · simpa only [if_pos hc] using h
  · simp only [if_neg hc]
    exact clearsStatus_id

/-! ### From the state of issue to the statement -/

theorem moved_of_w_eq {s u t : State} {len : Nat} (h : t.w = u.w) (hm : Moved s u len) : Moved s t len := by
  unfold Moved SameYield YieldDue at *
  rwa [h]

theorem moved_issued (s : State) (o : Op) (vdst wdst : List Nat) (glob : Bool) (k : Option Nat) :
    Moved s (issued s o vdst wdst glob k) 16 :=
  moved_of_w_eq rfl (moved_advance s (s.addOut o vdst wdst glob) 16 rfl rfl rfl rfl ⟨rfl, rfl⟩)

theorem sameRegisters_issued (s : State) (o : Op) (vdst wdst : List Nat) (glob : Bool) (k : Option Nat) :
    SameRegisters s (issued s o vdst wdst glob k) := by
  simp [SameRegisters, SameFlags, State.codes, issued, State.addOut]

theorem sameRegisters_of_w_eq {s u t : State} (h : t.w = u.w) (hr : SameRegisters s u) : SameRegisters s t := by
  unfold SameRegisters SameFlags State.codes at *
  rwa [h]

/-- The operation that stands in the queue: `aux` is what its engine has noted at issue. -/
def EngineWord.entered (a : EngineWord) (f : FmtA) (x : Upper) (s : State) (k : Option Nat) (aux : List Nat) : Op :=
  { a.op f x s with logi := k, aux := aux, stores := if a.code = 0x17A then s.snapNow else [] }

/-- The state in which the word has issued. -/
def EngineWord.issued (a : EngineWord) (f : FmtA) (x : Upper) (s : State) (k : Option Nat) : State :=
  Slice0.issued s (a.op f x s) (regsFrom f.dst (a.lane x)) (regsFrom f.dst a.uni) (a.glob x) k

/-- A word enters its queue where it issues, its operation then stands last there, and the engine does no more. -/
theorem EngineWord.enters_of_onlyQueues {a : EngineWord} {f : FmtA} {x : Upper} {s t : State} {k : Option Nat} {aux : List Nat}
    (hx : exec (a.word f x) s = .next t) (ht : OnlyQueues (a.issued f x s k) t)
    (hq : a.queue t = a.queue s ++ [a.entered f x s k aux]) : a.Enters f x s k := by
  have hmoved := moved_of_w_eq ht.w (moved_issued ..)
  have hregs := sameRegisters_of_w_eq ht.w (sameRegisters_issued ..)
  have hbytes : SameBytes s t := ⟨ht.bytes, ht.scratchRead, ht.host, ht.peer⟩
  have hw : t.w.outs = s.w.outs ++ [{ outOf s (a.entered f x s k aux) (regsFrom f.dst (a.lane x)) (regsFrom f.dst a.uni) with
      glob := a.glob x }] ∧ t.w.pend = s.w.pend ∧ t.w.parked = s.w.parked ∧ t.w.waits = s.w.waits := by
    rw [ht.w]
    simp [EngineWord.issued, Slice0.issued, State.addOut, outOf, EngineWord.entered, EngineWord.op, State.mkOp]
  obtain ⟨houts, hpend, hparked, hwaits⟩ := hw
  exact ⟨t, aux, hx, ⟨hq, houts⟩, ht.log, hmoved, hregs, hbytes, ht.nextId, ht.ws, ht.gs, ht.cs, ht.hub, ht.ctx, ht.others,
    ht.saved, hpend, hparked, hwaits, ht.g⟩

/-- An operation without records at its issue stands in the queue as it was entered. -/
theorem EngineWord.entered_eq {a : EngineWord} (h : a.code ≠ 0x17A) (f : FmtA) (x : Upper) (s : State) (k : Option Nat)
    (aux : List Nat) : a.entered f x s k aux = { a.op f x s with aux := aux, logi := k } := by
  simp [EngineWord.entered, h, EngineWord.op, State.mkOp]

/-! ### Queues of the core -/

/-- An operation stands last in a queue of the core, with what its engine has noted, and the engine has done no more. -/
def JoinsQueue (q : Queue) (u : State) (o : Op) (t : State) : Prop :=
  OnlyQueues u t ∧ ∃ aux, t.c.queue q = u.c.queue q ++ [{ o with aux := aux }]

/-- It may have updated channels before. -/
theorem joinsQueue_enqueue {q : Queue} {u v : State} (h : OnlyQueues u v) (hc : v.c = u.c) (o : Op) (aux : List Nat) :
    JoinsQueue q u o (v.enqueue q { o with aux := aux }) := by
  refine ⟨h.trans (onlyQueues_enqueue ..), aux, ?_⟩
  cases q <;> simp only [State.enqueue, Core.queue, Core.setQueue, hc]

/-- It may have cleared a status after. -/
theorem JoinsQueue.clear {q : Queue} {u t : State} {o : Op} {after : State → State} (h : JoinsQueue q u o t)
    (ha : ClearsStatus after) : JoinsQueue q u o (after t) := by
  obtain ⟨honly, aux, haux⟩ := h
  exact ⟨honly.trans (ha.only t), aux, by rw [ha.c, haux]⟩

/-- Where the queue holds fewer than 16 operations, it refuses none (R288, R310, R346, R376). -/
theorem queueFullAt_eq_false {s : State} {q : Queue} (h : ¬ 16 ≤ (s.c.queue q).length) : s.queueFullAt q = false := by
  have hle : (s.c.places q).length ≤ (s.c.queue q).length := by
    cases q with
    | copy => exact le_rfl
    | mtx => exact le_rfl
    | ray => exact List.length_filter_le ..
    | rsv => exact List.length_filter_le ..
  simp only [State.queueFullAt, decide_eq_false_iff_not]
  omega

/-- The words that enter a queue of their core: those of neither Loess nor a query unit. -/
structure EngineWord.OfCore (a : EngineWord) (q : Queue) : Prop where
  code : a.code ≠ 0x17A
  cls : a.cls ≠ .rad
  queue : ∀ s, a.queue s = s.c.queue q

theorem EngineWord.OfCore.not_full {a : EngineWord} {q : Queue} (h : a.OfCore q) {s : State} (hfull : ¬ a.Full s) :
    s.queueFullAt q = false :=
  queueFullAt_eq_false (by simpa [EngineWord.Full, h.cls, h.code, h.queue] using hfull)

/-- A word that `engineIssue` takes to a queue of its core enters it. -/
theorem EngineWord.OfCore.enters {a : EngineWord} {q : Queue} (h : a.OfCore q) {f : FmtA} {x : Upper} {s : State}
    {k : Option Nat} {aux : List Nat} {cause acc : Nat} {enter : Op → State → State} (hfull : ¬ a.Full s)
    (hk : LogEntry s (a.log x) k)
    (hx : exec (a.word f x) s = s.engineIssue q { a.op f x s with aux := aux } (a.log x) (a.glob x) cause none acc none
      (regsFrom f.dst a.uni) (regsFrom f.dst (a.lane x)) enter)
    (henter : JoinsQueue q (a.issued f x s k) { a.op f x s with aux := aux, logi := k }
      (enter { a.op f x s with aux := aux, logi := k } (a.issued f x s k))) :
    a.Enters f x s k := by
  obtain ⟨honly, aux', haux⟩ := henter
  refine EngineWord.enters_of_onlyQueues (aux := aux') (hx.trans (engineIssue_eq_enter (h.not_full hfull) hk)) honly ?_
  rw [EngineWord.entered_eq h.code, h.queue, h.queue]
  refine Eq.trans haux ?_
  cases q <;> rfl

/-! ### The copy engine (R288) -/

theorem copyWords_exec {a : EngineWord} (ha : a ∈ copyWords) (f : FmtA) (x : Upper) (s : State) (he : s.execSet f.cond ≠ 0) :
    let o := a.op f x s
    exec (a.word f x) s = s.engineIssue .copy o (a.log x) (a.glob x) 8 (lowestReason (s.copyReasons o)) o.copyAcc
      (s.copyFault o (s.copyPtr o)) (regsFrom f.dst a.uni) (regsFrom f.dst (a.lane x)) fun o s => s.copyEnter o := by
  fin_cases ha <;> exact if_neg he

theorem copyWords_cls {a : EngineWord} (ha : a ∈ copyWords) : a.cls = .copy := by
  fin_cases ha <;> rfl

theorem copyWords_ofCore {a : EngineWord} (ha : a ∈ copyWords) : a.OfCore .copy := by
  fin_cases ha <;> exact ⟨by decide, by decide, fun _ => rfl⟩

theorem joinsQueue_copyEnter (u : State) (o : Op) : JoinsQueue .copy u o (u.copyEnter o) := by
  by_cases hplain : o.x.space ≠ 2 ∨ o.copyLen = 0
  · simp only [State.copyEnter, if_pos hplain]
    split
    · exact joinsQueue_enqueue (.refl u) rfl o _
    · exact joinsQueue_enqueue (.refl u) rfl o o.aux
  · simp only [State.copyEnter, if_neg hplain]
    split
    · exact joinsQueue_enqueue (onlyQueues_setChan ..) rfl o _
    · exact joinsQueue_enqueue (onlyQueues_setChan ..) rfl o _

theorem copyWords_enter {a : EngineWord} (ha : a ∈ copyWords) {f : FmtA} {x : Upper} {s : State} {k : Option Nat}
    (he : s.execSet f.cond ≠ 0) (htrap : a.trap f x s = none) (hfull : ¬ a.Full s) (hclean : a.Clean f x s)
    (hk : LogEntry s (a.log x) k) : a.Enters f x s k := by
  have hcls := copyWords_cls ha
  have hreason : lowestReason (s.copyReasons (a.op f x s)) = none := by simpa [EngineWord.trap, hcls] using htrap
  have hfault : s.copyFault (a.op f x s) (s.copyPtr (a.op f x s)) = none := by simpa [EngineWord.Clean, hcls] using hclean
  have hx := copyWords_exec ha f x s he
  simp only [hreason, hfault] at hx
  exact (copyWords_ofCore ha).enters hfull hk hx (joinsQueue_copyEnter ..)

/-! ### The matrix engine (R310) -/

theorem mtxWords_exec {a : EngineWord} (ha : a ∈ mtxWords) (f : FmtA) (x : Upper) (s : State) :
    exec (a.word f x) s = s.mtxWord a.code f x (a.wid x) (a.log x) (regsFrom f.dst a.uni) := by
  fin_cases ha <;> rfl

theorem mtxWords_cls {a : EngineWord} (ha : a ∈ mtxWords) : a.cls = .mtx := by
  fin_cases ha <;> rfl

/-- A matrix word writes no lane register, and no global memory as an engine. -/
theorem mtxWords_lane_glob {a : EngineWord} (ha : a ∈ mtxWords) (x : Upper) : a.lane x = 0 ∧ a.glob x = false := by
  fin_cases ha <;> exact ⟨rfl, rfl⟩

theorem mtxWords_ofCore {a : EngineWord} (ha : a ∈ mtxWords) : a.OfCore .mtx := by
  fin_cases ha <;> exact ⟨by decide, by decide, fun _ => rfl⟩

/-- A matrix word without a channel reason issues as the words of the other engines do (R317). -/
theorem mtxWord_eq_engineIssue {s : State} {code : Nat} {f : FmtA} {x : Upper} {wid wdst : List Nat} {log : Bool}
    (he : s.execSet f.cond ≠ 0) :
    let o := { s.mkOp code f x wid (s.execSet f.cond) with cls := some .mtx }
    lowestReason (s.mtxChanReasons o) = none →
    s.mtxWord code f x wid log wdst = s.engineIssue .mtx o log false 9 (lowestReason (s.mtxReasons o)) 1 (s.mtxFault o) wdst []
      fun o s => s.mtxEnter o := by
  intro o hchan
  simp only [State.mtxWord, if_neg he]
  rw [hchan]

theorem joinsQueue_mtxEnter (u : State) (o : Op) : JoinsQueue .mtx u o (u.mtxEnter o) := by
  unfold State.mtxEnter
  cases o.chanNamed with
  | none => exact joinsQueue_enqueue (.refl u) rfl o o.aux
  | some k =>
    cases u.mtxInputs o with
    | none =>
      dsimp only
      split
      · exact joinsQueue_enqueue (onlyQueues_setChan ..) rfl o _
      · exact joinsQueue_enqueue (.refl u) rfl o o.aux
    | some q =>
      dsimp only
      split
      · exact joinsQueue_enqueue ((onlyQueues_setChan ..).trans (onlyQueues_setChan ..)) rfl o _
      · exact joinsQueue_enqueue (onlyQueues_setChan ..) rfl o o.aux

/-- A matrix word that takes no parameter trap has neither a channel reason nor a matrix reason (R317). -/
theorem mtx_reasons_of_trap {a : EngineWord} {f : FmtA} {x : Upper} {s : State} (hcls : a.cls = .mtx)
    (htrap : a.trap f x s = none) :
    lowestReason (s.mtxChanReasons (a.op f x s)) = none ∧ lowestReason (s.mtxReasons (a.op f x s)) = none := by
  simp only [EngineWord.trap, hcls] at htrap
  split at htrap
  · cases htrap
  · next hchan => exact ⟨hchan, by simpa using htrap⟩

theorem mtxWords_enter {a : EngineWord} (ha : a ∈ mtxWords) {f : FmtA} {x : Upper} {s : State} {k : Option Nat}
    (he : s.execSet f.cond ≠ 0) (htrap : a.trap f x s = none) (hfull : ¬ a.Full s) (hclean : a.Clean f x s)
    (hk : LogEntry s (a.log x) k) : a.Enters f x s k := by
  have hcls := mtxWords_cls ha
  obtain ⟨hlane, hglob⟩ := mtxWords_lane_glob ha x
  obtain ⟨hchan, hreason⟩ := mtx_reasons_of_trap hcls htrap
  have hfault : s.mtxFault (a.op f x s) = none := by simpa [EngineWord.Clean, hcls] using hclean
  have hop : a.op f x s = { s.mkOp a.code f x (a.wid x) (s.execSet f.cond) with cls := some .mtx } := by rw [EngineWord.op, hcls]
  have hx : exec (a.word f x) s = s.engineIssue .mtx (a.op f x s) (a.log x) (a.glob x) 9 none 1 none (regsFrom f.dst a.uni)
      (regsFrom f.dst (a.lane x)) fun o s => s.mtxEnter o := by
    rw [mtxWords_exec ha, hlane, hglob, ← hreason, ← hfault, hop, mtxWord_eq_engineIssue he (hop ▸ hchan)]
    rfl
  exact (mtxWords_ofCore ha).enters hfull hk hx (joinsQueue_mtxEnter ..)

/-! ### The ray unit (R346) -/

theorem rayWords_exec {a : EngineWord} (ha : a ∈ rayWords) (f : FmtA) (x : Upper) (s : State) :
    exec (a.word f x) s = s.rayWord a.code f x (a.wid x) (a.log x) (a.lane x) := by
  have hsobol : oneOrFour (fun m => decide (4 ≤ m)) x = if 4 ≤ rayMode x then 4 else 1 := by
    unfold oneOrFour rayMode; split <;> simp_all
  have hrnd : oneOrFour (fun m => m == 4) x = if rayMode x = 4 then 4 else 1 := by
    unfold oneOrFour rayMode; split <;> simp_all
  fin_cases ha
  on_goal 12 => dsimp only; rw [hrnd]; rfl
  on_goal 11 => dsimp only; rw [hrnd]; rfl
  on_goal 10 => dsimp only; rw [hsobol]; rfl
  all_goals rfl

theorem rayWords_cls {a : EngineWord} (ha : a ∈ rayWords) : a.cls = .ray := by
  fin_cases ha <;> rfl

/-- A word of the ray unit writes no uniform register and no global memory. -/
theorem rayWords_uni_glob {a : EngineWord} (ha : a ∈ rayWords) (x : Upper) : a.uni = 0 ∧ a.glob x = false := by
  fin_cases ha <;> exact ⟨rfl, rfl⟩

theorem rayWords_ofCore {a : EngineWord} (ha : a ∈ rayWords) : a.OfCore .ray := by
  fin_cases ha <;> exact ⟨by decide, by decide, fun _ => rfl⟩

theorem rayWords_enter {a : EngineWord} (ha : a ∈ rayWords) {f : FmtA} {x : Upper} {s : State} {k : Option Nat}
    (he : s.execSet f.cond ≠ 0) (hfull : ¬ a.Full s) (hk : LogEntry s (a.log x) k) : a.Enters f x s k := by
  obtain ⟨huni, hglob⟩ := rayWords_uni_glob ha x
  have hx : exec (a.word f x) s = s.engineIssue .ray (a.op f x s) (a.log x) (a.glob x) 0 none 0 none (regsFrom f.dst a.uni)
      (regsFrom f.dst (a.lane x)) fun o s => s.enqueue .ray o := by
    rw [rayWords_exec ha, huni, hglob, EngineWord.op, rayWords_cls ha]
    exact if_neg he
  exact (rayWords_ofCore ha).enters hfull hk hx (joinsQueue_enqueue (.refl _) rfl _ (a.op f x s).aux)

/-! ### The reservoir (R376) -/

/-- RUSE among the words of its class: it enters the queue of Loess and no queue of a core (R391). -/
noncomputable def ruseWord : EngineWord := { word := .ruse, code := 0x17A, cls := .rsv, wid := fun _ => [16, 0, 0] }

theorem rsvWords_eq_ruseWord {a : EngineWord} (ha : a ∈ rsvWords) (h : a.code = 0x17A) : a = ruseWord := by
  fin_cases ha
  on_goal 11 => rfl
  all_goals exact absurd h (by decide)

/-- The words but RUSE: RSVQ notes its values at issue and may clear the status of Loess then (R390). -/
theorem rsvWords_exec {a : EngineWord} (ha : a ∈ rsvWords) (hcode : a.code ≠ 0x17A) (f : FmtA) (x : Upper) (s : State) :
    ∃ aux after, ClearsStatus after ∧ exec (a.word f x) s =
      s.rsvWord a.code f x (a.wid x) (regsFrom f.dst (a.lane x)) (regsFrom f.dst a.uni)
        (if a.code = 0x179 then s.descReason (s.usrc64 f f.sa).toNat else none) aux after := by
  fin_cases ha
  on_goal 11 => exact absurd rfl hcode
  on_goal 9 =>
    exact ⟨_, _, (clearsStatus_updDie (g := fun d => { d with loessStat := 0 }) (fun _ _ => rfl) fun _ => rfl).ite _, rfl⟩
  all_goals exact ⟨[], id, clearsStatus_id, rfl⟩

theorem rsvWords_cls {a : EngineWord} (ha : a ∈ rsvWords) : a.cls = .rsv := by
  fin_cases ha <;> rfl

theorem rsvWords_glob {a : EngineWord} (ha : a ∈ rsvWords) (x : Upper) : a.glob x = false := by
  fin_cases ha <;> rfl

theorem rsvWords_log {a : EngineWord} (ha : a ∈ rsvWords) (hcode : a.code ≠ 0x17A) (x : Upper) :
    a.log x = decide (x.space = 3) := by
  fin_cases ha
  on_goal 11 => exact absurd rfl hcode
  all_goals rfl

theorem rsvWords_ofCore {a : EngineWord} (ha : a ∈ rsvWords) (hcode : a.code ≠ 0x17A) : a.OfCore .rsv := by
  fin_cases ha
  on_goal 11 => exact absurd rfl hcode
  all_goals exact ⟨by decide, by decide, fun _ => rfl⟩

/-- Where no lane faults, the checks at issue change nothing (R382). -/
theorem rsvCheck_of_no_faults {u : State} {o : Op} {lanes : LaneMask} (h : o.x.space = 3 → u.rsvFaults o lanes = []) :
    u.rsvCheck o lanes = (u, o) := by
  have hnone : (if o.x.space = 3 then u.rsvFaults o lanes else []) = [] := by
    split
    · next hs => exact h hs
    · rfl
  simp only [State.rsvCheck, hnone]
  rfl

theorem recordWords_enter {a : EngineWord} (ha : a ∈ rsvWords) (hcode : a.code ≠ 0x17A) {f : FmtA} {x : Upper} {s : State}
    {k : Option Nat} (he : s.execSet f.cond ≠ 0) (htrap : a.trap f x s = none) (hfull : ¬ a.Full s)
    (hclean : a.Clean f x s) (hk : LogEntry s (a.log x) k) : a.Enters f x s k := by
  have hcls := rsvWords_cls ha
  have hreason : (if a.code = 0x179 then s.descReason (s.usrc64 f f.sa).toNat else none) = none := by
    by_cases h : a.code = 0x179
    · simpa [EngineWord.trap, hcls, h] using htrap
    · simp [h]
  obtain ⟨aux, after, hafter, hx⟩ := rsvWords_exec ha hcode f x s
  have hx : exec (a.word f x) s = s.engineIssue .rsv { a.op f x s with aux := aux } (a.log x) (a.glob x) 0x0A none 0 none
      (regsFrom f.dst a.uni) (regsFrom f.dst (a.lane x)) fun o s =>
        let r := s.rsvCheck o o.e
        after (r.1.enqueue .rsv r.2) := by
    rw [hx, hreason, rsvWords_glob ha, rsvWords_log ha hcode, EngineWord.op, hcls]
    exact if_neg he
  refine (rsvWords_ofCore ha hcode).enters hfull hk hx ?_
  have hfaults : x.space = 3 → s.rsvFaults (a.op f x s) (s.execSet f.cond) = [] := by
    simpa [EngineWord.Clean, hcls, hcode] using hclean
  dsimp only
  rw [rsvCheck_of_no_faults hfaults]
  exact (joinsQueue_enqueue (.refl _) rfl _ aux).clear hafter

/-- A die with an operation last in the queue of Loess. -/
def joinLoess (o : Op) (d : Die) : Die := { d with loessQ := d.loessQ ++ [o] }

/-- RUSE issues into the queue of Loess, with the descriptor in force and the records as they stand (R391, R557). -/
theorem execRuse_next {f : FmtA} {x : Upper} {s : State} {k : Nat} (he : s.execSet f.cond ≠ 0)
    (hreason : s.ruseReason (ruseWord.op f x s) = none) (hroom : ¬ 8 ≤ s.loessCount s.g.die) (hk : s.freeLog = some k) :
    ∃ aux, exec (ruseWord.word f x) s =
      .next ((ruseWord.issued f x s (some k)).updDie s.g.die (joinLoess (ruseWord.entered f x s (some k) aux))) := by
  refine ⟨s.geomNow.elim [] fun q => [q.1, q.2], ?_⟩
  have hreason : s.ruseReason { s.mkOp 0x17A f x [16, 0, 0] (s.execSet f.cond) with cls := some .rsv } = none := hreason
  change execRuse f x s = _
  rw [EngineWord.issued, ← takeLog_advance_addOut_eq_issued]
  simp only [execRuse, if_neg he, hreason, if_neg hroom, hk, advance_takeLog]
  rfl

theorem ruse_enters {f : FmtA} {x : Upper} {s : State} {k : Option Nat} (he : s.execSet f.cond ≠ 0)
    (htrap : ruseWord.trap f x s = none) (hfull : ¬ ruseWord.Full s) (hdie : s.phys s.g.die < s.dies.length)
    (hk : LogEntry s (ruseWord.log x) k) : ruseWord.Enters f x s k := by
  have hreason : s.ruseReason (ruseWord.op f x s) = none := by simpa [EngineWord.trap, ruseWord] using htrap
  have hroom : ¬ 8 ≤ s.loessCount s.g.die := by simpa [EngineWord.Full, ruseWord] using hfull
  have hlog : ruseWord.log x = true := rfl
  rw [hlog] at hk
  obtain ⟨hfree⟩ := hk
  obtain ⟨aux, hx⟩ := execRuse_next he hreason hroom hfree
  refine EngineWord.enters_of_onlyQueues (aux := aux) hx (onlyQueues_updDie _ _ fun _ _ => rfl) ?_
  exact congrArg Die.loessQ (die_updDie_same (ruseWord.issued f x s _) _ hdie)

/-! ### The radiance cache (R408) -/

theorem radWords_exec {a : EngineWord} (ha : a ∈ radWords) (f : FmtA) (x : Upper) (s : State) :
    ∃ aux after, ClearsStatus after ∧ exec (a.word f x) s =
      s.radWord a.code f x (a.wid x) (regsFrom f.dst (a.lane x)) (regsFrom f.dst a.uni) aux after := by
  fin_cases ha
  on_goal 8 => exact ⟨_, _, clearsStatus_updDie (g := fun d => { d with radStat := 0 }) (fun _ _ => rfl) (fun _ => rfl), rfl⟩
  all_goals exact ⟨_, id, clearsStatus_id, rfl⟩

theorem radWords_cls {a : EngineWord} (ha : a ∈ radWords) : a.cls = .rad ∧ a.code ≠ 0x17A := by
  fin_cases ha <;> exact ⟨rfl, by decide⟩

/-- RCWLD and RCWST take a log entry; RCWST writes global memory (R415). -/
theorem radWords_log_glob {a : EngineWord} (ha : a ∈ radWords) (x : Upper) :
    a.log x = (decide (a.code = 0x183) || decide (a.code = 0x184)) ∧ a.glob x = decide (a.code = 0x184) := by
  fin_cases ha <;> exact ⟨rfl, rfl⟩

/-- A word of the class for which the unit and the log have room issues (R408). -/
theorem radWord_eq_radEnter {s : State} {code : Nat} {f : FmtA} {x : Upper} {wid vdst wdst aux : List Nat}
    {after : State → State} {k : Option Nat} (he : s.execSet f.cond ≠ 0)
    (hroom : ¬ 32 ≤ (s.die s.g.die).radq.countP fun o => s.clusterOf o == cluster s.g.core)
    (hk : LogEntry s (decide (code = 0x183) || decide (code = 0x184)) k) :
    let o := { s.mkOp code f x wid (s.execSet f.cond) with cls := some .rad }
    s.radWord code f x wid vdst wdst aux after =
      .next (after ((issued s o vdst wdst (decide (code = 0x184)) k).radEnter { o with aux := aux, logi := k })) := by
  intro o
  simp only [State.radWord, if_neg he, if_neg hroom]
  generalize (decide (code = 0x183) || decide (code = 0x184)) = log at hk ⊢
  cases hk with
  | taken hn =>
    rw [← takeLog_advance_addOut_eq_issued]
    simp only [hn]
    rfl
  | unused =>
    rw [← advance_addOut_eq_issued]
    rfl

/-- A die with an operation last in its query units. -/
def joinRadq (o : Op) (d : Die) : Die := { d with radq := d.radq ++ [o] }

/-- Where the checks of an image find no fault, the operation enters the query unit of its die. -/
theorem radEnter_of_no_fault {u : State} {o : Op} (h : o.code = 0x183 ∨ o.code = 0x184 → u.imageFault o = none) :
    u.radEnter o = u.updDie u.g.die (joinRadq o) := by
  unfold State.radEnter
  split
  · next hc => rw [h hc]; rfl
  · rfl

/-- A word of the class stands last in the query unit of its die, and may then have cleared a status. -/
theorem radWords_next {a : EngineWord} (ha : a ∈ radWords) {f : FmtA} {x : Upper} {s : State} {k : Option Nat}
    (he : s.execSet f.cond ≠ 0) (hroom : ¬ 32 ≤ (s.die s.g.die).radq.countP fun o => s.clusterOf o == cluster s.g.core)
    (hfault : a.code = 0x183 ∨ a.code = 0x184 → s.imageFault (a.op f x s) = none) (hk : LogEntry s (a.log x) k) :
    ∃ aux after, ClearsStatus after ∧ exec (a.word f x) s =
      .next (after ((a.issued f x s k).updDie s.g.die (joinRadq (a.entered f x s k aux)))) := by
  obtain ⟨hcls, hcode⟩ := radWords_cls ha
  obtain ⟨hlog, hglob⟩ := radWords_log_glob ha x
  obtain ⟨aux, after, hafter, hx⟩ := radWords_exec ha f x s
  have henter : (a.issued f x s k).radEnter (a.entered f x s k aux) =
      (a.issued f x s k).updDie s.g.die (joinRadq (a.entered f x s k aux)) := radEnter_of_no_fault hfault
  refine ⟨aux, after, hafter, ?_⟩
  rw [← henter, hx, radWord_eq_radEnter he hroom (hlog ▸ hk), EngineWord.entered_eq hcode, EngineWord.issued, hglob,
    EngineWord.op, hcls]

theorem radWords_enter {a : EngineWord} (ha : a ∈ radWords) {f : FmtA} {x : Upper} {s : State} {k : Option Nat}
    (he : s.execSet f.cond ≠ 0) (hfull : ¬ a.Full s) (hclean : a.Clean f x s) (hdie : s.phys s.g.die < s.dies.length)
    (hk : LogEntry s (a.log x) k) : a.Enters f x s k := by
  obtain ⟨hcls, -⟩ := radWords_cls ha
  have hqueue : ∀ t, a.queue t = (t.die t.g.die).radq := fun t => by simp [EngineWord.queue, hcls]
  have hroom : ¬ 32 ≤ (s.die s.g.die).radq.countP fun o => s.clusterOf o == cluster s.g.core := by
    simpa [EngineWord.Full, hcls, hqueue] using hfull
  have hfault : a.code = 0x183 ∨ a.code = 0x184 → s.imageFault (a.op f x s) = none := by
    simpa only [EngineWord.Clean, hcls] using hclean
  obtain ⟨aux, after, hafter, hx⟩ := radWords_next ha he hroom hfault hk
  have honly := onlyQueues_updDie (a.issued f x s k) s.g.die (g := joinRadq (a.entered f x s k aux)) fun _ _ => rfl
  refine EngineWord.enters_of_onlyQueues (aux := aux) hx (honly.trans (hafter.only _)) ?_
  rw [hqueue, hqueue, (hafter.only _).g_die, hafter.radq]
  exact congrArg Die.radq (die_updDie_same (a.issued f x s k) _ hdie)

/-! ### All engines -/

theorem engineWords_enter {a : EngineWord} (ha : a ∈ engineWords) {f : FmtA} {x : Upper} {s : State} {k : Option Nat}
    (he : s.execSet f.cond ≠ 0) (htrap : a.trap f x s = none) (hfull : ¬ a.Full s) (hclean : a.Clean f x s)
    (hdie : s.phys s.g.die < s.dies.length) (hk : LogEntry s (a.log x) k) : a.Enters f x s k := by
  simp only [engineWords, List.mem_append] at ha
  rcases ha with (((hcopy | hmtx) | hray) | hrsv) | hrad
  · exact copyWords_enter hcopy he htrap hfull hclean hk
  · exact mtxWords_enter hmtx he htrap hfull hclean hk
  · exact rayWords_enter hray he hfull hk
  · by_cases hcode : a.code = 0x17A
    · obtain rfl := rsvWords_eq_ruseWord hrsv hcode
      exact ruse_enters he htrap hfull hdie hk
    · exact recordWords_enter hrsv hcode he htrap hfull hclean hk
  · exact radWords_enter hrad he hfull hclean hdie hk

/-- Settles O39: each engine takes its words in out of the state of issue. -/
theorem engineWordsEnterQueues : Obligations.EngineWordsEnterQueues := by
  unfold Obligations.EngineWordsEnterQueues
  intro a ha f x s he htrap hfull hclean hdie
  refine ⟨fun hlog k hfree => ?_, fun hlog => ?_⟩
  · exact engineWords_enter ha he htrap hfull hclean hdie (hlog ▸ .taken hfree)
  · exact engineWords_enter ha he htrap hfull hclean hdie (hlog ▸ .unused)

end Sys2Proof.Slice0
end

section
/-! PROOF of O59. The reset state is a constant. A failed start is one of three states, by the count of those before it; a warp's
registers at its start are the words of its launch record, written one by one. -/

namespace Sys2Proof.Slice0

open Sys2Proof.Machine

/-! ### Starts that fail (R526) -/

/-- A first or second failed start resets the hub, which counts it. -/
theorem failStart_again {s : State} (h : s.hub.fails = 0 ∨ s.hub.fails = 1) (r : Nat) : (s.failStart r).hub.state = 0
    ∧ (s.failStart r).hub.fails = s.hub.fails + 1 ∧ (s.failStart r).hub.reason = BitVec.ofNat 8 r := by
  unfold State.failStart
  rcases h with h | h
  · rw [h]; exact ⟨rfl, rfl, rfl⟩
  · rw [h]; exact ⟨rfl, rfl, rfl⟩

/-- The third enters minimal mode. -/
theorem failStart_third {s : State} (h : s.hub.fails = 2) (r : Nat) : (s.failStart r).hub.state = 5
    ∧ (s.failStart r).hub.fails = 3 ∧ (s.failStart r).hub.reason = BitVec.ofNat 8 r := by
  unfold State.failStart
  rw [h]; exact ⟨rfl, rfl, rfl⟩

/-- START with an image that the ROM will refuse: verification fails with the reason of the check. -/
theorem start_of_bad {s : State} {image : List Byte} {r : Nat} (hbad : checkImage (stage s.hub.image 0 image) = some r)
    (hst : s.hub.state = 1) : ∃ t, exec (.start image) s = .next t ∧ t.hub.state = 2 ∧ t.hub.fails = s.hub.fails
      ∧ t.verifyImage = t.failStart r := by
  refine ⟨({ s with hub := { s.hub with image := stage s.hub.image 0 image } } : State).startImage, rfl, ?_⟩
  simp only [State.startImage, if_pos hst]
  exact ⟨trivial, trivial, by rw [State.verifyImage, hbad]⟩

/-! ### The registers of a warp at its start (R427) -/

theorem get_foldl_set_range (x : Nat → Word) (n k : Nat) :
    Sparse.get 0 ((List.range n).foldl (fun u k => Sparse.set 0 u k (x k)) []) k = if k < n then x k else 0 := by
  induction n with
  | zero => rfl
  | succ n ih =>
    rw [List.range_succ, List.foldl_append, List.foldl_cons, List.foldl_nil, Sparse.get_set, ih]
    by_cases h : k = n
    · simp [h]
    · simp [h, show k < n + 1 ↔ k < n by omega]

theorem packageForm_reset : PackageForm State.reset := by
  unfold PackageForm; decide

/-- Settles O59: the reset state by evaluation, the failed starts by their count, and the warp by its record. -/
theorem resetAndStartStates : Obligations.ResetAndStartStates := by
  unfold Obligations.ResetAndStartStates
  refine ⟨rfl, rfl, rfl, rfl, rfl, rfl, rfl, rfl, by decide, packageForm_reset, fun s image hbad hst => ?_,
    fun r id wg idx slot time active => ⟨rfl, rfl, rfl, rfl, rfl, rfl, rfl, rfl, rfl, rfl, rfl, rfl, get_foldl_set_range _ _⟩⟩
  obtain ⟨t, hx, hstate, hfails, hverify⟩ := start_of_bad hbad hst
  refine ⟨t, hx, hstate, fun h => ?_, fun h => ?_, fun h => ?_⟩
  · obtain ⟨h1, h2, h3⟩ := failStart_again (.inl (hfails.trans h)) 2
    simp only [hverify, State.romStep, State.bootStatus, h1, h2, h3, hfails, h]
    decide
  · obtain ⟨h1, h2, h3⟩ := failStart_again (.inr (hfails.trans h)) 2
    simp only [hverify, State.romStep, State.bootStatus, h1, h2, h3, hfails, h]
    decide
  · obtain ⟨h1, h2, h3⟩ := failStart_third (hfails.trans h) 2
    simp only [hverify, State.bootStatus, h1, h2, h3]
    decide

end Sys2Proof.Slice0
end

section
/-! PROOF of O20. A NaN operand makes the exact value of a sum, a product or a quotient a NaN, and the flags of every operation
take in NV for a signalling NaN among the operands. -/

namespace Sys2Proof.Slice0

open Sys2Proof.Machine

/-! ### Values (R66, R68) -/

theorem fval_of_isNan {f : Fmt} {x : Nat} (h : isNan f x = true) : fval f x = .nan := if_pos (of_decide_eq_true h)

theorem isNan_of_isSnan {f : Fmt} {x : Nat} (h : isSnan f x = true) : isNan f x = true := (Bool.and_eq_true_iff.mp h).1

theorem addV_of_nan (rm : Rm) {x y : FVal} (h : x = .nan ∨ y = .nan) : addV rm x y = (.nan, false) := by
  rcases h with rfl | rfl
  · rfl
  · cases x <;> rfl

theorem mulV_of_nan {x y : FVal} (h : x = .nan ∨ y = .nan) : mulV x y = (.nan, false) := by
  rcases h with rfl | rfl
  · rfl
  · cases x <;> rfl

theorem fval_nan_or {f g : Fmt} {x y : Nat} (h : (isNan f x || isNan g y) = true) : fval f x = .nan ∨ fval g y = .nan :=
  (Bool.or_eq_true_iff.mp h).imp fval_of_isNan fval_of_isNan

/-! ### Results (R168 to R170) -/

theorem fAdd_bits_of_nan {f : Fmt} {a b : Nat} (rm : Rm) (h : (isNan f a || isNan f b) = true) : (fAdd f rm a b).bits = f.nan := by
  simp only [fAdd, addV_of_nan rm (fval_nan_or h)]; rfl

theorem fMul_bits_of_nan {f : Fmt} {a b : Nat} (rm : Rm) (h : (isNan f a || isNan f b) = true) : (fMul f rm a b).bits = f.nan := by
  simp only [fMul, mulV_of_nan (fval_nan_or h)]; rfl

theorem fDiv_of_nan {f : Fmt} {a b : Nat} (rm : Rm) (h : (isNan f a || isNan f b) = true) :
    fDiv f rm a b = .nan f (snanFl f [a, b]) := by
  unfold fDiv
  rcases fval_nan_or h with ha | hb
  · rw [ha]
  · rw [hb]; cases fval f a <;> rfl

theorem fFma_bits_of_nan {f : Fmt} {a b c : Nat} (rm : Rm) (h : (isNan f a || isNan f b || isNan f c) = true) :
    (fFma f rm a b c).bits = f.nan := by
  have hsum : (mulV (fval f a) (fval f b)).1 = .nan ∨ fval f c = .nan :=
    (Bool.or_eq_true_iff.mp h).imp (fun hab => by rw [mulV_of_nan (fval_nan_or hab)]) fval_of_isNan
  simp only [fFma, addV_of_nan rm hsum]; rfl

theorem elem_zero (x : Nat) : elem x 0 = lo16 x := by simp [elem, lo16]

theorem elem_one (x : Nat) : elem x 1 = hi16 x := rfl

/-- Where no two infinities meet in the dot product, its exact sum is a NaN all the same. -/
theorem fDot2_bits_of_nan {a b c : Nat} (rm : Rm)
    (h : (isNan f32 c || [elem a 0, elem a 1, elem b 0, elem b 1].any (isNan bf16)) = true) : (fDot2 rm a b c).bits = f32.nan := by
  have hsum : (addV rm (addV rm (mulV (fval bf16 (lo16 a)) (fval bf16 (lo16 b))).1
      (mulV (fval bf16 (hi16 a)) (fval bf16 (hi16 b))).1).1 (fval f32 c)).1 = .nan := by
    rcases Bool.or_eq_true_iff.mp h with hc | hab
    · rw [addV_of_nan rm (.inr (fval_of_isNan hc))]
    · have hprod : (mulV (fval bf16 (lo16 a)) (fval bf16 (lo16 b))).1 = .nan
          ∨ (mulV (fval bf16 (hi16 a)) (fval bf16 (hi16 b))).1 = .nan := by
        have hpair : (isNan bf16 (lo16 a) || isNan bf16 (lo16 b)) = true ∨ (isNan bf16 (hi16 a) || isNan bf16 (hi16 b)) = true := by
          simp only [elem_zero, elem_one, List.any_cons, List.any_nil, Bool.or_false, Bool.or_eq_true] at hab ⊢
          tauto
        exact hpair.imp (fun hp => by rw [mulV_of_nan (fval_nan_or hp)]) fun hp => by rw [mulV_of_nan (fval_nan_or hp)]
      rw [addV_of_nan rm (.inl (by rw [addV_of_nan rm hprod]))]
  unfold fDot2
  dsimp only
  split
  · rfl
  · rw [hsum]; rfl

/-! ### NV (R68) -/

@[simp] theorem snanFl_nv (f : Fmt) (xs : List Nat) : (snanFl f xs)[4] = xs.any (isSnan f) := by
  unfold snanFl
  split
  · next h => exact (show flNV[4] = true by decide).trans h.symm
  · next h => exact (show (0 : Flags)[4] = false by decide).trans (Bool.eq_false_of_not_eq_true h).symm

theorem fAdd_nv {f : Fmt} {a b : Nat} (rm : Rm) (h : (isSnan f a || isSnan f b) = true) : (fAdd f rm a b).fl.getLsbD 4 = true := by
  simp [fAdd, Bool.or_eq_true_iff.mp h]

theorem fMul_nv {f : Fmt} {a b : Nat} (rm : Rm) (h : (isSnan f a || isSnan f b) = true) : (fMul f rm a b).fl.getLsbD 4 = true := by
  simp [fMul, Bool.or_eq_true_iff.mp h]

theorem fFma_nv {f : Fmt} {a b c : Nat} (rm : Rm) (h : (isSnan f a || isSnan f b || isSnan f c) = true) :
    (fFma f rm a b c).fl.getLsbD 4 = true := by
  have hs : isSnan f a = true ∨ isSnan f b = true ∨ isSnan f c = true := by simpa [or_assoc] using h
  simp [fFma, hs]

theorem fDiv_nv {f : Fmt} {a b : Nat} (rm : Rm) (h : (isSnan f a || isSnan f b) = true) : (fDiv f rm a b).fl.getLsbD 4 = true := by
  have hnan : (isNan f a || isNan f b) = true :=
    Bool.or_eq_true_iff.mpr ((Bool.or_eq_true_iff.mp h).imp isNan_of_isSnan isNan_of_isSnan)
  simpa [fDiv_of_nan rm hnan, FRes.nan] using h

theorem fMin_fl (f : Fmt) (a b : Nat) : (fMin f a b).fl = snanFl f [a, b] := by
  unfold fMin; split_ifs <;> rfl

theorem fMax_fl (f : Fmt) (a b : Nat) : (fMax f a b).fl = snanFl f [a, b] := by
  unfold fMax; split_ifs <;> rfl

theorem fDot2_nv {a b c : Nat} (rm : Rm)
    (h : (isSnan f32 c || [elem a 0, elem a 1, elem b 0, elem b 1].any (isSnan bf16)) = true) :
    (fDot2 rm a b c).fl.getLsbD 4 = true := by
  have hfl : (snanFl bf16 [lo16 a, lo16 b, hi16 a, hi16 b] ||| snanFl f32 [c]).getLsbD 4 = true := by
    simp [elem_zero, elem_one] at h ⊢
    tauto
  unfold fDot2
  dsimp only
  split
  · rw [FRes.nan, BitVec.getLsbD_or, hfl]; rfl
  · rw [BitVec.getLsbD_or, hfl, Bool.or_true]

/-- Settles O20: operation by operation. -/
theorem nanOperandsGiveCanonicalNan : Obligations.NanOperandsGiveCanonicalNan := by
  unfold Obligations.NanOperandsGiveCanonicalNan
  intro fm _ rm a b c
  refine ⟨fun h => ⟨fAdd_bits_of_nan rm h, fMul_bits_of_nan rm h, ?_⟩, fFma_bits_of_nan rm,
    fun h => ⟨fAdd_nv rm h, fMul_nv rm h, fDiv_nv rm h, ?_, ?_⟩, fFma_nv rm, fDot2_bits_of_nan rm, fDot2_nv rm⟩
  · rw [fDiv_of_nan rm h]; rfl
  · rw [fMin_fl]; simpa using h
  · rw [fMax_fl]; simpa using h

end Sys2Proof.Slice0
end

section
/-! PROOF of O21. Rounding puts a magnitude on the grid of its binade. The grid point below it is the encoding `down` of the
statement, and what the mode makes of the remainder is what `roundedTo` says; past the last binade the mode overflows. -/

namespace Sys2Proof.Slice0

open Sys2Proof.Machine

/-! ### A magnitude in steps of the grid (R71) -/

/-- The numerator and the number of bits that fall away, for m × 2^e on the grid 2^q: one of the two powers is 1. -/
def gridNum (m : Nat) (e q : Int) : Nat := m * 2 ^ (e - q).toNat
def gridShift (e q : Int) : Nat := (q - e).toNat

theorem rndGrid_fst (rm : Rm) (neg : Bool) (m : Nat) (e q : Int) :
    (rndGrid rm neg m e q).1 = rndShift rm neg (gridNum m e q) (gridShift e q) := by
  unfold rndGrid gridNum gridShift
  split
  · next h =>
    rw [show (q - e).toNat = 0 by omega]
    simp [rndShift, Nat.mod_one]
  · next h =>
    rw [show (e - q).toNat = 0 by omega]
    simp

/-- The mode decides by the place of the remainder: below the middle, at it, or none at all. -/
theorem rndShift_eq_roundedTo (rm : Rm) (neg : Bool) (n k : Nat) :
    rndShift rm neg n k = roundedTo rm neg (decide (2 * (n % 2 ^ k) < 2 ^ k)) (decide (2 * (n % 2 ^ k) = 2 ^ k))
      (decide (n % 2 ^ k = 0)) (n / 2 ^ k) := by
  unfold rndShift roundedTo
  by_cases hr : n % 2 ^ k = 0
  · cases rm <;> simp [hr]
  · cases rm
    case rne =>
      rcases lt_trichotomy (2 * (n % 2 ^ k)) (2 ^ k) with h | h | h
      · simp [hr, h, h.not_gt, h.ne]
      · rcases Nat.mod_two_eq_zero_or_one (n / 2 ^ k) with hp | hp <;> simp [hr, h, hp]
      · simp [hr, h, h.not_gt, h.ne']
    case rtz => simp [hr]
    case rdn => cases neg <;> simp [hr]
    case rup => cases neg <;> simp [hr]

/-- An even number of steps more below the grid point changes no decision. -/
theorem roundedTo_even_add (rm : Rm) (neg low tie exact : Bool) (k y : Nat) :
    roundedTo rm neg low tie exact (2 * k + y) = 2 * k + roundedTo rm neg low tie exact y := by
  unfold roundedTo
  cases rm <;> simp only [Nat.mul_add_mod] <;> split <;> rfl

theorem roundedTo_cases (rm : Rm) (neg low tie exact : Bool) (y : Nat) :
    roundedTo rm neg low tie exact y = y ∨ roundedTo rm neg low tie exact y = y + 1 := by
  unfold roundedTo
  cases rm
  case rtz => exact .inl rfl
  all_goals dsimp only; split
  all_goals simp

theorem scaled_eq (m : Nat) (e q : Int) :
    (m : ℚ) * 2 ^ e = (gridNum m e q : ℚ) / 2 ^ gridShift e q * 2 ^ q := by
  have h : e = (e - q).toNat - (q - e).toNat + q := by omega
  conv_lhs => rw [h, zpow_add₀ two_ne_zero, zpow_sub₀ two_ne_zero, zpow_natCast, zpow_natCast]
  rw [gridNum, gridShift]; push_cast; ring

/-- A quotient of scale u is its whole steps and a remainder of finer ones. -/
theorem scaled_split (n k : Nat) (u : ℚ) :
    (n : ℚ) / 2 ^ k * u = (n / 2 ^ k : Nat) * u + (n % 2 ^ k : Nat) * (u / 2 ^ k) := by
  have h : (n : ℚ) = 2 ^ k * (n / 2 ^ k : Nat) + (n % 2 ^ k : Nat) := by exact_mod_cast (Nat.div_add_mod n (2 ^ k)).symm
  conv_lhs => rw [h]
  field_simp

section
variable (n k : Nat) {u : ℚ} (hu : 0 < u)
include hu

theorem steps_le : ((n / 2 ^ k : Nat) : ℚ) * u ≤ n / 2 ^ k * u := by
  rw [scaled_split]
  exact le_add_of_nonneg_right (by positivity)

theorem lt_next_step : (n : ℚ) / 2 ^ k * u < ((n / 2 ^ k : Nat) + 1) * u := by
  have hr : ((n % 2 ^ k : Nat) : ℚ) < 2 ^ k := by exact_mod_cast Nat.mod_lt n (by positivity)
  have hlt : ((n % 2 ^ k : Nat) : ℚ) * (u / 2 ^ k) < 2 ^ k * (u / 2 ^ k) := mul_lt_mul_of_pos_right hr (by positivity)
  rw [mul_div_cancel₀ u (by positivity)] at hlt
  rw [scaled_split, add_one_mul]
  exact add_lt_add_right hlt _

/-- How far a magnitude lies below the middle between two steps, in the finer ones. -/
theorem middle_sub : ((n / 2 ^ k : Nat) : ℚ) * u + ((n / 2 ^ k : Nat) + 1) * u - 2 * (n / 2 ^ k * u)
    = ((2 ^ k : Nat) - (2 * (n % 2 ^ k) : Nat)) * (u / 2 ^ k) := by
  rw [scaled_split]
  push_cast
  field_simp
  ring

theorem below_middle_iff : 2 * ((n : ℚ) / 2 ^ k * u) < (n / 2 ^ k : Nat) * u + ((n / 2 ^ k : Nat) + 1) * u
    ↔ 2 * (n % 2 ^ k) < 2 ^ k := by
  rw [← sub_pos, middle_sub n k hu, mul_pos_iff_of_pos_right (by positivity), sub_pos, Nat.cast_lt]

theorem at_middle_iff : 2 * ((n : ℚ) / 2 ^ k * u) = (n / 2 ^ k : Nat) * u + ((n / 2 ^ k : Nat) + 1) * u
    ↔ 2 * (n % 2 ^ k) = 2 ^ k := by
  rw [eq_comm, ← sub_eq_zero, middle_sub n k hu, mul_eq_zero_iff_right (by positivity), sub_eq_zero, Nat.cast_inj, eq_comm]

theorem at_step_iff : (n : ℚ) / 2 ^ k * u = (n / 2 ^ k : Nat) * u ↔ n % 2 ^ k = 0 := by
  rw [scaled_split, add_eq_left, mul_eq_zero_iff_right (by positivity), Nat.cast_eq_zero]

end

/-! ### Binades (R65, R66, R73) -/

/-- The exponent field that the grid of m × 2^e has: 1 for what lies below the least normal magnitude. -/
def gridField (f : Fmt) (m : Nat) (e : Int) : Nat := (max (Nat.log2 m + e) f.emin + f.bias).toNat

/-- The exponent of the grid that belongs to an exponent field of at least 1. -/
def fieldGrid (f : Fmt) (E : Nat) : Int := E - f.bias - f.p + 1

theorem gridField_pos (f : Fmt) (m : Nat) (e : Int) : 1 ≤ gridField f m e := by
  simp only [gridField, Fmt.emin]; omega

/-- The exponent of the grid of m × 2^e. -/
def gridOf (f : Fmt) (m : Nat) (e : Int) : Int := fieldGrid f (gridField f m e)

theorem gridOf_eq (f : Fmt) (m : Nat) (e : Int) : gridOf f m e = max (Nat.log2 m + e) f.emin - f.p + 1 := by
  simp only [gridOf, fieldGrid, gridField, Fmt.emin]; omega

/-- The encoding of y steps of the grid of an exponent field. -/
def codeOf (f : Fmt) (E y : Nat) : Nat := (E - 1) * 2 ^ (f.p - 1) + y

theorem infBits_eq_codeOf {f : Fmt} (h : 0 < f.ebits) : f.infBits = codeOf f (2 ^ f.ebits - 1) (2 ^ (f.p - 1)) := by
  have h2 : 2 ≤ 2 ^ f.ebits := Nat.le_self_pow (by omega) 2
  obtain ⟨k, hk⟩ : ∃ k, 2 ^ f.ebits - 1 = k + 1 := ⟨2 ^ f.ebits - 2, by omega⟩
  rw [Fmt.infBits, codeOf, hk]; simp [Nat.succ_mul]

theorem magnitude_subnormal {f : Fmt} {y : Nat} (hy : y < 2 ^ (f.p - 1)) : magnitude f y = y * 2 ^ fieldGrid f 1 := by
  simp [magnitude, Nat.div_eq_of_lt hy, Nat.mod_eq_of_lt hy, fieldGrid]

theorem magnitude_normal {f : Fmt} {E y : Nat} (hE : 1 ≤ E) (hy : y < 2 ^ (f.p - 1)) :
    magnitude f (E * 2 ^ (f.p - 1) + y) = (2 ^ (f.p - 1) + y) * 2 ^ fieldGrid f E := by
  have hex : (E * 2 ^ (f.p - 1) + y) / 2 ^ (f.p - 1) = E := by
    rw [Nat.mul_comm, Nat.mul_add_div (by positivity), Nat.div_eq_of_lt hy, Nat.add_zero]
  have hfr : (E * 2 ^ (f.p - 1) + y) % 2 ^ (f.p - 1) = y := by
    rw [Nat.mul_comm, Nat.mul_add_mod, Nat.mod_eq_of_lt hy]
  have hmax : max (E : Int) 1 = E := by omega
  simp only [magnitude, hex, hfr, hmax, fieldGrid, if_neg (show ¬ E = 0 by omega)]

/-- The steps of a binade are encodings up to the first of the next binade; below the least normal magnitude also those before. -/
theorem magnitude_codeOf {f : Fmt} {E y : Nat} (hE : 1 ≤ E) (hy : y ≤ 2 * 2 ^ (f.p - 1))
    (hn : E = 1 ∨ 2 ^ (f.p - 1) ≤ y) : magnitude f (codeOf f E y) = y * 2 ^ fieldGrid f E := by
  obtain ⟨k, rfl⟩ : ∃ k, E = k + 1 := ⟨E - 1, by omega⟩
  rcases lt_or_ge y (2 ^ (f.p - 1)) with hlow | hhigh
  · obtain rfl : k = 0 := by omega
    simpa [codeOf] using magnitude_subnormal hlow
  obtain ⟨z, rfl⟩ : ∃ z, y = 2 ^ (f.p - 1) + z := ⟨y - 2 ^ (f.p - 1), by omega⟩
  rcases lt_or_ge z (2 ^ (f.p - 1)) with hin | hnext
  · have hcode : codeOf f (k + 1) (2 ^ (f.p - 1) + z) = (k + 1) * 2 ^ (f.p - 1) + z := by rw [codeOf, Nat.add_sub_cancel]; ring
    rw [hcode, magnitude_normal hE hin]; push_cast; rfl
  · obtain rfl : z = 2 ^ (f.p - 1) := by omega
    have hcode : codeOf f (k + 1) (2 ^ (f.p - 1) + 2 ^ (f.p - 1)) = (k + 2) * 2 ^ (f.p - 1) + 0 := by
      rw [codeOf, Nat.add_sub_cancel]; ring
    have hgrid : fieldGrid f (k + 2) = fieldGrid f (k + 1) + 1 := by simp only [fieldGrid]; push_cast; ring
    rw [hcode, magnitude_normal (by omega) (by positivity), hgrid, zpow_add_one₀ two_ne_zero]; push_cast; ring

/-- The first magnitude past the finite ones (R66). -/
theorem magnitude_infBits {f : Fmt} (hp : 0 < f.p) (he : 0 < f.ebits) : magnitude f f.infBits = 2 ^ (2 ^ f.ebits - 1 - f.bias) := by
  have h2 : 2 ≤ 2 ^ f.ebits := Nat.le_self_pow (by omega) 2
  rw [infBits_eq_codeOf he, magnitude_codeOf (by omega) (by omega) (.inr le_rfl), Nat.cast_pow, Nat.cast_two, ← zpow_natCast,
    ← zpow_add₀ two_ne_zero, fieldGrid]
  congr 1
  push_cast [show 1 ≤ 2 ^ f.ebits by omega, show 1 ≤ f.p by omega]
  ring

/-! ### The binade of a magnitude -/

section
variable {f : Fmt} {m : Nat} {e : Int}

theorem le_scaled (hm : m ≠ 0) : (2 : ℚ) ^ (Nat.log2 m + e) ≤ m * 2 ^ e := by
  rw [zpow_add₀ two_ne_zero, zpow_natCast]
  have h : 2 ^ Nat.log2 m ≤ m := Nat.log2_self_le hm
  exact mul_le_mul_of_nonneg_right (by exact_mod_cast h) (by positivity)

theorem scaled_lt (m : Nat) (e : Int) : (m : ℚ) * 2 ^ e < 2 ^ (Nat.log2 m + e + 1) := by
  rw [show (Nat.log2 m + e + 1 : Int) = (Nat.log2 m + 1 : Nat) + e by push_cast; ring, zpow_add₀ two_ne_zero, zpow_natCast]
  have h : m < 2 ^ (Nat.log2 m + 1) := Nat.lt_log2_self
  exact mul_lt_mul_of_pos_right (by exact_mod_cast h) (by positivity)

/-- The whole steps of m × 2^e on its grid. -/
def gridSteps (f : Fmt) (m : Nat) (e : Int) : Nat :=
  gridNum m e (gridOf f m e) / 2 ^ gridShift e (gridOf f m e)

theorem gridSteps_le (f : Fmt) (m : Nat) (e : Int) :
    (gridSteps f m e : ℚ) * 2 ^ gridOf f m e ≤ m * 2 ^ e := by
  rw [scaled_eq m e (gridOf f m e)]
  exact steps_le _ _ (by positivity)

theorem lt_gridSteps_add_one (f : Fmt) (m : Nat) (e : Int) :
    (m : ℚ) * 2 ^ e < (gridSteps f m e + 1) * 2 ^ gridOf f m e := by
  rw [scaled_eq m e (gridOf f m e)]
  exact lt_next_step _ _ (by positivity)

theorem gridSteps_lt (hp : 0 < f.p) : gridSteps f m e < 2 * 2 ^ (f.p - 1) := by
  have hbinade : (Nat.log2 m + e + 1 : Int) ≤ (1 + (f.p - 1) : Nat) + gridOf f m e := by
    rw [gridOf_eq]; omega
  have h : (gridSteps f m e : ℚ) * 2 ^ gridOf f m e
      < 2 ^ (1 + (f.p - 1)) * 2 ^ gridOf f m e :=
    calc (gridSteps f m e : ℚ) * 2 ^ gridOf f m e
        ≤ m * 2 ^ e := gridSteps_le f m e
      _ < 2 ^ (Nat.log2 m + e + 1) := scaled_lt m e
      _ ≤ 2 ^ (((1 + (f.p - 1) : Nat) : Int) + gridOf f m e) := zpow_le_zpow_right₀ one_le_two hbinade
      _ = 2 ^ (1 + (f.p - 1)) * 2 ^ gridOf f m e := by rw [zpow_add₀ two_ne_zero, zpow_natCast]
  rw [← Nat.pow_succ', Nat.succ_eq_one_add]
  exact_mod_cast lt_of_mul_lt_mul_right h (by positivity)

theorem le_gridSteps (hp : 0 < f.p) (hm : m ≠ 0) (hn : f.emin ≤ Nat.log2 m + e) : 2 ^ (f.p - 1) ≤ gridSteps f m e := by
  have hbinade : ((f.p - 1 : Nat) : Int) + gridOf f m e = Nat.log2 m + e := by
    rw [gridOf_eq]; omega
  have h : (2 : ℚ) ^ (f.p - 1) * 2 ^ gridOf f m e
      < (gridSteps f m e + 1) * 2 ^ gridOf f m e :=
    calc (2 : ℚ) ^ (f.p - 1) * 2 ^ gridOf f m e
        = 2 ^ (Nat.log2 m + e) := by rw [← zpow_natCast, ← zpow_add₀ two_ne_zero, hbinade]
      _ ≤ m * 2 ^ e := le_scaled hm
      _ < (gridSteps f m e + 1) * 2 ^ gridOf f m e := lt_gridSteps_add_one f m e
  exact Nat.lt_succ_iff.mp (by exact_mod_cast lt_of_mul_lt_mul_right h (by positivity))

/-- Below the least normal magnitude the field is 1; elsewhere a binade has its full number of steps. -/
theorem gridField_eq_one_or (hp : 0 < f.p) (hm : m ≠ 0) : gridField f m e = 1 ∨ 2 ^ (f.p - 1) ≤ gridSteps f m e := by
  rcases lt_or_ge (Nat.log2 m + e) f.emin with hsub | hnorm
  · left; simp only [gridField, Fmt.emin] at *; omega
  · exact .inr (le_gridSteps hp hm hnorm)

/-! ### The encoding that rounding gives -/

/-- The encoding before the test for overflow. -/
def roundedCode (f : Fmt) (rm : Rm) (neg : Bool) (m : Nat) (e : Int) : Nat :=
  codeOf f (gridField f m e) (rndGrid rm neg m e (gridOf f m e)).1

theorem cast_codeOf (f : Fmt) (m : Nat) (e : Int) (y : Nat) :
    (gridOf f m e + f.p - 1 + f.bias) * 2 ^ (f.p - 1) + y - 2 ^ (f.p - 1) = (codeOf f (gridField f m e) y : Int) := by
  rw [codeOf, gridOf, fieldGrid]
  push_cast [gridField_pos f m e]
  ring

theorem roundF_of_overflow (rm : Rm) (sat neg : Bool) (hm : m ≠ 0) (h : f.infBits ≤ roundedCode f rm neg m e) :
    (roundF f rm sat neg m e).bits = signOf f neg + (if sat then f.infBits - 1 else overflowTo f rm neg)
      ∧ (roundF f rm sat neg m e).fl = flOF ||| flNX := by
  simp only [roundF, if_neg hm, ← gridOf_eq, cast_codeOf]
  rw [if_pos (show (_ : Int) ≥ f.infBits by exact_mod_cast h)]
  refine ⟨?_, rfl⟩
  rw [Nat.add_comm]
  cases sat <;> cases rm <;> cases neg <;> rfl

theorem roundF_of_lt (rm : Rm) (sat neg : Bool) (hm : m ≠ 0) (h : roundedCode f rm neg m e < f.infBits) :
    (roundF f rm sat neg m e).bits = signOf f neg + roundedCode f rm neg m e := by
  simp only [roundF, if_neg hm, ← gridOf_eq, cast_codeOf]
  rw [if_neg (show ¬ (_ : Int) ≥ f.infBits by exact_mod_cast h.not_ge), Nat.add_comm]
  rfl

/-- The encoding below m × 2^e, with the sign left out. -/
def codeBelow (f : Fmt) (m : Nat) (e : Int) : Nat := codeOf f (gridField f m e) (gridSteps f m e)

theorem magnitude_codeBelow (hp : 0 < f.p) (hm : m ≠ 0) :
    magnitude f (codeBelow f m e) = gridSteps f m e * 2 ^ gridOf f m e :=
  magnitude_codeOf (gridField_pos f m e) (gridSteps_lt hp).le (gridField_eq_one_or hp hm)

theorem magnitude_codeBelow_add_one (hp : 0 < f.p) (hm : m ≠ 0) :
    magnitude f (codeBelow f m e + 1) = (gridSteps f m e + 1) * 2 ^ gridOf f m e := by
  have h := magnitude_codeOf (gridField_pos f m e) (gridSteps_lt (m := m) (e := e) hp)
    ((gridField_eq_one_or hp hm).imp_right Nat.le_succ_of_le)
  exact_mod_cast h

/-- Rounding on the grid is the choice of R71 between the encoding below and the next, as the magnitudes of the two decide. -/
theorem roundedCode_eq (hp : 2 ≤ f.p) (hm : m ≠ 0) (rm : Rm) (neg : Bool) :
    let q : ℚ := m * 2 ^ e
    let down := codeBelow f m e
    roundedCode f rm neg m e = roundedTo rm neg (decide (2 * q < magnitude f down + magnitude f (down + 1)))
      (decide (2 * q = magnitude f down + magnitude f (down + 1))) (decide (q = magnitude f down)) down := by
  have hu : (0 : ℚ) < 2 ^ gridOf f m e := by positivity
  have heven : (gridField f m e - 1) * 2 ^ (f.p - 1) = 2 * ((gridField f m e - 1) * 2 ^ (f.p - 2)) := by
    rw [show f.p - 1 = f.p - 2 + 1 by omega, Nat.pow_succ]; ring
  dsimp only
  rw [magnitude_codeBelow (by omega) hm, magnitude_codeBelow_add_one (by omega) hm,
    scaled_eq m e (gridOf f m e)]
  simp only [gridSteps, below_middle_iff _ _ hu, at_middle_iff _ _ hu, at_step_iff _ _ hu]
  rw [roundedCode, rndGrid_fst, rndShift_eq_roundedTo, codeBelow, codeOf, codeOf, heven, roundedTo_even_add]
  rfl

/-! ### The two cases of the statement -/

theorem codeBelow_lt (hp : 0 < f.p) (he : 2 ≤ f.ebits) (hm : m ≠ 0) (h : m * (2 : ℚ) ^ e < magnitude f f.infBits) :
    codeBelow f m e < f.infBits := by
  have h4 : 4 ≤ 2 ^ f.ebits := Nat.pow_le_pow_right (n := 2) (by omega) he
  rw [magnitude_infBits hp (by omega)] at h
  have hexp := (zpow_lt_zpow_iff_right₀ one_lt_two).mp ((le_scaled hm).trans_lt h)
  have hfield : gridField f m e + 1 ≤ 2 ^ f.ebits - 1 := by
    have hcast : ((2 ^ f.ebits : Nat) : Int) = 2 ^ f.ebits := by push_cast; rfl
    simp only [gridField, Fmt.emin] at *; omega
  obtain ⟨k, hk⟩ : ∃ k, gridField f m e = k + 1 := ⟨gridField f m e - 1, by have := gridField_pos f m e; omega⟩
  calc codeBelow f m e < (gridField f m e - 1) * 2 ^ (f.p - 1) + 2 * 2 ^ (f.p - 1) := Nat.add_lt_add_left (gridSteps_lt hp) _
    _ = (gridField f m e + 1) * 2 ^ (f.p - 1) := by rw [hk, Nat.add_sub_cancel]; ring
    _ ≤ f.infBits := Nat.mul_le_mul_right _ hfield

/-- A mode that goes up to infinity from the largest finite magnitude overflows to infinity. -/
theorem overflowTo_of_roundedTo_succ {rm : Rm} {neg low tie exact : Bool} {y : Nat}
    (h : roundedTo rm neg low tie exact y = y + 1) : overflowTo f rm neg = f.infBits := by
  cases rm <;> cases neg <;> simp_all [roundedTo, overflowTo]

theorem le_roundedCode_of_overflow (hp : 0 < f.p) (he : 0 < f.ebits) (hm : m ≠ 0)
    (h : magnitude f f.infBits ≤ m * (2 : ℚ) ^ e) (rm : Rm) (neg : Bool) : f.infBits ≤ roundedCode f rm neg m e := by
  have h2 : 2 ≤ 2 ^ f.ebits := Nat.le_self_pow (by omega) 2
  have hcast : ((2 ^ f.ebits : Nat) : Int) = 2 ^ f.ebits := by push_cast; rfl
  rw [magnitude_infBits hp he] at h
  have hexp := (zpow_lt_zpow_iff_right₀ one_lt_two).mp (h.trans_lt (scaled_lt m e))
  have hnorm : f.emin ≤ Nat.log2 m + e := by simp only [Fmt.emin]; omega
  have hfield : 2 ^ f.ebits - 1 ≤ gridField f m e := by simp only [gridField]; omega
  have hsteps : 2 ^ (f.p - 1) ≤ (rndGrid rm neg m e (gridOf f m e)).1 := by
    rw [rndGrid_fst, rndShift_eq_roundedTo]
    have hle := le_gridSteps hp hm hnorm
    rcases roundedTo_cases rm neg _ _ _ _ with hr | hr <;> rw [hr]
    · exact hle
    · exact hle.trans (Nat.le_succ _)
  rw [infBits_eq_codeOf he]
  exact Nat.add_le_add (Nat.mul_le_mul_right _ (Nat.sub_le_sub_right hfield 1)) hsteps

theorem roundF_in_range (hp : 2 ≤ f.p) (he : 2 ≤ f.ebits) (hm : m ≠ 0) (neg : Bool)
    (h : m * (2 : ℚ) ^ e < magnitude f f.infBits) (rm : Rm) :
    (roundF f rm false neg m e).bits = signOf f neg + roundedCode f rm neg m e := by
  rcases lt_or_ge (roundedCode f rm neg m e) f.infBits with hlt | hover
  · exact roundF_of_lt rm false neg hm hlt
  · have hbelow := codeBelow_lt (by omega) he hm h
    have hround := roundedCode_eq (e := e) hp hm rm neg
    have hup : roundedCode f rm neg m e = codeBelow f m e + 1 := by
      rcases hround ▸ roundedTo_cases rm neg _ _ _ (codeBelow f m e) with hd | hu
      · omega
      · exact hu
    rw [(roundF_of_overflow rm false neg hm hover).1, if_neg Bool.false_ne_true,
      overflowTo_of_roundedTo_succ (hround.symm.trans hup)]
    omega

end

theorem formats_wide {fm : Fmt} (h : fm ∈ [f32, f16, bf16]) : 2 ≤ fm.p ∧ 2 ≤ fm.ebits := by
  revert fm; decide

/-- Settles O21: `codeBelow` is the encoding below the magnitude. -/
theorem roundingFollowsMode : Obligations.RoundingFollowsMode := by
  unfold Obligations.RoundingFollowsMode
  intro fm hfm m e neg hm
  obtain ⟨hp, he⟩ := formats_wide hfm
  have hp0 : 0 < fm.p := by omega
  refine ⟨fun h => ⟨codeBelow fm m e, codeBelow_lt hp0 he hm h, ?_, ?_, fun rm => ?_⟩, fun h rm => ?_⟩
  · rw [magnitude_codeBelow hp0 hm]; exact gridSteps_le fm m e
  · rw [magnitude_codeBelow_add_one hp0 hm]; exact lt_gridSteps_add_one fm m e
  · rw [roundF_in_range hp he hm neg h rm, roundedCode_eq hp hm]
  · have hover := le_roundedCode_of_overflow hp0 (by omega) hm h rm neg
    exact ⟨(roundF_of_overflow rm false neg hm hover).1, (roundF_of_overflow rm true neg hm hover).1,
      (roundF_of_overflow rm false neg hm hover).2⟩

end Sys2Proof.Slice0
end

section
/-! PROOF of O16 and refutation of O17. Every word of the two tables writes its lanes and its codes and then ends as
`State.retireFloat` says (`FloatWord.Retires`). Where no trap follows, that completes the word. Where one follows, the trap shadow
keeps what YIELD has left to do (R125), which O17 has as nothing. -/

namespace Sys2Proof.Slice0

open Sys2Proof.Machine

/-! ### The state in which a word has its result -/

/-- A state differs from another in lane registers and condition codes of the warp in focus alone. -/
def OnlyLanesAndCodes (s u : State) : Prop :=
  ∃ v c z n o, u = { s with w := { s.w with v := v, ccC := c, ccZ := z, ccN := n, ccV := o } }

/-- The results and the codes of a word stand in a state, and nothing else has changed. -/
structure FloatWord.ResultIn (o : FloatWord) (f : FmtA) (s u : State) : Prop where
  lanes : WritesLanes s u (s.execSet f.cond) f.dst.toNat (o.words f s)
  codes : WritesCodes s u f.wcc (s.execSet f.cond) (o.codes f s)
  only  : OnlyLanesAndCodes s u

/-- A word ends as floating-point words do (R75, R76), out of a state that holds its result. -/
def FloatWord.Retires (o : FloatWord) : Prop :=
  ∀ f s, ∃ u lat, o.ResultIn f s u ∧ exec (o.word f) s = u.retireFloat (s.execSet f.cond) (o.flags f s) (fmtLen f) lat

theorem onlyLanesAndCodes_writeCodes {s u : State} (h : OnlyLanesAndCodes s u) (wcc : Bool) (e : LaneMask) (k : Nat → Codes) :
    OnlyLanesAndCodes s (u.writeCodes wcc e k) := by
  obtain ⟨v, c, z, n, o, rfl⟩ := h
  cases wcc
  · exact ⟨v, c, z, n, o, rfl⟩
  · exact ⟨_, _, _, _, _, rfl⟩

/-! ### Words with one result -/

theorem rmOf_eq_modeOf : rmOf = modeOf := by
  funext f
  simp only [rmOf, modeOf, Rm.ofCode, Nat.mod_mod]

theorem compare_onGrid_zero (s : Bool) (m : Nat) (e g : Int) : compare (onGrid s m e g) 0 = compare (onGrid s m 0 0) 0 := by
  have hpos : (0 : Int) < 2 ^ (e - g).toNat := by positivity
  have h : onGrid s m e g = onGrid s m 0 0 * 2 ^ (e - g).toNat := by simp [onGrid]
  rw [h]
  rcases lt_trichotomy (onGrid s m 0 0) 0 with hx | hx | hx
  · rw [compare_lt_iff_lt.mpr hx, compare_lt_iff_lt.mpr (mul_neg_of_neg_of_pos hx hpos)]
  · rw [hx, zero_mul]
  · rw [compare_gt_iff_gt.mpr hx, compare_gt_iff_gt.mpr (mul_pos hx hpos)]

/-- Every zero compares alike. -/
theorem cmpV_zero (x : FVal) (e k : Int) : cmpV x (.fin false 0 e) = cmpV x (.fin false 0 k) := by
  cases x with
  | nan => rfl
  | inf s => rfl
  | fin s m d =>
    have hz (j g : Int) : onGrid false 0 j g = 0 := by simp [onGrid]
    simp only [cmpV, hz]
    rw [compare_onGrid_zero s m d (min d e), compare_onGrid_zero s m d (min d k)]

theorem fval_zero {fm : Fmt} (h : 0 < fm.infBits) : fval fm 0 = .fin false 0 (fm.emin - fm.p + 1) := by
  have hs : ¬ fm.signBit = 0 := by simp [Fmt.signBit]
  simp [fval, h.ne, hs]

theorem codesFloat_eq_comparison {fm : Fmt} (h : 0 < fm.infBits) (x : Nat) : codesFloat fm x = comparison fm x 0 := by
  rw [codesFloat, comparison, fval_zero h, cmpV_zero _ 0 (fm.emin - fm.p + 1)]
  rfl

/-- Codes written after the lanes complete a result. -/
theorem resultIn_writeCodes {o : FloatWord} {f : FmtA} {s u : State} {k : Nat → Codes}
    (hlanes : WritesLanes s u (s.execSet f.cond) f.dst.toNat (o.words f s)) (honly : OnlyLanesAndCodes s u)
    (hcodes : ∀ l, u.codes l = s.codes l) (hk : ∀ l, k l = o.codes f s l) :
    o.ResultIn f s (u.writeCodes f.wcc (s.execSet f.cond) k) where
  lanes q l hl := by rw [writeCodes_v]; exact hlanes q l hl
  codes l hl := by rw [writeCodes_codes _ _ _ _ _ hl, hk, hcodes]
  only := onlyLanesAndCodes_writeCodes honly _ _ _

theorem resultOp_retires {i : FmtA → Instr} {fm : Fmt} {r res : FmtA → State → Nat → FRes} {lat : Nat}
    (hx : ∀ f s, exec (i f) s = s.floatWord f fm (res f s) lat) (hr : ∀ f s l, res f s l = r f s l)
    (hfm : 0 < fm.infBits) : (resultOp i fm r).Retires := by
  obtain rfl : res = r := by funext f s l; exact hr f s l
  exact fun f s => ⟨_, lat, resultIn_writeCodes (writesLanes_setV s _ _ _) ⟨_, _, _, _, _, rfl⟩ (fun _ => rfl)
    fun _ => codesFloat_eq_comparison hfm _, hx f s⟩

section
variable {i : FmtA → Instr} {fm : Fmt} {lat : Nat}

theorem op2_retires {g : Fmt → Rm → Nat → Nat → FRes}
    (hx : ∀ f s, exec (i f) s = s.floatWord f fm (fun l => g fm (rmOf f) (s.fa f fm l) (s.fb f fm l)) lat)
    (hfm : 0 < fm.infBits := by decide) : (resultOp i fm (op2 g fm)).Retires :=
  resultOp_retires hx (fun f s l => by rw [rmOf_eq_modeOf]; rfl) hfm

theorem op1_retires {g : Fmt → Rm → Nat → FRes}
    (hx : ∀ f s, exec (i f) s = s.floatWord f fm (fun l => g fm (rmOf f) (s.fa f fm l)) lat)
    (hfm : 0 < fm.infBits := by decide) : (resultOp i fm (op1 g fm)).Retires :=
  resultOp_retires hx (fun f s l => by rw [rmOf_eq_modeOf]; rfl) hfm

theorem fma3_retires
    (hx : ∀ f s, exec (i f) s = s.floatWord f fm (fun l => fFma fm (rmOf f) (s.fa f fm l) (s.fb f fm l) (s.fc f fm l)) lat)
    (hfm : 0 < fm.infBits := by decide) : (resultOp i fm (fma3 fm)).Retires :=
  resultOp_retires hx (fun f s l => by rw [rmOf_eq_modeOf]; rfl) hfm

/-- A packed pair is computed element by element (R169). -/
theorem packed2_retires {g : Fmt → Rm → Nat → Nat → FRes} {em : Fmt}
    (hx : ∀ f s, exec (i f) s = s.floatWord f f32 (fun l =>
      packRes (g em (rmOf f) (lo16 (s.ha f em l)) (lo16 (s.hb f em l)))
        (g em (rmOf f) (hi16 (s.ha f em l)) (hi16 (s.hb f em l)))) lat) :
    (resultOp i f32 (packed2 g em)).Retires :=
  resultOp_retires hx (fun f s l => by rw [rmOf_eq_modeOf, packed2, pairOf, elem_zero, elem_zero]; rfl) (by decide)

theorem packed3_retires {em : Fmt}
    (hx : ∀ f s, exec (i f) s = s.floatWord f f32 (fun l => hFma em (rmOf f) (s.ha f em l) (s.hb f em l) (s.hc f em l)) lat) :
    (resultOp i f32 (packed3 em)).Retires :=
  resultOp_retires hx (fun f s l => by rw [rmOf_eq_modeOf, packed3, pairOf, elem_zero, elem_zero, elem_zero]; rfl) (by decide)

theorem cvtOp_retires {src dst : Fmt}
    (hx : ∀ f s, exec (i f) s = s.cvtWord f src dst) (hfm : 0 < dst.infBits := by decide) : (cvtOp i src dst).Retires :=
  resultOp_retires hx (fun f s l => by rw [rmOf_eq_modeOf]) hfm

theorem cvtBoth_retires {dst : Fmt} (hx : ∀ f s, exec (i f) s = s.cvtPair f dst) : (cvtBoth i dst).Retires :=
  resultOp_retires hx (fun f s l => by rw [rmOf_eq_modeOf]; rfl) (by decide)

theorem fromIntOp_retires {x : FmtA → State → Nat → Int} {y : State → FmtA → Nat → Int}
    (hx : ∀ f s, exec (i f) s = s.floatWord f f32 (fun l => fFromInt (rmOf f) (y s f l)) lat)
    (hy : ∀ f s l, y s f l = x f s l) : (fromIntOp i x).Retires :=
  resultOp_retires hx (fun f s l => by rw [rmOf_eq_modeOf, hy]; rfl) (by decide)

theorem qdecOp_retires (hx : ∀ f s, exec (i f) s = s.qdecWord f fm) (hfm : 0 < fm.infBits := by decide) :
    (resultOp i fm (decodeQ4 fm)).Retires :=
  resultOp_retires hx (fun f s l => by rw [rmOf_eq_modeOf]; rfl) hfm

theorem qencOp_retires {em : Fmt} (hx : ∀ f s, exec (i f) s = s.qencWord f em) : (resultOp i f32 fun f s l =>
    q4Encode (slotFor f s) ((s.src32 f f.sb l).toNat % 1024) (modeOf f) (fval em (fA f s em l))).Retires :=
  resultOp_retires hx (fun f s l => by rw [rmOf_eq_modeOf]; rfl) (by decide)

end

/-! ### Conversions to integers (R182) -/

theorem decide_and_flNV (x : Flags) : decide (x &&& flNV ≠ 0) = x.getLsbD 4 := by
  revert x; decide

/-- The top bit of an n-bit pattern. -/
theorem le_mod_two_pow_iff (n x : Nat) : decide (2 ^ n ≤ x % 2 ^ (n + 1)) = x.testBit n := by
  have h : x % 2 ^ (n + 1) = x % 2 ^ n + 2 ^ n * (x / 2 ^ n % 2) := Nat.mod_pow_succ
  have hlt : x % 2 ^ n < 2 ^ n := Nat.mod_lt x (by positivity)
  rw [Nat.testBit_eq_decide_div_mod_eq, decide_eq_decide, h]
  rcases Nat.mod_two_eq_zero_or_one (x / 2 ^ n) with hb | hb
  · simp [hb, hlt]
  · simp [hb]

theorem codesToInt_eq {n : Nat} (hn : 0 < n) (r : FRes) : codesToInt n r =
    { c := false, z := decide (r.bits % 2 ^ n = 0), n := r.bits.testBit (n - 1), v := r.fl.getLsbD 4 } := by
  obtain ⟨k, rfl⟩ : ∃ k, n = k + 1 := ⟨n - 1, by omega⟩
  rw [codesToInt, codesOf, decide_and_flNV, Nat.add_sub_cancel, le_mod_two_pow_iff]

theorem toIntRes_eq (s : State) (f : FmtA) (n : Nat) (signed : Bool) :
    s.toIntRes f n signed = fun l => toInt n signed (modeOf f) (fval f32 (fA f s f32 l)) := by
  funext l; rw [State.toIntRes, rmOf_eq_modeOf]; rfl

theorem toIntOp32_retires {i : FmtA → Instr} {signed : Bool} (hx : ∀ f s, exec (i f) s = s.cvtInt32 f signed) :
    (toIntOp i 32 signed).Retires := fun f s =>
  ⟨_, 8, resultIn_writeCodes (writesLanes_setV s _ _ _) ⟨_, _, _, _, _, rfl⟩ (fun _ => rfl) fun _ => codesToInt_eq (by decide) _,
    (hx f s).trans (by simp only [State.cvtInt32, toIntRes_eq]; rfl)⟩

/-- A lane pair written with a 64-bit pattern (R67). -/
theorem writesLanes_setV2_ofNat (s : State) (d : Nat) (e : LaneMask) (x : Nat → Nat) :
    WritesLanes s (s.setV2 d e fun l => BitVec.ofNat 64 (x l)) e d
      fun l => [BitVec.ofNat 32 (x l), BitVec.ofNat 32 (x l / 2 ^ 32)] := by
  have hlow (y : Nat) : (BitVec.ofNat 64 y).setWidth 32 = BitVec.ofNat 32 y := by
    apply BitVec.eq_of_toNat_eq; simp
  have hhigh (y : Nat) : (BitVec.ofNat 64 y).extractLsb' 32 32 = BitVec.ofNat 32 (y / 2 ^ 32) := by
    apply BitVec.eq_of_toNat_eq; simp [Nat.shiftRight_eq_div_pow]; omega
  simpa only [hlow, hhigh] using writesLanes_setV2 s d e fun l => BitVec.ofNat 64 (x l)

theorem toIntOp64_retires {i : FmtA → Instr} {signed : Bool} (hx : ∀ f s, exec (i f) s = s.cvtInt64 f signed) :
    (toIntOp i 64 signed).Retires := fun f s =>
  ⟨_, 8, resultIn_writeCodes (writesLanes_setV2_ofNat s _ _ _) ⟨_, _, _, _, _, rfl⟩ (fun _ => rfl)
    fun _ => codesToInt_eq (by decide) _, (hx f s).trans (by simp only [State.cvtInt64, toIntRes_eq]; rfl)⟩

/-! ### The tables -/

theorem floatArithmetic_retires : ∀ o ∈ floatArithmetic, o.Retires := by
  simp only [floatArithmetic, List.forall_mem_cons]
  exact ⟨op2_retires fun _ _ => rfl, op2_retires fun _ _ => rfl, op2_retires fun _ _ => rfl,
    op2_retires fun _ _ => rfl, op2_retires fun _ _ => rfl, op2_retires fun _ _ => rfl,
    fma3_retires fun _ _ => rfl, fma3_retires fun _ _ => rfl, fma3_retires fun _ _ => rfl,
    op2_retires fun _ _ => rfl, op2_retires fun _ _ => rfl, op2_retires fun _ _ => rfl,
    op2_retires fun _ _ => rfl, op2_retires fun _ _ => rfl, op2_retires fun _ _ => rfl,
    op1_retires fun _ _ => rfl, op1_retires fun _ _ => rfl, op1_retires fun _ _ => rfl,
    op1_retires fun _ _ => rfl, op1_retires fun _ _ => rfl, op1_retires fun _ _ => rfl,
    resultOp_retires (fun _ _ => rfl) (fun _ _ _ => by rw [rmOf_eq_modeOf]; rfl) (by decide),
    resultOp_retires (fun _ _ => rfl) (fun _ _ _ => rfl) (by decide),
    resultOp_retires (fun _ _ => rfl) (fun _ _ _ => rfl) (by decide),
    resultOp_retires (fun _ _ => rfl) (fun _ _ _ => by rw [rmOf_eq_modeOf]; rfl) (by decide),
    packed2_retires fun _ _ => rfl, packed2_retires fun _ _ => rfl, packed2_retires fun _ _ => rfl,
    packed2_retires fun _ _ => rfl, packed3_retires fun _ _ => rfl, packed3_retires fun _ _ => rfl,
    op1_retires fun _ _ => rfl, op1_retires fun _ _ => rfl, op1_retires fun _ _ => rfl,
    resultOp_retires (fun _ _ => rfl) (fun _ _ _ => by rw [rmOf_eq_modeOf]; rfl) (by decide),
    op1_retires fun _ _ => rfl, op1_retires fun _ _ => rfl, op1_retires fun _ _ => rfl, op1_retires fun _ _ => rfl,
    op1_retires fun _ _ => rfl, List.forall_mem_nil _⟩

theorem conversions_retire : ∀ o ∈ conversions, o.Retires := by
  simp only [conversions, List.forall_mem_cons]
  exact ⟨cvtOp_retires fun _ _ => rfl, cvtOp_retires fun _ _ => rfl, cvtOp_retires fun _ _ => rfl,
    cvtOp_retires fun _ _ => rfl, cvtOp_retires fun _ _ => rfl, cvtOp_retires fun _ _ => rfl,
    cvtBoth_retires fun _ _ => rfl, cvtBoth_retires fun _ _ => rfl,
    toIntOp32_retires fun _ _ => rfl, toIntOp32_retires fun _ _ => rfl,
    toIntOp64_retires fun _ _ => rfl, toIntOp64_retires fun _ _ => rfl,
    fromIntOp_retires (fun _ _ => rfl) fun _ _ _ => readInt_toNat false (by decide) _,
    fromIntOp_retires (fun _ _ => rfl) fun _ _ _ => readInt_toNat true (by decide) _,
    fromIntOp_retires (fun _ _ => rfl) fun _ _ _ => readInt_toNat false (by decide) _,
    fromIntOp_retires (fun _ _ => rfl) fun _ _ _ => readInt_toNat true (by decide) _,
    qdecOp_retires fun _ _ => rfl, qdecOp_retires fun _ _ => rfl,
    qencOp_retires fun _ _ => rfl, qencOp_retires fun _ _ => rfl,
    resultOp_retires (fun _ _ => rfl) (fun _ _ _ => rfl) (by decide), List.forall_mem_nil _⟩

theorem floatWords_retire : ∀ o ∈ floatArithmetic ++ conversions, o.Retires := fun o ho =>
  (List.mem_append.mp ho).elim (floatArithmetic_retires o) (conversions_retire o)

/-! ### The end of a word (R75, R76) -/

/-- The sticky flags of the warp in focus, and those still to be ORed in, as given. -/
def withFlags (s : State) (sticky : Flags) (late : List LateFlags) : State :=
  { s with w := { s.w with sticky := sticky, late := late } }

theorem retireFloat_of_no_trap {s : State} {e : LaneMask} {fl : Nat → Flags} (h : NoFloatTrap s (unionFlags e fl)) (len lat : Nat) :
    ∃ late, s.retireFloat e fl len lat = .next ((withFlags s (stickyAfter s (unionFlags e fl)) late).advance len) := by
  unfold State.retireFloat stickyAfter
  by_cases hra : s.w.ra = none
  · rw [if_neg (by simp [hra]), if_pos hra]
    exact ⟨_, if_pos (h.resolve_left (not_not_intro hra))⟩
  · rw [if_pos (Option.isSome_iff_ne_none.mpr hra), if_neg hra]
    exact ⟨s.w.late, rfl⟩

theorem retireFloat_of_trap {s : State} {e : LaneMask} {fl : Nat → Flags} (hra : s.w.ra = none)
    (h : unionFlags e fl &&& s.ten ≠ 0) (len lat : Nat) :
    ∃ late, s.retireFloat e fl len lat = .next ((withFlags s (s.w.sticky ||| unionFlags e fl) late).trapAfter 4
      (infoWord 0 0 (unionFlags e fl &&& s.ten)) (e &&& laneSet fun l => decide (fl l &&& s.ten ≠ 0)) len) := by
  unfold State.retireFloat
  rw [if_neg (by simp [hra])]
  exact ⟨_, if_neg h⟩

section
variable {s u : State}

/-- What the end of a word reads of the state with its result is as it was before the word. -/
theorem OnlyLanesAndCodes.flags_eq (h : OnlyLanesAndCodes s u) :
    u.w.ra = s.w.ra ∧ u.ten = s.ten ∧ u.w.sticky = s.w.sticky := by
  obtain ⟨v, c, z, n, o, rfl⟩ := h
  exact ⟨rfl, rfl, rfl⟩

theorem OnlyLanesAndCodes.uniform_eq (h : OnlyLanesAndCodes s u) : u.w.u = s.w.u ∧ u.w.m = s.w.m := by
  obtain ⟨v, c, z, n, o, rfl⟩ := h
  exact ⟨rfl, rfl⟩

theorem OnlyLanesAndCodes.canTrap (h : OnlyLanesAndCodes s u) {thv : Word64} (ht : CanTrap s thv) (sticky : Flags)
    (late : List LateFlags) : CanTrap (withFlags u sticky late) thv := by
  obtain ⟨v, c, z, n, o, rfl⟩ := h
  exact ht

theorem OnlyLanesAndCodes.moved (h : OnlyLanesAndCodes s u) (sticky : Flags) (late : List LateFlags) (len : Nat) :
    Moved s ((withFlags u sticky late).advance len) len := by
  obtain ⟨v, c, z, n, o, rfl⟩ := h
  exact moved_advance _ _ _ rfl rfl rfl rfl ⟨rfl, rfl⟩

theorem OnlyLanesAndCodes.kept (h : OnlyLanesAndCodes s u) (sticky : Flags) (late : List LateFlags) (len : Nat) :
    Kept s ((withFlags u sticky late).advance len) := by
  obtain ⟨v, c, z, n, o, rfl⟩ := h
  exact kept_of_eq _ _ (withRegs_advance _ _ _)

end

section
variable {o : FloatWord} {f : FmtA} {s : State}

theorem FloatWord.Retires.completes (ho : o.Retires) (h : NoFloatTrap s (raised f s (o.flags f s))) : o.Completes f s := by
  obtain ⟨u, lat, ⟨hlanes, hcodes, honly⟩, hx⟩ := ho f s
  obtain ⟨hra, hten, hsticky⟩ := honly.flags_eq
  obtain ⟨hu, hm⟩ := honly.uniform_eq
  obtain ⟨late, hret⟩ := retireFloat_of_no_trap (s := u) (by rwa [NoFloatTrap, hra, hten]) (fmtLen f) lat
  refine ⟨_, hx.trans hret, ?_, ?_, ?_, ?_, ?_, honly.moved _ _ _, honly.kept _ _ _⟩
  · intro q l hl; rw [advance_v]; exact hlanes q l hl
  · intro l hl; rw [advance_codes]; exact hcodes l hl
  · rw [advance_w_sticky, raised]; simp only [stickyAfter, hra, hsticky, withFlags]
  · rw [advance_w_u]; exact hu
  · rw [advance_w_m]; exact hm

/-! ### The trap (R464) -/

theorem endRun_lanes_eq_resumed {len : Nat} (h : s.w.run.isSome = true) :
    (s.endRun (fun _ => nextWord s.pc len) s.midNext).w.lanes = resumed s (nextWord s.pc len) (placeAfter s) := by
  obtain ⟨r, hr⟩ := Option.isSome_iff_exists.mp h
  simp only [State.endRun, resumed, State.m0, placeAfter, State.midNext, hr]

/-- What the entry into the handler changes, where a handler is installed and the warp is not in it. -/
theorem trapAfter_eq {thv : Word64} (h : CanTrap s thv) (cause : Nat) (info : Word) (fmask : LaneMask) (len : Nat) :
    let s1 := s.endRun (fun _ => nextWord s.pc len) s.midNext
    s.trapAfter cause info fmask len = { s1 with w := { s1.w with
      shadow := some { lanes := resumed s (nextWord s.pc len) (placeAfter s), rcb := s.w.rcb, sync := s.w.sync,
                       passed := s.w.sched.passed, yielded := s.w.sched.yielded }
      sched := { s1.w.sched with passed := 0, yielded := 0 }
      th := { amask := s.m0, fmask := fmask, cause := BitVec.ofNat 8 cause, epc := s.pc.setWidth 56, info := info }
      lanes := lanesAt .ready thv, rcb := [], sync := {}, run := none, inHandler := true, sleep := none } } := by
  obtain ⟨hrun, hin, hthv, k, hk, rfl⟩ := h
  simp only [State.trapAfter, State.warpTrap, hk, hin, hthv, if_false, Bool.false_eq_true, endRun_lanes_eq_resumed hrun,
    endRun_w_rcb, endRun_w_sync]

theorem and_laneSet (e : LaneMask) (p : Nat → Bool) : e &&& laneSet p = laneSet fun l => inSet e l && p l := by
  apply BitVec.eq_of_getLsbD_eq
  intro l hl
  simp only [BitVec.getLsbD_and, inSet_laneSet, hl, decide_true, Bool.true_and]

/-- A trap of an enabled flag is what the statement says exactly where YIELD has left nothing to do for the lanes of the trapped
run: the shadow keeps that too (R125), and the statement has none of it there. -/
theorem FloatWord.Retires.traps_iff {thv : Word64} (ho : o.Retires) (h : CanTrap s thv) (hra : s.w.ra = none)
    (hup : raised f s (o.flags f s) &&& s.ten ≠ 0) :
    o.Traps f s thv ↔ s.w.sched.passed = 0 ∧ s.w.sched.yielded = 0 := by
  obtain ⟨u, lat, ⟨hlanes, hcodes, honly⟩, hx⟩ := ho f s
  obtain ⟨hra', hten, hsticky⟩ := honly.flags_eq
  obtain ⟨late, hret⟩ := retireFloat_of_trap (s := u) (hra'.trans hra) (by rwa [hten]) (fmtLen f) lat
  rw [hret, trapAfter_eq (honly.canTrap h _ late), hten, hsticky, and_laneSet] at hx
  obtain ⟨v, c, z, n, k, rfl⟩ := honly
  constructor
  · rintro ⟨t, hx', -, -, -, -, -, -, hshadow, -⟩
    obtain rfl := Host.Outcome.next.inj (hx.symm.trans hx')
    have hq := Option.some.inj hshadow
    exact ⟨congrArg Shadow.passed hq, congrArg Shadow.yielded hq⟩
  · rintro ⟨hpassed, hyielded⟩
    refine ⟨_, hx, ?_, ?_, ?_, ?_, ?_, rfl, ?_, rfl, rfl, rfl⟩
    · intro q l hl
      simpa [State.v, withFlags] using hlanes q l hl
    · intro l hl
      simpa [State.codes, withFlags] using hcodes l hl
    · simp [withFlags, raised]
    · simp [withFlags]
    · simp [withFlags]
    · dsimp only [withFlags]
      rw [hpassed, hyielded]
      rfl

end

/-! ### The statements -/

/-- Settles O16: every word of the tables retires, and so completes. -/
theorem floatWordsComplete : Obligations.FloatWordsComplete := by
  unfold Obligations.FloatWordsComplete
  exact fun o ho f s h => (floatWords_retire o ho).completes h

/-- A machine about to issue a word, with a handler and with every flag enabled, in a clause in which lane 0 has executed YIELD. -/
def sYielded : State :=
  let s := State.reset.withFetchWord 64 4
  { s with g := { s.g with lrec := s.g.lrec ||| (0x1F#2048 <<< 144) }
           w := { s.w with sched := { s.w.sched with yielded := 1 } } }

/-- SA a signalling NaN. -/
def fSnan : FmtA :=
  { cond := .always, fsel := false, wcc := false, neg := false, md := 0, dst := 0, sa := .litS, sb := .lane 0, sc := .lane 0
    lit := some 0x7F800001 }

theorem canTrap_sYielded : CanTrap sYielded 0x10008 :=
  ⟨by decide +kernel, by decide +kernel, by decide, _, rfl, rfl⟩

theorem sYielded_raises : sYielded.w.ra = none
    ∧ raised fSnan sYielded ((resultOp .faddF32 f32 (op2 fAdd f32)).flags fSnan sYielded) &&& sYielded.ten ≠ 0 := by
  decide +kernel

/-- Refutes O17: an FADD.f32 of a signalling NaN traps in a clause in which lane 0 has executed YIELD, and the shadow keeps
that. -/
theorem not_enabledFlagTraps : ¬ Obligations.EnabledFlagTraps := by
  unfold Obligations.EnabledFlagTraps
  intro h
  have hmem : resultOp .faddF32 f32 (op2 fAdd f32) ∈ floatArithmetic ++ conversions := List.mem_append_left _ List.mem_cons_self
  obtain ⟨hra, hup⟩ := sYielded_raises
  have htrap := h _ hmem fSnan sYielded 0x10008 canTrap_sYielded hra hup
  obtain ⟨-, hyielded⟩ := ((floatWords_retire _ hmem).traps_iff canTrap_sYielded hra hup).mp htrap
  exact absurd hyielded (by decide)

end Sys2Proof.Slice0
end

section
/-! PROOF of O13. Each word is the shared operation `State.alu` or `State.alu64` on numbers. The lemmas here say which exact integer,
or which bit vector, those numbers are; the tables of the statements are then met entry by entry. -/

namespace Sys2Proof.Slice0

open Sys2Proof.Machine

/-! ### Exact values (R141 to R144) -/

/-- X of MOD (R136). -/
theorem xOf_eq_xField (f : FmtA) : xOf f = xField f := by
  simp [xOf, xField, Nat.shiftRight_eq_div_pow]

theorem readInt_word (u : Bool) (x : Word) : readInt u 32 x.toNat = rd u x := readInt_toNat u (by decide) x

theorem ofNat_toNat_self {n : Nat} (x : BitVec n) : BitVec.ofNat n x.toNat = x := by
  rw [BitVec.ofNat_toNat, BitVec.setWidth_eq]

section
variable (u neg : Bool) (a b : Word)

theorem addcExact_toNat (c : Bool) : addcExact u a.toNat b.toNat c = rd u a + rd u b + one c := by
  simp only [addcExact, readInt_word, bit_eq]

theorem subbExact_toNat (c : Bool) : subbExact u a.toNat b.toNat c = rd u a - rd u b - (1 - one c) := by
  simp only [subbExact, readInt_word, bit_eq]

theorem add3Exact_toNat (c : Word) :
    add3Exact u neg a.toNat b.toNat c.toNat = rd u a + (if neg then -rd u b else rd u b) + rd u c := by
  simp only [add3Exact, readInt_word]

theorem mulExact_toNat : mulExact u neg a.toNat b.toNat = rd u a * (if neg then -rd u b else rd u b) := by
  simp only [mulExact, readInt_word]

/-- C of IADD3 is of the unsigned readings (R142). -/
theorem add3Carry_toNat (c : Word) : outOfRange true 32 (add3Exact true neg a.toNat b.toNat c.toNat)
    = outside true 32 (rd true a + (if neg then -rd true b else rd true b) + rd true c) := by
  rw [outOfRange_eq, add3Exact_toNat]

theorem ofNat_mulExact_eq : BitVec.ofNat 64 (wrapN 64 (mulExact u neg a.toNat b.toNat))
    = BitVec.ofInt 64 (rd u a * (if neg then -rd u b else rd u b)) := by
  rw [ofNat_wrapN, mulExact_toNat]

theorem mulExact_add_toNat {n : Nat} (hn : 0 < n) (c : BitVec n) : mulExact u neg a.toNat b.toNat + readInt u n c.toNat
    = rd u a * (if neg then -rd u b else rd u b) + rd u c := by
  rw [mulExact_toNat, readInt_toNat u hn]

theorem mulHi_add_eq (c : Word) :
    BitVec.ofNat 32 ((mulHi u a.toNat b.toNat + c.toNat) % 2 ^ 32) = hiWord (rd u a * rd u b) + c := by
  rw [← mulHi_eq]
  exact BitVec.eq_of_toNat_eq (by simp)

end

/-- The scaled index of LEA (R143). -/
theorem ofNat_lea_eq (f : FmtA) (a : Word64) (b : Word) :
    BitVec.ofNat 64 (wrapN 64 (a.toNat + readInt (unsOf f) 32 b.toNat * 2 ^ xOf f))
      = a + BitVec.ofInt 64 (rd (uBit f) b * 2 ^ xField f) := by
  rw [ofNat_wrapN, BitVec.ofInt_add, BitVec.ofInt_natCast, ofNat_toNat_self, readInt_word, xOf_eq_xField]
  rfl

/-! ### The smaller and the larger of two operands (R147) -/

theorem pickMin_eq (u : Bool) {n : Nat} (hn : 0 < n) (a b : BitVec n) :
    BitVec.ofNat n (pickMin u n a.toNat b.toNat) = if rd u b < rd u a then b else a := by
  simp only [pickMin, readInt_toNat u hn]
  split <;> exact ofNat_toNat_self _

theorem pickMax_eq (u : Bool) {n : Nat} (hn : 0 < n) (a b : BitVec n) :
    BitVec.ofNat n (pickMax u n a.toNat b.toNat) = if rd u a < rd u b then b else a := by
  simp only [pickMax, readInt_toNat u hn]
  split <;> exact ofNat_toNat_self _

/-! ### Words of one shape -/

section
variable {mk : FmtA → Instr} {f : FmtA} {s : State}

theorem addOp_completes {sub : Bool} (hx : exec (mk f) s = s.addWord f (sub != f.neg)) : (addOp mk sub).Completes f s :=
  of_alu hx (fun l => congrArg (fun x => [x]) (addRes_eq _ _ _ (by decide) (a32 f s l) (b32 f s l)).symm)
    fun l => (addCodes_eq _ _ (by decide) (a32 f s l) (b32 f s l)).symm

theorem addOp64_completes {sub : Bool} (hx : exec (mk f) s = s.addWord64 f (sub != f.neg)) : (addOp64 mk sub).Completes f s :=
  of_alu64 hx (fun l => congrArg halves (addRes_eq _ _ _ (by decide) (a64 f s l) (b64 f s l)).symm)
    fun l => (addCodes_eq _ _ (by decide) (a64 f s l) (b64 f s l)).symm

/-- A word with an exact value of its first operand, read as signed (R146). -/
theorem signed1_completes {g : Int → Int} {x : FmtA → State → Nat → Int} (hx : exec (mk f) s = s.signed1 f g)
    (hg : ∀ l, g (a32 f s l).toInt = x f s l) : (exactOp mk (fun _ => false) x satBit fun _ _ _ => false).Completes f s :=
  exact_alu hx (fun l => (congrArg g (readInt_word false (a32 f s l))).trans (hg l)) fun _ => rfl

end

/-- A word with an exact value of 64 bits, C as 0 (R133, R144). -/
theorem exact_alu64 {mk : FmtA → Instr} {u sat : FmtA → Bool} {x : FmtA → State → Nat → Int} {f : FmtA} {s : State} {y : Nat → Int}
    (hx : exec (mk f) s = s.alu64 f (fun l => storeInt (u f) (sat f) 64 (y l))
      fun l => codesOf 64 (wrapN 64 (y l)) false (outOfRange (u f) 64 (y l)))
    (hy : ∀ l, y l = x f s l) : LaneOp.Completes {
      word := mk
      res := fun f s l => halves (fit (u f) (sat f) 64 (x f s l))
      codes := fun f s l => nz (BitVec.ofInt 64 (x f s l)) false (outside (u f) 64 (x f s l)) } f s :=
  of_alu64 hx (fun l => by simp only [ofNat_storeInt, hy]) fun l => by
    simp only [codesOf_wrapN _ (show 0 < 64 by decide), outOfRange_eq, hy]

/-! ### The statement -/

/-- Settles O13: word by word. -/
theorem integerArithmeticIsExact : Obligations.IntegerArithmeticIsExact := by
  unfold Obligations.IntegerArithmeticIsExact
  simp only [arithmetic, List.forall_mem_cons]
  refine ⟨fun f s => addOp_completes ?_, fun f s => addOp_completes ?_, fun f s => addOp64_completes ?_,
    fun f s => addOp64_completes ?_,
    -- IADDC, ISUBB, IADD3 and LEA (R141 to R143)
    fun f s => exact_alu rfl (fun _ => addcExact_toNat _ _ _ _) fun _ => rfl,
    fun f s => exact_alu rfl (fun _ => subbExact_toNat _ _ _ _) fun _ => rfl,
    fun f s => exact_alu rfl (fun _ => add3Exact_toNat _ _ _ _ _) fun _ => add3Carry_toNat _ _ _ _,
    fun f s => plain_alu64 rfl fun l => ofNat_lea_eq f (a64 f s l) (b32 f s l),
    -- the products (R144)
    fun f s => exact_alu rfl (fun _ => mulExact_toNat _ _ _ _) fun _ => rfl,
    fun f s => value_alu rfl (fun _ => mulHi_eq _ _ _) (fun _ => rfl) fun _ => rfl,
    fun f s => value_alu64 rfl (fun _ => ofNat_mulExact_eq _ _ _ _) fun _ => rfl,
    fun f s => exact_alu rfl (fun _ => mulExact_add_toNat _ _ _ _ (by decide) _) fun _ => rfl,
    fun f s => value_alu rfl (fun _ => mulHi_add_eq _ _ _ _) (fun _ => rfl) fun _ => rfl,
    fun f s => exact_alu64 rfl (fun _ => mulExact_add_toNat _ _ _ _ (by decide) _),
    -- IDIV and IREM (R145)
    fun f s => value_alu rfl (fun _ => (divRes_eq _ _ _ _).1) (fun _ => rfl) fun _ => (divRes_eq _ _ _ _).2.2,
    fun f s => value_alu rfl (fun _ => (divRes_eq _ _ _ _).2.1) (fun _ => rfl) fun _ => (divRes_eq _ _ _ _).2.2,
    -- IABS, INEG, IMIN and IMAX (R146, R147)
    fun f s => signed1_completes (g := fun a => a.natAbs) rfl fun _ => Int.natCast_natAbs _,
    fun f s => signed1_completes rfl fun _ => rfl,
    fun f s => value_alu rfl (fun _ => pickMin_eq _ (by decide) _ _) (fun _ => rfl) fun _ => rfl,
    fun f s => value_alu rfl (fun _ => pickMax_eq _ (by decide) _ _) (fun _ => rfl) fun _ => rfl,
    fun f s => value_alu64 rfl (fun _ => pickMin_eq _ (by decide) _ _) fun _ => rfl,
    fun f s => value_alu64 rfl (fun _ => pickMax_eq _ (by decide) _ _) fun _ => rfl, List.forall_mem_nil _⟩
  · rw [Bool.false_bne]; rfl
  · rw [Bool.true_bne]; rfl
  · rw [Bool.false_bne]; rfl
  · rw [Bool.true_bne]; rfl

end Sys2Proof.Slice0
end

section
/-! PROOF of O14. The moves are met as the arithmetic is. A word that writes codes, a mask or a uniform register alone is one update of
one of these: with it put back, nothing but the progress of the warp has changed. -/

namespace Sys2Proof.Slice0

open Sys2Proof.Machine

/-! ### Selects and moves (R150, R151, R153) -/

/-- A compare code on the codes of a lane (R139, R150). -/
theorem ofNat_select_eq {n : Nat} (f : FmtA) (s : State) (l : Nat) (a b : BitVec n) :
    BitVec.ofNat n (if cmpHolds (xOf f) (s.codes l) then a.toNat else b.toNat) = selOf f s l a b := by
  rw [apply_ite (BitVec.ofNat n), ofNat_toNat_self, ofNat_toNat_self, xOf_eq_xField]
  rfl

/-- The die field replaced (R153). -/
theorem ofNat_dieField_eq (a : Word64) (b : Word) : BitVec.ofNat 64 (a.toNat % 2 ^ 52 + b.toNat % 16 * 2 ^ 52)
    = (0 : BitVec 8) ++ b.extractLsb' 0 4 ++ a.extractLsb' 0 52 := by
  apply BitVec.eq_of_toNat_eq
  have hlow : a.toNat % 2 ^ 52 < 2 ^ 52 := Nat.mod_lt _ (by decide)
  have hdie : b.toNat % 2 ^ 4 < 2 ^ 4 := Nat.mod_lt _ (by decide)
  simp only [BitVec.ofNat_eq_ofNat, BitVec.toNat_append, BitVec.toNat_ofNat, BitVec.extractLsb'_toNat, Nat.shiftRight_zero,
    ← Nat.shiftLeft_add_eq_or_of_lt hdie, ← Nat.shiftLeft_add_eq_or_of_lt hlow]
  omega

/-! ### Sums over bytes (R154) -/

theorem readInt_byteOf (u : Bool) (x : Word) (i : Nat) : readInt u 8 (byteOf x.toNat i) = rd u (byteI x i) := by
  rw [← readInt_toNat u (by decide)]
  simp [byteOf, byteI, Nat.shiftRight_eq_div_pow]

theorem sum4_eq_sumBytes : sum4 = sumBytes := rfl

theorem dotExact_eq (u v : Bool) (a b c : Word) :
    readInt false 32 c.toNat + sum4 (fun i => readInt u 8 (byteOf a.toNat i) * readInt v 8 (byteOf b.toNat i))
      = c.toInt + sumBytes fun i => rd u (byteI a i) * rd v (byteI b i) := by
  simp only [readInt_byteOf, readInt_word, sum4_eq_sumBytes]
  rfl

theorem sadExact_eq (u : Bool) (a b c : Word) :
    (c.toNat : Int) + sum4 (fun i => ((readInt u 8 (byteOf a.toNat i) - readInt u 8 (byteOf b.toNat i)).natAbs : Int))
      = c.toNat + sumBytes fun i => |rd u (byteI a i) - rd u (byteI b i)| := by
  simp only [readInt_byteOf, Int.natCast_natAbs, sum4_eq_sumBytes]

theorem moves_complete : ∀ o ∈ moves, ∀ f s, o.Completes f s := by
  simp only [moves, List.forall_mem_cons]
  refine ⟨fun f s => plain_alu rfl fun l => ofNat_select_eq f s l (a32 f s l) (b32 f s l),
    fun f s => plain_alu64 rfl fun l => ofNat_select_eq f s l (a64 f s l) (b64 f s l),
    fun f s => plain_alu rfl fun _ => ofNat_toNat_self _,
    fun f s => plain_alu64 rfl fun _ => ofNat_toNat_self _,
    fun f s => ?vadie,
    fun f s => exact_alu rfl (fun _ => dotExact_eq _ _ _ _ _) fun _ => rfl,
    fun f s => exact_alu rfl (fun _ => sadExact_eq _ _ _ _) fun _ => rfl, List.forall_mem_nil _⟩
  case vadie =>
    cases hown : f.md.getLsbD 4
    · have hdie : ¬ f.md.getLsbD 4 = true := Bool.eq_false_iff.mp hown
      exact of_alu64 (if_neg hdie) (fun _ => (if_neg hdie).trans (congrArg halves (ofNat_dieField_eq _ _).symm)) fun _ => rfl
    · exact of_alu (if_pos hown) (fun _ => if_pos hown) fun _ => rfl

/-! ### Words that write no lane register (R148, R149, R152) -/

/-- ICMP and ICMP.64 (R148). -/
theorem writeCodes_completes {f : FmtA} {s : State} {i : Instr} {k k' : Nat → Codes}
    (hx : exec i s = (s.writeCodes true (s.execSet f.cond) k).retire f) (hk : ∀ l, k l = k' l) :
    ∃ t, exec i s = .next t ∧ WritesCodes s t true (s.execSet f.cond) k'
      ∧ Becomes s { t with w := { t.w with ccC := s.w.ccC, ccZ := s.w.ccZ, ccN := s.w.ccN, ccV := s.w.ccV } } (fmtLen f) := by
  obtain rfl : k = k' := funext hk
  refine ⟨_, hx, fun l hl => ?_, moved_advance _ _ _ rfl rfl rfl rfl ⟨rfl, rfl⟩, ?_, ?_⟩
  · rw [advance_codes, writeCodes_codes _ _ _ _ _ hl]
  · simp [SameRegisters, SameFlags, State.codes, State.writeCodes, State.setCC]
  · exact kept_of_eq _ _ (withRegs_advance s (s.writeCodes true (s.execSet f.cond) k) (fmtLen f))

/-- Where no lane executes, no mask is written. -/
theorem writeMask_eq (s : State) (f : FmtA) (e x : LaneMask) :
    s.writeMask f e x = onWarp s fun w => { w with m := if e = 0 then w.m else w.m.set 0 f.dst.toNat x } := by
  unfold State.writeMask
  split <;> rfl

/-- ISETM (R149). -/
theorem writeMask_completes {f : FmtA} {s : State} {i : Instr} {e x y : LaneMask}
    (hx : exec i s = (s.writeMask f e x).retire f) (hxy : x = y) :
    ∃ t, exec i s = .next t ∧ WritesMask s t f.dst.toNat e y ∧ Becomes s (onWarp t fun w => { w with m := s.w.m }) (fmtLen f) := by
  subst hxy
  rw [writeMask_eq] at hx
  refine ⟨_, hx, fun k hk => ?_, moved_advance _ _ _ rfl rfl rfl rfl ⟨rfl, rfl⟩, ?_, ?_⟩
  · rw [State.m, if_neg hk, State.m, if_neg hk, advance_w_m]
    by_cases he : e = 0
    · simp [he, onWarp]
    · have hand : (k = f.dst.toNat ∧ e ≠ 0) = (k = f.dst.toNat) := by simp only [ne_eq, he, not_false_eq_true, and_true]
      simp only [onWarp, if_neg he, Sparse.get_set, hand]
  · simp [SameRegisters, SameFlags, State.codes, onWarp]
  · exact kept_of_eq _ _ (withRegs_advance s (onWarp s _) (fmtLen f))

/-- What MOVW writes, where a lane executes. -/
theorem execMovw_eq (f : FmtA) (s : State) : execMovw f s = (onWarp s fun w => { w with
    u := (lowestLane (s.execSet f.cond)).elim w.u fun l => w.u.set 0 f.dst.toNat (s.src32 f f.sa l) }).retire f := by
  unfold execMovw
  cases lowestLane (s.execSet f.cond) <;> rfl

/-- MOVW (R152). -/
theorem movw_completes (f : FmtA) (s : State) : ∃ t, exec (.movw f) s = .next t
    ∧ WritesUniform s t f.dst.toNat ((lowestLane (s.execSet f.cond)).toList.map fun l => s.src32 f f.sa l)
    ∧ Becomes s (onWarp t fun w => { w with u := s.w.u }) (fmtLen f) := by
  refine ⟨_, execMovw_eq f s, fun q => ?_, moved_advance _ _ _ rfl rfl rfl rfl ⟨rfl, rfl⟩, ?_, ?_⟩
  · rw [advance_u]
    cases lowestLane (s.execSet f.cond) with
    | none => simp [State.u, onWarp]
    | some l =>
      have hrange : f.dst.toNat ≤ q ∧ q ≤ f.dst.toNat ↔ q = f.dst.toNat := by omega
      simp +contextual [State.u, onWarp, hrange]
  · simp [SameRegisters, SameFlags, State.codes, onWarp]
  · exact kept_of_eq _ _ (withRegs_advance s (onWarp s _) (fmtLen f))

/-! ### The statement -/

/-- Settles O14: the moves by their tables, and the words beside them one by one. -/
theorem integerMovesAndCompares : Obligations.IntegerMovesAndCompares := by
  unfold Obligations.IntegerMovesAndCompares
  refine ⟨moves_complete, fun f s => ⟨?_, ?_, ?_, movw_completes f s⟩⟩
  · exact writeCodes_completes rfl fun l => addCodes_eq true _ (by decide) (a32 f s l) (b32 f s l)
  · exact writeCodes_completes rfl fun l => addCodes_eq true _ (by decide) (a64 f s l) (b64 f s l)
  · refine writeMask_completes rfl (congrArg laneSet (funext fun l => congrArg (inSet _ l && ·) ?_))
    exact congrArg (cmpHolds (xOf f)) (addCodes_eq true _ (by decide) (a32 f s l) (b32 f s l))

end Sys2Proof.Slice0
end

section
/-! PROOF of O15. The numbers of each word, bit by bit or by division by powers of two, are those of the bit vector that the table
gives. -/

namespace Sys2Proof.Slice0

open Sys2Proof.Machine

/-! ### Functions of bits (R155, R158) -/

theorem ofBits_eq_laneSet (p : Nat → Bool) : ofBits p = laneSet p := by
  apply BitVec.eq_of_getLsbD_eq
  intro j hj
  rw [ofBits, BitVec.getLsbD_ofFnLE, inSet_laneSet, dif_pos hj, decide_eq_true hj, Bool.true_and]

/-! ### Shifts (R156) -/

section
variable {n : Nat} (a : BitVec n) (k : Nat)

theorem ofNat_shlRes : BitVec.ofNat n (shlRes n a.toNat k).1 = a <<< k := by
  apply BitVec.eq_of_toNat_eq
  rw [BitVec.toNat_ofNat, BitVec.toNat_shiftLeft, Nat.shiftLeft_eq, shlRes]
  split
  · rw [Nat.mod_mod]
  · next h => rw [Nat.zero_mod, Nat.mod_eq_zero_of_dvd]; exact Dvd.dvd.mul_left (pow_dvd_pow 2 (by omega)) _

theorem ofNat_shrRes : BitVec.ofNat n (shrRes n a.toNat k).1 = a >>> k := by
  apply BitVec.eq_of_toNat_eq
  rw [BitVec.toNat_ofNat, BitVec.toNat_ushiftRight, Nat.shiftRight_eq_div_pow, shrRes]
  split
  · exact Nat.mod_eq_of_lt ((Nat.div_le_self _ _).trans_lt a.isLt)
  · next h => exact (Nat.div_eq_of_lt (a.isLt.trans_le (Nat.pow_le_pow_right (by decide) (by omega)))).symm

/-- An arithmetic shift by the width or more leaves the sign alone. -/
theorem toInt_div_two_pow_min : a.toInt / 2 ^ min k n = a.toInt / 2 ^ k := by
  rcases Nat.le_total k n with h | h
  · rw [Nat.min_eq_left h]
  · have hpow : (2 : Int) ^ n ≤ 2 ^ k := pow_le_pow_right₀ (by decide) h
    have hup : 2 * a.toInt < 2 ^ n := BitVec.two_mul_toInt_lt
    have hlow : -2 ^ n ≤ 2 * a.toInt := BitVec.le_two_mul_toInt
    rw [Nat.min_eq_right h]
    rcases lt_or_ge a.toInt 0 with hneg | hpos
    · rw [Int.ediv_eq_neg_one_of_neg_of_le hneg (by omega), Int.ediv_eq_neg_one_of_neg_of_le hneg (by omega)]
    · rw [Int.ediv_eq_zero_of_lt hpos (by omega), Int.ediv_eq_zero_of_lt hpos (by omega)]

theorem ofNat_sarRes (hn : 0 < n) : BitVec.ofNat n (sarRes n a.toNat k).1 = a.sshiftRight k := by
  have hread : sextN n a.toNat = a.toInt := readInt_toNat false hn a
  rw [sarRes, ofNat_wrapN, hread, toInt_div_two_pow_min, BitVec.sshiftRight, Int.shiftRight_eq_div_pow]
  norm_cast

theorem shiftedOut_eq_lastOut (j : Nat) (far : Bool) :
    (decide (1 ≤ k) && if k ≤ n then a.toNat.testBit j else far) = lastOut a k j far := by
  rcases Nat.eq_zero_or_pos k with rfl | hk
  · rfl
  · simp only [lastOut, Nat.succ_le_of_lt hk, hk.ne', if_false, decide_true, Bool.true_and, BitVec.testBit_toNat]

theorem shlRes_snd : (shlRes n a.toNat k).2 = lastOut a k (n - k) false := by
  rw [← shiftedOut_eq_lastOut]
  by_cases h : k ≤ n <;> simp [shlRes, h]

theorem shrRes_snd : (shrRes n a.toNat k).2 = lastOut a k (k - 1) false := by
  rw [← shiftedOut_eq_lastOut]
  by_cases h : k ≤ n <;> simp [shrRes, h]

theorem sarRes_snd : (sarRes n a.toNat k).2 = lastOut a k (k - 1) a.msb := by
  rw [← shiftedOut_eq_lastOut, BitVec.msb_eq_getLsbD_last, ← BitVec.testBit_toNat]
  rfl

end

/-! ### Rotations (R156) -/

/-- The bits that leave a word at the top come in at the bottom. -/
theorem rotl32_eq {a r : Nat} (ha : a < 2 ^ 32) (hr : r < 32) :
    (a * 2 ^ r + a * 2 ^ r / 2 ^ 32) % 2 ^ 32 = a * 2 ^ r % 2 ^ 32 ||| a / 2 ^ (32 - r) := by
  have hpow : 2 ^ 32 = 2 ^ (32 - r) * 2 ^ r := by rw [← pow_add]; congr 1; omega
  have hhigh : a * 2 ^ r / 2 ^ 32 = a / 2 ^ (32 - r) := by rw [hpow, Nat.mul_div_mul_right _ _ (by positivity)]
  have hlow : a * 2 ^ r % 2 ^ 32 = 2 ^ r * (a % 2 ^ (32 - r)) := by rw [hpow, Nat.mul_mod_mul_right, mul_comm]
  have hlt : a / 2 ^ (32 - r) < 2 ^ r := Nat.div_lt_of_lt_mul (hpow ▸ ha)
  have hsum : a * 2 ^ r % 2 ^ 32 + a / 2 ^ (32 - r) < 2 ^ 32 :=
    calc a * 2 ^ r % 2 ^ 32 + a / 2 ^ (32 - r) < 2 ^ r * (a % 2 ^ (32 - r)) + 2 ^ r := by rw [hlow]; omega
      _ = 2 ^ r * (a % 2 ^ (32 - r) + 1) := by ring
      _ ≤ 2 ^ r * 2 ^ (32 - r) := Nat.mul_le_mul_left _ (Nat.mod_lt _ (by positivity))
      _ = 2 ^ 32 := by rw [hpow, mul_comm]
  rw [hhigh, Nat.add_mod, Nat.mod_eq_of_lt (a := a / 2 ^ (32 - r)) (by omega), Nat.mod_eq_of_lt hsum, hlow,
    Nat.two_pow_add_eq_or_of_lt hlt]

theorem ofNat_rotl32 (a : Word) (k : Nat) : BitVec.ofNat 32 (rotl32 a.toNat k) = a.rotateLeft k := by
  apply BitVec.eq_of_toNat_eq
  rw [BitVec.toNat_ofNat, rotl32, Nat.mod_mod, rotl32_eq a.isLt (Nat.mod_lt _ (by decide)), BitVec.toNat_rotateLeft,
    Nat.shiftLeft_eq, Nat.shiftRight_eq_div_pow]

theorem rotateLeft_sub_eq_rotateRight (a : Word) {r : Nat} (hr : r < 32) : a.rotateLeft (32 - r) = a.rotateRight r := by
  apply BitVec.eq_of_toNat_eq
  rw [BitVec.toNat_rotateLeft, BitVec.toNat_rotateRight, Nat.mod_eq_of_lt hr]
  rcases Nat.eq_zero_or_pos r with rfl | hpos
  · simp [Nat.shiftLeft_eq, Nat.shiftRight_eq_div_pow, Nat.div_eq_of_lt a.isLt, Nat.mod_eq_of_lt a.isLt]
  · have hleft : (32 - r) % 32 = 32 - r := Nat.mod_eq_of_lt (by omega)
    rw [hleft, Nat.sub_sub_self hr.le, Nat.or_comm]

theorem ofNat_rotRes (right : Bool) (a : Word) (k : Nat) : BitVec.ofNat 32 (rotl32 a.toNat (if right then 32 - k % 32 else k))
    = if right then a.rotateRight (k % 32) else a.rotateLeft (k % 32) := by
  cases right
  · exact (ofNat_rotl32 a k).trans BitVec.rotateLeft_mod_eq_rotateLeft.symm
  · exact (ofNat_rotl32 a _).trans (rotateLeft_sub_eq_rotateRight a (Nat.mod_lt _ (by decide)))

/-! ### Bit fields (R157) -/

theorem fieldPos_eq (ctl : Word) : fieldPos ctl.toNat = pOf ctl := by
  simp [fieldPos, pOf]

theorem fieldWidth_eq (ctl : Word) : fieldWidth ctl.toNat = wOf ctl := by
  simp [fieldWidth, wOf, fieldPos_eq, Nat.shiftRight_eq_div_pow]

theorem ofNat_bfxRes (u : Bool) (a ctl : Word) : BitVec.ofNat 32 (bfxRes u a.toNat ctl.toNat) = fieldOf u a ctl := by
  simp only [bfxRes, fieldOf, fieldWidth_eq, fieldPos_eq]
  by_cases hw : wOf ctl = 0
  · rw [if_pos hw, if_pos hw]; rfl
  · rw [if_neg hw, if_neg hw]
    have hfield : a.toNat / 2 ^ pOf ctl % 2 ^ wOf ctl = (a.extractLsb' (pOf ctl) (wOf ctl)).toNat := by
      rw [BitVec.extractLsb'_toNat, Nat.shiftRight_eq_div_pow]
    rw [hfield, readInt_toNat u (Nat.pos_of_ne_zero hw), ofNat_wrapN]
    cases u
    · rfl
    · exact (BitVec.ofInt_natCast _ _).trans (BitVec.ofNat_toNat _ _)

/-- A field of a number replaced, as a number with its bits. -/
theorem replaceField_eq (a b p w : Nat) : a - a / 2 ^ p % 2 ^ w * 2 ^ p + b % 2 ^ w * 2 ^ p
    = 2 ^ p * (2 ^ w * (a / 2 ^ p / 2 ^ w) + b % 2 ^ w) + a % 2 ^ p := by
  have hcut : a - a / 2 ^ p % 2 ^ w * 2 ^ p = 2 ^ p * (2 ^ w * (a / 2 ^ p / 2 ^ w)) + a % 2 ^ p :=
    Nat.sub_eq_of_eq_add <| calc
      a = 2 ^ p * (a / 2 ^ p) + a % 2 ^ p := (Nat.div_add_mod a _).symm
      _ = 2 ^ p * (2 ^ w * (a / 2 ^ p / 2 ^ w) + a / 2 ^ p % 2 ^ w) + a % 2 ^ p := by rw [Nat.div_add_mod (a / 2 ^ p) (2 ^ w)]
      _ = _ := by ring
  rw [hcut]
  ring

theorem testBit_replaceField (a b p w j : Nat) : (a - a / 2 ^ p % 2 ^ w * 2 ^ p + b % 2 ^ w * 2 ^ p).testBit j
    = if p ≤ j ∧ j < p + w then b.testBit (j - p) else a.testBit j := by
  rw [replaceField_eq, Nat.testBit_two_pow_mul_add _ (Nat.mod_lt _ (by positivity)),
    Nat.testBit_two_pow_mul_add _ (Nat.mod_lt _ (by positivity))]
  simp only [Nat.testBit_mod_two_pow, Nat.testBit_div_two_pow]
  by_cases hbelow : j < p
  · simp [hbelow, Nat.not_le.mpr hbelow]
  · by_cases hin : j - p < w
    · rw [if_neg hbelow, if_pos hin, if_pos (by omega), decide_eq_true hin, Bool.true_and]
    · rw [if_neg hbelow, if_neg hin, if_neg (by omega)]
      congr 1
      omega

theorem ofNat_bfiRes (a b ctl : Word) : BitVec.ofNat 32 (bfiRes a.toNat b.toNat ctl.toNat) = insertField a b ctl := by
  rw [insertField, ofBits_eq_laneSet]
  apply BitVec.eq_of_getLsbD_eq
  intro j hj
  rw [inSet_laneSet, BitVec.getLsbD_ofNat, bfiRes, fieldPos_eq, fieldWidth_eq, testBit_replaceField]
  rfl

/-! ### Byte permutation (R159) -/

theorem byteOf_pair (a b : Word) {j : Nat} (hj : j < 8) :
    byteOf (a.toNat + b.toNat * 2 ^ 32) j = (if j < 4 then byteI a j else byteI b (j - 4)).toNat := by
  have ha := a.isLt
  have hb := b.isLt
  interval_cases j <;> simp [byteOf, byteI, Nat.shiftRight_eq_div_pow] <;> omega

theorem le_mod_sixteen_iff (c : Word) (i : Nat) : 8 ≤ c.toNat / 2 ^ (4 * i) % 16 ↔ c.getLsbD (4 * i + 3) = true := by
  rw [← BitVec.testBit_toNat, Nat.testBit_eq_decide_div_mod_eq, decide_eq_true_iff, pow_add, ← Nat.div_div_eq_div_mul]
  omega

theorem bpermByte_eq (a b c : Word) (i : Nat) : bpermByte a.toNat b.toNat c.toNat i = (permByte a b c i).toNat := by
  have hj : c.toNat / 2 ^ (4 * i) % 16 % 8 = (c.extractLsb' (4 * i) 3).toNat := by
    rw [BitVec.extractLsb'_toNat, Nat.shiftRight_eq_div_pow]; omega
  simp only [bpermByte, permByte, le_mod_sixteen_iff, hj, byteOf_pair a b (c.extractLsb' (4 * i) 3).isLt, BitVec.msb_eq_decide,
    decide_eq_true_iff]
  split_ifs <;> rfl

theorem ofNat_bpermRes (a b c : Word) : BitVec.ofNat 32 (bpermRes a.toNat b.toNat c.toNat)
    = permByte a b c 3 ++ permByte a b c 2 ++ permByte a b c 1 ++ permByte a b c 0 := by
  apply BitVec.eq_of_toNat_eq
  have h0 := (permByte a b c 0).isLt
  have h1 := (permByte a b c 1).isLt
  have h2 := (permByte a b c 2).isLt
  have h3 := (permByte a b c 3).isLt
  simp only [bpermRes, bpermByte_eq, BitVec.toNat_ofNat, BitVec.toNat_append, ← Nat.shiftLeft_add_eq_or_of_lt h0,
    ← Nat.shiftLeft_add_eq_or_of_lt h1, ← Nat.shiftLeft_add_eq_or_of_lt h2]
  omega

/-! ### The statement -/

/-- Settles O15: word by word. The counts of bits are the table's own (R158). -/
theorem bitwiseWordsCompute : Obligations.BitwiseWordsCompute := by
  unfold Obligations.BitwiseWordsCompute
  simp only [bitwise, List.forall_mem_cons]
  exact ⟨
    -- logic (R155)
    fun f s => value_alu rfl (fun _ => ofNat_toNat_self _) (fun _ => rfl) fun _ => rfl,
    fun f s => value_alu rfl (fun _ => ofNat_toNat_self _) (fun _ => rfl) fun _ => rfl,
    fun f s => value_alu rfl (fun _ => ofNat_toNat_self _) (fun _ => rfl) fun _ => rfl,
    fun f s => value_alu rfl (fun _ => ofNat_toNat_self _) (fun _ => rfl) fun _ => rfl,
    fun f s => value_alu rfl (fun _ => (ofNat_toNat_self _).trans (ofBits_eq_laneSet _).symm) (fun _ => rfl) fun _ => rfl,
    -- shifts and rotations (R156)
    fun f s => value_alu rfl (fun _ => ofNat_shlRes _ _) (fun _ => shlRes_snd _ _) fun _ => rfl,
    fun f s => value_alu rfl (fun _ => ofNat_shrRes _ _) (fun _ => shrRes_snd _ _) fun _ => rfl,
    fun f s => value_alu rfl (fun _ => ofNat_sarRes _ _ (by decide)) (fun _ => sarRes_snd _ _) fun _ => rfl,
    fun f s => value_alu rfl (fun _ => ofNat_rotRes _ _ _) (fun _ => rfl) fun _ => rfl,
    fun f s => value_alu64 rfl (fun _ => ofNat_shlRes _ _) fun _ => shlRes_snd _ _,
    fun f s => value_alu64 rfl (fun _ => ofNat_shrRes _ _) fun _ => shrRes_snd _ _,
    fun f s => value_alu64 rfl (fun _ => ofNat_sarRes _ _ (by decide)) fun _ => sarRes_snd _ _,
    -- fields (R157)
    fun f s => value_alu rfl (fun _ => ofNat_bfxRes _ _ _) (fun _ => rfl) fun _ => rfl,
    fun f s => value_alu rfl (fun _ => ofNat_bfiRes _ _ _) (fun _ => rfl) fun _ => rfl,
    -- counts and the order of bits (R158)
    fun f s => value_alu rfl (fun _ => rfl) (fun _ => rfl) fun _ => rfl,
    fun f s => value_alu rfl (fun _ => rfl) (fun _ => rfl) fun _ => rfl,
    fun f s => value_alu rfl (fun _ => rfl) (fun _ => rfl) fun _ => rfl,
    fun f s => value_alu rfl (fun _ => (ofBits_eq_laneSet _).symm) (fun _ => rfl) fun _ => rfl,
    -- BPERM (R159)
    fun f s => plain_alu rfl fun _ => ofNat_bpermRes _ _ _, List.forall_mem_nil _⟩

end Sys2Proof.Slice0
end

section
/-! PROOF of O18. FCMP writes codes and FSETM a mask, and each then ends as `State.retireFloat` says: where no trap follows, out of a
state that differs in masks and codes alone (`OnlyMasksAndCodes`), that changes the flags and the progress of the warp and no more. -/

namespace Sys2Proof.Slice0

open Sys2Proof.Machine

/-! ### The compare of a lane (R167) -/

theorem codesFcmp_eq_laneCompare (s : State) (f : FmtA) (fm : Fmt) (l : Nat) :
    codesFcmp fm (s.fa f fm l) (s.fb f fm l) = laneCompare fm f s l := rfl

theorem snanFl_eq_laneNv (s : State) (f : FmtA) (fm : Fmt) (l : Nat) : snanFl fm [s.fa f fm l, s.fb f fm l] = laneNv fm f s l := by
  simp only [snanFl, List.any_cons, List.any_nil, Bool.or_false]
  rfl

/-! ### The end of a word that writes masks and codes (R75) -/

/-- A state differs from another in masks and condition codes of the warp in focus alone. -/
def OnlyMasksAndCodes (s u : State) : Prop :=
  ∃ m c z n o, u = { s with w := { s.w with m := m, ccC := c, ccZ := z, ccN := n, ccV := o } }

theorem onlyMasksAndCodes_writeCodes (s : State) (e : LaneMask) (k : Nat → Codes) : OnlyMasksAndCodes s (s.writeCodes true e k) :=
  ⟨_, _, _, _, _, rfl⟩

theorem onlyMasksAndCodes_writeMask (s : State) (f : FmtA) (e x : LaneMask) : OnlyMasksAndCodes s (s.writeMask f e x) :=
  ⟨_, _, _, _, _, writeMask_eq s f e x⟩

theorem OnlyMasksAndCodes.retires {s u : State} {e : LaneMask} {fl : Nat → Flags} (h : OnlyMasksAndCodes s u)
    (hno : NoFloatTrap s (unionFlags e fl)) (len lat : Nat) :
    ∃ t, u.retireFloat e fl len lat = .next t ∧ t.w.m = u.w.m ∧ (∀ l, t.codes l = u.codes l)
      ∧ t.w.sticky = stickyAfter s (unionFlags e fl) ∧ t.w.v = s.w.v ∧ t.w.u = s.w.u ∧ Moved s t len ∧ Kept s t := by
  have hno' : NoFloatTrap u (unionFlags e fl) := by obtain ⟨m, c, z, n, o, rfl⟩ := h; exact hno
  obtain ⟨late, hret⟩ := retireFloat_of_no_trap hno' len lat
  obtain ⟨m, c, z, n, o, rfl⟩ := h
  exact ⟨_, hret, advance_w_m _ _, advance_codes _ _, advance_w_sticky _ _, advance_w_v _ _, advance_w_u _ _,
    moved_advance _ _ _ rfl rfl rfl rfl ⟨rfl, rfl⟩, kept_of_eq _ _ (withRegs_advance _ _ _)⟩

/-- Masks that are those after a whole mask was written: m0 is none of them (R149, R187). -/
theorem writesMask_of_eq {s t : State} {f : FmtA} {e x : LaneMask} (h : t.w.m = (s.writeMask f e x).w.m) :
    WritesMask s t f.dst.toNat e x := by
  intro k hk
  rw [State.m, if_neg hk, State.m, if_neg hk, h]
  by_cases he : e = 0
  · rw [State.writeMask, if_pos he, if_neg fun hd => hd.2 he]
  · rw [State.writeMask, if_neg he, setM_w_m, Sparse.get_set]
    exact if_congr (and_iff_left he).symm rfl rfl

/-! ### The words (R167, R173) -/

section
variable {i : FmtA → Instr} {fm : Fmt} {f : FmtA} {s : State}

theorem fcmp_completes (hx : exec (i f) s = s.fcmpWord f fm) (hno : NoFloatTrap s (raised f s (laneNv fm f s))) :
    ∃ t, exec (i f) s = .next t ∧ WritesCodes s t true (s.execSet f.cond) (laneCompare fm f s)
      ∧ t.w.sticky = stickyAfter s (raised f s (laneNv fm f s)) ∧ t.w.v = s.w.v ∧ t.w.u = s.w.u ∧ t.w.m = s.w.m
      ∧ Moved s t (fmtLen f) ∧ Kept s t := by
  simp only [State.fcmpWord, snanFl_eq_laneNv, codesFcmp_eq_laneCompare] at hx
  obtain ⟨t, hret, hm, hcodes, hsticky, hv, hu, hmoved, hkept⟩ :=
    (onlyMasksAndCodes_writeCodes s _ _).retires hno (fmtLen f) 4
  refine ⟨t, hx.trans hret, fun l hl => ?_, hsticky, hv, hu, hm, hmoved, hkept⟩
  rw [hcodes]
  exact writeCodes_codes _ _ _ _ _ hl

theorem fsetm_completes (hx : exec (i f) s = s.fsetmWord f fm) (hno : NoFloatTrap s (raised f s (laneNv fm f s))) :
    ∃ t, exec (i f) s = .next t
      ∧ WritesMask s t f.dst.toNat (s.execSet f.cond)
          (laneSet fun l => inSet (s.execSet f.cond) l && codeHolds f (laneCompare fm f s l))
      ∧ t.w.sticky = stickyAfter s (raised f s (laneNv fm f s)) ∧ (∀ l, t.codes l = s.codes l) ∧ t.w.v = s.w.v ∧ t.w.u = s.w.u
      ∧ Moved s t (fmtLen f) ∧ Kept s t := by
  simp only [State.fsetmWord, snanFl_eq_laneNv, codesFcmp_eq_laneCompare] at hx
  obtain ⟨t, hret, hm, hcodes, hsticky, hv, hu, hmoved, hkept⟩ :=
    (onlyMasksAndCodes_writeMask s f _ _).retires hno (fmtLen f) 4
  refine ⟨t, hx.trans hret, writesMask_of_eq hm, hsticky, fun l => ?_, hv, hu, hmoved, hkept⟩
  rw [hcodes, writeMask_eq]
  rfl

end

/-- Settles O18: format by format. -/
theorem floatComparesWriteCodes : Obligations.FloatComparesWriteCodes := by
  unfold Obligations.FloatComparesWriteCodes
  simp only [compareWords, List.forall_mem_cons]
  exact ⟨fun f s hno => ⟨fcmp_completes rfl hno, fsetm_completes rfl hno⟩,
    fun f s hno => ⟨fcmp_completes rfl hno, fsetm_completes rfl hno⟩,
    fun f s hno => ⟨fcmp_completes rfl hno, fsetm_completes rfl hno⟩, List.forall_mem_nil _⟩

end Sys2Proof.Slice0
end

section
/-! PROOF of O22. A shuffle is an integer word (`State.alu`) whose value is that of another lane. The four rules for that lane are
those of the statement: a segment begins at l - l mod w, which is l / w * w. -/

namespace Sys2Proof.Slice0

open Sys2Proof.Machine

/-- A shuffle whose rule for the source lane is that of a form (R190, R192). -/
theorem shfl_completes {i : FmtA → Instr} {src : Nat → Nat → Nat → Option Nat} {k : ShuffleForm} {f : FmtA} {s : State}
    (hsrc : src = k.source) (hx : exec (i f) s = s.shfl f src) :
    (valueOp i (shuffled k) fun f s l => (shuffleFrom k f s l).isSome).Completes f s := by
  subst hsrc
  have hfrom (l : Nat) : (match k.source (segWidth f) l (s.b32 f l % 32) with
      | some j => if inSet (s.execSet f.cond) j then some j else none
      | none => none) = shuffleFrom k f s l := by
    rw [shuffleFrom]
    cases hk : k.source (32 / 2 ^ (f.md.toNat % 8)) l ((s.src32 f f.sb l).toNat % 32) <;>
    · simp only [segWidth, State.b32, hk]
      rfl
  refine value_alu (r := fun l => s.a32 f ((shuffleFrom k f s l).getD l)) (hx.trans ?_)
    (fun l => ofNat_toNat_self _) (fun _ => rfl) fun _ => rfl
  simp only [← hfrom]
  rfl

theorem srcIdx_eq : srcIdx = ShuffleForm.idx.source := by
  funext w l d
  simp only [srcIdx, ShuffleForm.source, Nat.div_mul_self_eq_mod_sub_self]

theorem srcXor_eq : srcXor = ShuffleForm.xor.source := by
  funext w l d
  simp only [srcXor, ShuffleForm.source, Nat.div_mul_self_eq_mod_sub_self]
  rfl

theorem srcUp_eq : srcUp = ShuffleForm.up.source := by
  funext w l d
  simp only [srcUp, ShuffleForm.source, ← Nat.not_lt, ite_not]

theorem srcDown_eq : srcDown = ShuffleForm.down.source := by
  funext w l d
  simp only [srcDown, ShuffleForm.source, ← Nat.not_lt, ite_not]

/-- Settles O22: form by form. -/
theorem shufflesTakeSourceLane : Obligations.ShufflesTakeSourceLane := by
  unfold Obligations.ShufflesTakeSourceLane
  simp only [shuffles, List.forall_mem_cons]
  exact ⟨fun _ _ _ => shfl_completes srcIdx_eq rfl, fun _ _ _ => shfl_completes srcXor_eq rfl,
    fun _ _ _ => shfl_completes srcUp_eq rfl, fun _ _ _ => shfl_completes srcDown_eq rfl, List.forall_mem_nil _⟩

end Sys2Proof.Slice0
end

section
/-! PROOF of O23. A vote writes a mask and codes, and MLOP a mask: nothing else has changed but the progress of the warp
(`OnlyMasksAndCodes`). -/

namespace Sys2Proof.Slice0

open Sys2Proof.Machine

theorem OnlyMasksAndCodes.writeCodes {s u : State} (h : OnlyMasksAndCodes s u) (wcc : Bool) (e : LaneMask) (k : Nat → Codes) :
    OnlyMasksAndCodes s (u.writeCodes wcc e k) := by
  obtain ⟨m, c, z, n, o, rfl⟩ := h
  cases wcc
  · exact ⟨m, c, z, n, o, rfl⟩
  · exact ⟨_, _, _, _, _, rfl⟩

/-- Moving on, out of a state that differs in masks and codes alone. -/
theorem OnlyMasksAndCodes.moves {s u : State} (h : OnlyMasksAndCodes s u) (len : Nat) :
    (u.advance len).w.v = s.w.v ∧ (u.advance len).w.u = s.w.u ∧ SameFlags s (u.advance len) ∧ Moved s (u.advance len) len
      ∧ Kept s (u.advance len) := by
  obtain ⟨m, c, z, n, o, rfl⟩ := h
  exact ⟨advance_w_v _ _, advance_w_u _ _, ⟨advance_w_sticky _ _, advance_w_late _ _⟩,
    moved_advance _ _ _ rfl rfl rfl rfl ⟨rfl, rfl⟩, kept_of_eq _ _ (withRegs_advance _ _ _)⟩

@[simp] theorem writeCodes_w_m (s : State) (wcc : Bool) (e : LaneMask) (k : Nat → Codes) : (s.writeCodes wcc e k).w.m = s.w.m := by
  cases wcc <;> rfl

@[simp] theorem writeMask_codes (s : State) (f : FmtA) (e x : LaneMask) (l : Nat) : (s.writeMask f e x).codes l = s.codes l := by
  rw [writeMask_eq]; rfl

/-- A vote writes its mask and its codes, and no more. -/
theorem vote_completes {f : FmtA} {s : State} {i : Instr} {x y : LaneMask} (hx : exec i s = s.vote f x) (hxy : x = y) :
    ∃ t, exec i s = .next t ∧ WritesMask s t f.dst.toNat (s.execSet f.cond) y
      ∧ WritesCodes s t f.wcc (s.execSet f.cond) (fun _ => { c := false, z := decide (y = 0), n := false, v := false })
      ∧ t.w.v = s.w.v ∧ t.w.u = s.w.u ∧ SameFlags s t ∧ Moved s t (fmtLen f) ∧ Kept s t := by
  subst hxy
  refine ⟨_, hx, writesMask_of_eq (x := x) ?_, fun l hl => ?_,
    ((onlyMasksAndCodes_writeMask s f _ x).writeCodes _ _ _).moves _⟩
  · rw [advance_w_m, writeCodes_w_m]
  · rw [advance_codes, writeCodes_codes _ _ _ _ _ hl, writeMask_codes]

theorem ballot_eq_trueLanes (s : State) (f : FmtA) : s.ballot f = trueLanes f s := by
  simp only [State.ballot, trueLanes, ne_eq, decide_not, bne, beq_eq_decide]

theorem mlopSrc_eq_maskSource (s : State) (f : FmtA) (o : Src) : s.mlopSrc f o = maskSource f s o := by
  cases o <;> rfl

/-- Settles O23: vote by vote, and MLOP. -/
theorem votesAndMaskLogic : Obligations.VotesAndMaskLogic := by
  unfold Obligations.VotesAndMaskLogic
  simp only [votes, List.forall_mem_cons]
  refine fun f s => ⟨⟨vote_completes rfl ?_, vote_completes rfl ?_, vote_completes rfl (ballot_eq_trueLanes s f),
    vote_completes rfl rfl, List.forall_mem_nil _⟩, writeMask_completes rfl ?_⟩
  · simp only [ballot_eq_trueLanes, ne_eq, ite_not]
  · simp only [ballot_eq_trueLanes]
  · simp only [mlopSrc_eq_maskSource]
    exact (ofBits_eq_laneSet _).symm

end Sys2Proof.Slice0
end

section
/-! PROOF of O24. Where the operation is associative, each level of the tree of R194 keeps the product of its values from left to
right (`foldl_treeLevel`), so that the root holds that of the executing lanes in their order: a sum, a bitwise product, the value of
the least key. A scan holds the same product over the lanes up to each (`scanAt_scanUp`). -/

namespace Sys2Proof.Slice0

open Sys2Proof.Machine

/-! ### Values combined in their order -/

section
variable {α : Type} (op : α → α → α)

/-- Values combined from left to right, after what stands before them. -/
def combined (o : Option α) (xs : List α) : Option α := xs.foldl (fun q a => Option.merge op q (some a)) o

theorem combined_cons (o : Option α) (y : α) (ys : List α) :
    combined op o (y :: ys) = combined op (Option.merge op o (some y)) ys := rfl

theorem combined_none_cons (y : α) (ys : List α) : combined op none (y :: ys) = some (ys.foldl op y) :=
  List.foldl_hom some fun _ _ => rfl

end

/-- What combining two values gives, beside its flags. -/
abbrev combValue {α : Type} (comb : α → α → α × Flags) (x y : α) : α := (comb x y).1

/-! ### The tree of an associative operation (R194) -/

section
variable {α : Type} (comb : α → α → α × Flags)

/-- What a node of the tree holds. -/
def nodeValue (a : TreeNode α) : Option α := a.map Prod.fst

/-- A pair of nodes is combined where both hold a value. -/
theorem treeLevel_pair (a b : TreeNode α) (ns : List (TreeNode α)) : (treeLevel comb (a :: b :: ns)).1.map nodeValue
    = Option.merge (combValue comb) (nodeValue a) (nodeValue b) :: (treeLevel comb ns).1.map nodeValue := by
  cases a <;> cases b <;> rfl

theorem treeLevel_length : ∀ ns, (treeLevel comb ns).1.length = (ns.length + 1) / 2
  | [] => by simp [treeLevel]
  | [_] => by simp [treeLevel]
  | a :: b :: ns => by
    have h := congrArg List.length (treeLevel_pair comb a b ns)
    simp only [List.length_map, List.length_cons, treeLevel_length ns] at h ⊢
    omega

variable [Std.Associative (combValue comb)]

/-- Combining nodes in pairs keeps their product from left to right. -/
theorem foldl_treeLevel : ∀ (ns : List (TreeNode α)) (o : Option α),
    ((treeLevel comb ns).1.map nodeValue).foldl (Option.merge (combValue comb)) o
      = (ns.map nodeValue).foldl (Option.merge (combValue comb)) o
  | [], _ => rfl
  | [_], _ => rfl
  | a :: b :: ns, o => by
    rw [treeLevel_pair, List.foldl_cons, foldl_treeLevel ns, List.map_cons, List.map_cons, List.foldl_cons, List.foldl_cons,
      Std.Associative.assoc (op := Option.merge (combValue comb))]

theorem treeUp_value (n : Nat) (ns : List (TreeNode α)) (fl : List (Nat × Flags)) (h : ns.length ≤ 2 ^ n) :
    nodeValue (treeUp comb n ns fl).1 = (ns.map nodeValue).foldl (Option.merge (combValue comb)) none := by
  induction n generalizing ns fl with
  | zero =>
    match ns, h with
    | [], _ => rfl
    | [a], _ => simp [treeUp]
  | succ n ih =>
    have hlen : (treeLevel comb ns).1.length ≤ 2 ^ n := by rw [treeLevel_length]; omega
    rw [treeUp, ih _ _ hlen, foldl_treeLevel]

/-- An associative operation is combined over the lanes of a set in their order. -/
theorem treeReduce_value (e : LaneMask) (x : Nat → α) :
    nodeValue (treeReduce comb e x).1 = combined (combValue comb) none ((lanesOf e).map x) := by
  rw [treeReduce, treeUp_value _ _ _ _ (by simp), combined, lanesOf, List.foldl_map, List.foldl_map, List.foldl_map,
    List.foldl_filter]
  congr 1
  funext o l
  cases inSet e l <;> simp [nodeValue]

end

theorem lanesOf_eq_nil_iff (e : LaneMask) : lanesOf e = [] ↔ e = 0 := by
  rw [List.eq_nil_iff_forall_not_mem]
  simp only [mem_lanesOf]
  constructor
  · intro h
    apply BitVec.eq_of_getLsbD_eq
    intro l hl
    simpa using fun hs => h l ⟨hl, hs⟩
  · rintro rfl l
    simp

/-! ### Where a reduction's result goes (R194) -/

/-- Nothing but registers and the progress of the warp differs. -/
def OnlyRegisters (s u : State) : Prop := ∃ v w, u = { s with w := { s.w with v := v, u := w } }

theorem onlyRegisters_putReduced (s : State) (f : FmtA) (e : LaneMask) (x : Option Nat) : OnlyRegisters s (s.putReduced f e x) := by
  unfold State.putReduced
  split
  · exact ⟨_, _, rfl⟩
  · split <;> exact ⟨_, _, rfl⟩

theorem OnlyRegisters.moves {s u : State} (h : OnlyRegisters s u) (len : Nat) :
    NoFlags s (u.advance len) ∧ Moved s (u.advance len) len ∧ Kept s (u.advance len) := by
  obtain ⟨v, w, rfl⟩ := h
  exact ⟨⟨advance_w_m _ _, ⟨advance_w_sticky _ _, advance_w_late _ _⟩, advance_codes _ _⟩,
    moved_advance _ _ _ rfl rfl rfl rfl ⟨rfl, rfl⟩, kept_of_eq _ _ (withRegs_advance _ _ _)⟩

/-- A uniform register written once. -/
theorem writesUniform_setU (s : State) (d : Nat) (x : Word) : WritesUniform s (s.setU d x) d [x] := by
  intro q
  have hrange : d ≤ q ∧ q < d + [x].length ↔ q = d := by simp only [List.length_singleton]; omega
  rw [setU_u]
  by_cases h : q = d
  · subst h; simp
  · rw [if_neg h, if_neg (mt hrange.mp h)]

/-- Of no executing lane there is no result, and of others the one given. -/
theorem putsReduced_putReduced {f : FmtA} {s : State} {x : Option Nat} {y : Word}
    (hx : x.map (BitVec.ofNat 32) = if s.execSet f.cond = 0 then none else some y) :
    PutsReduced f s (s.putReduced f (s.execSet f.cond) x) y := by
  by_cases he : s.execSet f.cond = 0
  · rw [if_pos he, Option.map_eq_none_iff] at hx
    subst hx
    simp [PutsReduced, he, WritesUniform, WritesLanes, State.putReduced]
  · rw [if_neg he, Option.map_eq_some_iff] at hx
    obtain ⟨r, rfl, rfl⟩ := hx
    by_cases hud : f.md.getLsbD 6 = true
    · have hput : s.putReduced f (s.execSet f.cond) (some r) = s.setU f.dst.toNat (BitVec.ofNat 32 r) := if_pos hud
      rw [PutsReduced, if_pos hud, if_neg he, hput]
      exact ⟨setU_w_v _ _ _, writesUniform_setU _ _ _⟩
    · have hput : s.putReduced f (s.execSet f.cond) (some r) = s.setV f.dst.toNat (s.execSet f.cond) fun _ => BitVec.ofNat 32 r :=
        if_neg hud
      rw [PutsReduced, if_neg hud, hput]
      exact ⟨setV_w_u _ _ _ _, writesLanes_setV _ _ _ _⟩

theorem PutsReduced.of_eq {f : FmtA} {s t u : State} {y : Word} (h : PutsReduced f s u y) (hv : t.w.v = u.w.v) (hu : t.w.u = u.w.u) :
    PutsReduced f s t y := by
  simp only [PutsReduced, WritesUniform, WritesLanes, State.v, State.u] at h ⊢
  rw [hv, hu]
  exact h

/-! ### Reductions that do not round -/

section
variable {α : Type} {i : Instr} {f : FmtA} {s : State} {r : Nat → α} {op : α → α → α} {out : α → Nat} {g : Word → α}

/-- A reduction by an associative operation: what it gives is that of the values of the lanes, in lane order. -/
theorem wred_completes (hop : Std.Associative op) (hx : exec i s = s.wred f r op out) (hr : ∀ x : Word, r x.toNat = g x)
    {z : Word} (hz : ∀ y ys, laneVals f s = y :: ys → BitVec.ofNat 32 (out ((ys.map g).foldl op (g y))) = z) :
    ∃ t, exec i s = .next t ∧ PutsReduced f s t z ∧ NoFlags s t ∧ Moved s t (fmtLen f) ∧ Kept s t := by
  have hvals : (lanesOf (s.execSet f.cond)).map (fun l => r (s.a32 f l)) = (laneVals f s).map g := by
    rw [laneVals, List.map_map]
    exact List.map_congr_left fun l _ => hr (s.src32 f f.sa l)
  refine ⟨_, hx, (putsReduced_putReduced (y := z) ?_).of_eq (advance_w_v _ _) (advance_w_u _ _),
    (onlyRegisters_putReduced s f _ _).moves _⟩
  have htree := treeReduce_value (fun a b => (op a b, (0 : Flags))) (s.execSet f.cond) fun l => r (s.a32 f l)
  rw [hvals] at htree
  cases hl : laneVals f s with
  | nil =>
    have he : s.execSet f.cond = 0 := (lanesOf_eq_nil_iff _).mp (List.map_eq_nil_iff.mp hl)
    rw [hl, List.map_nil, combined, List.foldl_nil, nodeValue, Option.map_eq_none_iff] at htree
    rw [htree, if_pos he]
    rfl
  | cons y ys =>
    have he : s.execSet f.cond ≠ 0 := fun he => by simp [laneVals, (lanesOf_eq_nil_iff _).mpr he] at hl
    rw [hl, List.map_cons, combined_none_cons, nodeValue, Option.map_eq_some_iff] at htree
    obtain ⟨p, hp, hval⟩ := htree
    rw [hp, if_neg he, Option.map_some, Option.map_some, hval, hz y ys hl]

end

theorem clampSum_eq (f : FmtA) (x : Int) : BitVec.ofNat 32 (storeInt (wuOf f) (wsatOf f) 32 x) = clampSum f x := by
  rw [ofNat_storeInt]
  rfl

/-- A reduction by a bitwise operation, which leaves a word as it is beside `z`. -/
theorem wred_bitwise_completes {i : Instr} {f : FmtA} {s : State} {op : Nat → Nat → Nat} {g : Word → Word → Word} {z : Word}
    (hop : Std.Associative op) (hx : exec i s = s.wred f id op id) (hg : ∀ x y, op x.toNat y.toNat = (g x y).toNat)
    (hz : ∀ y, g z y = y) :
    ∃ t, exec i s = .next t ∧ PutsReduced f s t ((laneVals f s).foldl g z) ∧ NoFlags s t ∧ Moved s t (fmtLen f) ∧ Kept s t :=
  wred_completes hop hx (fun _ => rfl) fun y ys hl => by
    rw [hl, List.foldl_cons, hz]
    exact (congrArg (BitVec.ofNat 32) (List.foldl_map_hom hg)).trans (ofNat_toNat_self _)

theorem reductions_complete (f : FmtA) (s : State) : ∀ p ∈ reductions,
    ∃ t, exec (p.1 f) s = .next t ∧ PutsReduced f s t (p.2 f s) ∧ NoFlags s t ∧ Moved s t (fmtLen f) ∧ Kept s t := by
  simp only [reductions, List.forall_mem_cons]
  refine ⟨wred_completes (g := asInt f) ⟨Int.add_assoc⟩ rfl (readInt_word _) fun y ys hl => ?_,
    wred_bitwise_completes ⟨Nat.and_assoc⟩ rfl (fun x y => (BitVec.toNat_and x y).symm) fun _ => BitVec.allOnes_and,
    wred_bitwise_completes ⟨Nat.or_assoc⟩ rfl (fun x y => (BitVec.toNat_or x y).symm) fun _ => BitVec.zero_or,
    wred_bitwise_completes ⟨Nat.xor_assoc⟩ rfl (fun x y => (BitVec.toNat_xor x y).symm) fun _ => BitVec.zero_xor,
    List.forall_mem_nil _⟩
  rw [clampSum_eq, hl, List.map_cons, List.sum_eq_foldl, List.foldl_cons, zero_add]

/-! ### The least and the greatest value (R194) -/

/-- The value that stands where another is met: the other one where its key is less. -/
def keepLess (key : Word → Int) (a b : Word) : Word := if key b < key a then b else a

theorem foldl_keepLess (key : Word → Int) (y : Word) (ys : List Word) :
    ys.foldl (keepLess key) y ∈ y :: ys ∧ ∀ z ∈ y :: ys, key (ys.foldl (keepLess key) y) ≤ key z := by
  have harg : ys.foldl (keepLess key) y ∈ (y :: ys).argmin key :=
    List.foldl_hom some fun a b => (apply_ite some _ _ _).symm
  exact ⟨List.argmin_mem harg, fun z hz => List.le_of_mem_argmin hz harg⟩

theorem associative_pickMin (u : Bool) : Std.Associative (pickMin u 32) := ⟨fun a b c => by
  simp only [pickMin]
  split_ifs <;> omega⟩

theorem associative_pickMax (u : Bool) : Std.Associative (pickMax u 32) := ⟨fun a b c => by
  simp only [pickMax]
  split_ifs <;> omega⟩

theorem pickMin_toNat (f : FmtA) (a b : Word) : pickMin (wuOf f) 32 a.toNat b.toNat = (keepLess (asInt f) a b).toNat := by
  simp only [pickMin, readInt_word, keepLess, apply_ite BitVec.toNat]
  rfl

theorem pickMax_toNat (f : FmtA) (a b : Word) :
    pickMax (wuOf f) 32 a.toNat b.toNat = (keepLess (fun x => -asInt f x) a b).toNat := by
  simp only [pickMax, readInt_word, keepLess, apply_ite BitVec.toNat, Int.neg_lt_neg_iff]
  rfl

/-- A reduction that keeps the value of the least key. -/
theorem wred_least_completes {i : Instr} {f : FmtA} {s : State} {op : Nat → Nat → Nat} {key : Word → Int}
    (hop : Std.Associative op) (hx : exec i s = s.wred f id op id) (hkey : ∀ a b, op a.toNat b.toNat = (keepLess key a b).toNat)
    (he : s.execSet f.cond ≠ 0) :
    ∃ t x, exec i s = .next t ∧ PutsReduced f s t x ∧ x ∈ laneVals f s ∧ (∀ y ∈ laneVals f s, key x ≤ key y)
      ∧ NoFlags s t ∧ Moved s t (fmtLen f) ∧ Kept s t := by
  obtain ⟨y, ys, hl⟩ : ∃ y ys, laneVals f s = y :: ys :=
    List.exists_cons_of_ne_nil fun hl => he ((lanesOf_eq_nil_iff _).mp (List.map_eq_nil_iff.mp hl))
  obtain ⟨t, hret, hput, hrest⟩ := wred_completes (g := BitVec.toNat) hop hx (fun _ => rfl) (z := ys.foldl (keepLess key) y)
    fun y' ys' hl' => by
      obtain ⟨rfl, rfl⟩ := List.cons_eq_cons.mp (hl.symm.trans hl')
      exact (congrArg (BitVec.ofNat 32) (List.foldl_map_hom hkey)).trans (ofNat_toNat_self _)
  obtain ⟨hmem, hle⟩ := foldl_keepLess key y ys
  exact ⟨t, _, hret, hput, hl ▸ hmem, hl ▸ hle, hrest⟩

/-! ### Scans (R195) -/

theorem sorted_lanesOf (e : LaneMask) : (lanesOf e).Pairwise (· < ·) := List.pairwise_lt_range.filter _

/-- The lanes of a set, cut at one of them. -/
theorem lanesOf_cut {e : LaneMask} {l : Nat} (hl : l ∈ lanesOf e) : ∃ pre post, lanesOf e = pre ++ l :: post
    ∧ (lanesOf e).filter (· < l) = pre ∧ (lanesOf e).filter (· ≤ l) = pre ++ [l] := by
  obtain ⟨pre, post, hcut⟩ := List.append_of_mem hl
  have hsorted := sorted_lanesOf e
  rw [hcut, List.pairwise_append, List.pairwise_cons] at hsorted
  obtain ⟨-, ⟨hpost, -⟩, hpre⟩ := hsorted
  have hbelow : ∀ a ∈ pre, a < l := fun a ha => hpre a ha l List.mem_cons_self
  refine ⟨pre, post, hcut, ?_, ?_⟩
  · rw [hcut, List.filter_append, List.filter_eq_self.mpr fun a ha => decide_eq_true (hbelow a ha),
      List.filter_eq_nil_iff.mpr, List.append_nil]
    intro a ha
    rcases List.mem_cons.mp ha with rfl | ha
    · simp
    · simpa using (hpost a ha).le
  · rw [hcut, List.filter_append, List.filter_eq_self.mpr fun a ha => decide_eq_true (hbelow a ha).le,
      List.filter_cons_of_pos (by simp), List.filter_eq_nil_iff.mpr]
    intro a ha
    simpa using hpost a ha

section
variable {α : Type} (comb : α → α → α × Flags) (x : Nat → α)

/-- The value of a lane of a scan: those of the lanes up to it, combined in their order. -/
theorem scanAt_scanUp (pre : List Nat) {l : Nat} (post : List Nat) (h : (pre ++ l :: post).Nodup) (o : Option α) :
    (scanAt (scanUp comb x o (pre ++ l :: post)) l).map Prod.fst
      = combined (combValue comb) o ((pre ++ [l]).map x) := by
  induction pre generalizing o with
  | nil => cases o <;> simp [scanUp, scanAt, combined]
  | cons k pre ih =>
    obtain ⟨hnot, h⟩ := List.nodup_cons.mp h
    have hk : k ≠ l := fun hkl => hnot (hkl ▸ List.mem_append_right _ List.mem_cons_self)
    rw [List.cons_append, List.cons_append, List.map_cons, combined_cons, ← ih h]
    cases o <;> simp [scanUp, scanAt, hk]

/-- What a scan writes to a lane: the values of the lanes up to it, or with EX of those below it, combined in their order. -/
theorem scanOut_eq (ex : Bool) {e : LaneMask} {l : Nat} (hl : l ∈ lanesOf e) (out : α → Nat) :
    scanOut ex e (scanUp comb x none (lanesOf e)) out l
      = ((combined (combValue comb) none
          (((lanesOf e).filter fun k => if ex then decide (k < l) else decide (k ≤ l)).map x)).map out).getD 0 := by
  obtain ⟨pre, post, hcut, hbelow, hupto⟩ := lanesOf_cut hl
  have hnodup : (pre ++ l :: post).Nodup := hcut ▸ (sorted_lanesOf e).imp fun h => Nat.ne_of_lt h
  cases ex with
  | false =>
    have hat := scanAt_scanUp comb x pre post hnodup none
    rw [← hcut] at hat
    simp only [scanOut, Bool.false_eq_true, if_false, hupto, ← hat, Option.map_map]
    rfl
  | true =>
    simp only [scanOut, laneBelow, if_true, hbelow]
    rcases List.eq_nil_or_concat pre with rfl | ⟨pre, k, rfl⟩
    · rfl
    · rw [List.concat_eq_append, List.append_assoc, List.singleton_append] at hcut hnodup
      have hat := scanAt_scanUp comb x pre (l :: post) hnodup none
      rw [← hcut] at hat
      simp only [List.concat_eq_append, List.getLast?_concat, ← hat, Option.map_map]
      rfl

end

theorem writesLanes_congr {s t : State} {e : LaneMask} {d : Nat} {x y : Nat → Word} (h : WritesLanes s t e d fun l => [x l])
    (hxy : ∀ l ∈ lanesOf e, x l = y l) : WritesLanes s t e d fun l => [y l] := by
  intro q l hl
  refine (h q l hl).trans ?_
  by_cases he : inSet e l = true
  · simp only [hxy l ((mem_lanesOf e l).mpr ⟨hl, he⟩)]
  · rw [if_neg fun h => he h.1, if_neg fun h => he h.1]

/-- The sum of no value is 0, which no clamp changes. -/
theorem clampSum_zero (f : FmtA) : clampSum f 0 = 0 := by
  have hclamp : ∀ u : Bool, max (if u then (0 : Int) else -(2 ^ 31)) (min (if u then 2 ^ 32 - 1 else 2 ^ 31 - 1) 0) = 0 := by
    decide
  simp only [clampSum, hclamp, ite_self]
  rfl

/-- WSCAN.iadd (R195). -/
theorem wscanIadd_completes (f : FmtA) (s : State) : ∃ t, exec (.wscanIadd f) s = .next t
    ∧ WritesLanes s t (s.execSet f.cond) f.dst.toNat
        (fun l => [clampSum f (((scanLanes f s l).map fun k => asInt f (s.src32 f f.sa k)).sum)])
    ∧ t.w.u = s.w.u ∧ t.w.m = s.w.m ∧ SameFlags s t ∧ Moved s t (fmtLen f) ∧ Kept s t := by
  obtain ⟨t, hret, hlanes, -, hrest⟩ := alu_spec s f (scanOut (f.md.getLsbD 5) (s.execSet f.cond)
    (scanUp (fun a b : Int => (a + b, 0)) (fun l => readInt (wuOf f) 32 (s.a32 f l)) none (lanesOf (s.execSet f.cond)))
    (storeInt (wuOf f) (wsatOf f) 32)) fun l => s.codes l
  refine ⟨t, hret, writesLanes_congr hlanes fun l hl => ?_, hrest⟩
  have hread : (fun l => readInt (wuOf f) 32 (s.a32 f l)) = fun l => asInt f (s.src32 f f.sa l) :=
    funext fun l => readInt_word _ _
  rw [scanOut_eq _ _ _ hl, hread]
  change BitVec.ofNat 32 (((combined _ none ((scanLanes f s l).map _)).map _).getD 0) = _
  cases (scanLanes f s l).map fun k => asInt f (s.src32 f f.sa k) with
  | nil => exact (clampSum_zero f).symm
  | cons y ys =>
    rw [combined_none_cons, Option.map_some, Option.getD_some, clampSum_eq, List.sum_eq_foldl, List.foldl_cons, zero_add]

/-! ### The statement -/

/-- Settles O24: the reductions by their table, and the scan, WRED.min and WRED.max one by one. -/
theorem reductionsCombineLanes : Obligations.ReductionsCombineLanes := by
  unfold Obligations.ReductionsCombineLanes
  refine fun f s => ⟨reductions_complete f s, ?_⟩
  obtain ⟨t, hret, hlanes, hu, hm, hflags, hmoved, hkept⟩ := wscanIadd_completes f s
  refine ⟨t, hret, hlanes, hu, hm, hflags, hmoved, hkept, fun hf he => ⟨?_, ?_⟩⟩
  · exact wred_least_completes (associative_pickMin _) (if_neg (Bool.eq_false_iff.mp hf)) (pickMin_toNat f) he
  · simpa only [Int.neg_le_neg_iff] using
      wred_least_completes (i := .wredMax f) (associative_pickMax _) (if_neg (Bool.eq_false_iff.mp hf)) (pickMax_toNat f) he

end Sys2Proof.Slice0
end

section
/-! Refutation of O25. As with O17, the trap shadow keeps what YIELD has left to do for the lanes of the trapped run (R125), which
`FlagTrap` has as nothing. -/

namespace Sys2Proof.Slice0

open Sys2Proof.Machine

/-- A trap of an enabled flag is what the statement says only where YIELD has left nothing to do. -/
theorem FlagTrap.yield_due_zero {f : FmtA} {s u t : State} {thv : Word64} {e : LaneMask} {fl : Nat → Flags} {len lat : Nat}
    {up : Flags} (ht : FlagTrap f s t thv up) (hx : u.retireFloat e fl len lat = .next t) (hu : OnlyLanesAndCodes s u)
    (h : CanTrap s thv) (hra : s.w.ra = none) (hfl : unionFlags e fl &&& s.ten ≠ 0) :
    s.w.sched.passed = 0 ∧ s.w.sched.yielded = 0 := by
  obtain ⟨hra', hten, -⟩ := hu.flags_eq
  obtain ⟨late, hret⟩ := retireFloat_of_trap (s := u) (hra'.trans hra) (by rwa [hten]) len lat
  rw [hret, trapAfter_eq (hu.canTrap h _ late)] at hx
  obtain ⟨v, c, z, n, k, rfl⟩ := hu
  obtain rfl := Host.Outcome.next.inj hx
  obtain ⟨-, -, -, -, -, hshadow, -⟩ := ht
  have hq := Option.some.inj hshadow
  exact ⟨congrArg Shadow.passed hq, congrArg Shadow.yielded hq⟩

/-- The flags that WSCAN.fadd raises in a lane: those of the addition that gave the lane's inclusive value (R195). -/
def scanLaneFlags (f : FmtA) (s : State) (l : Nat) : Flags :=
  ((scanAt (scanUp (fun a b => ((fAdd f32 (rmOf f) a b).bits, (fAdd f32 (rmOf f) a b).fl)) (s.srcF f f32 f.sa) none
    (lanesOf (s.execSet f.cond))) l).map (·.2)).getD 0

/-- A trap that WSCAN.fadd takes is what the statement says only where YIELD has left nothing to do. -/
theorem wscanFadd_yield_due_zero {f : FmtA} {s t : State} {thv : Word64} {up : Flags} (hx : exec (.wscanFadd f) s = .next t)
    (ht : FlagTrap f s t thv up) (h : CanTrap s thv) (hra : s.w.ra = none)
    (hfl : unionFlags (s.execSet f.cond) (scanLaneFlags f s) &&& s.ten ≠ 0) : s.w.sched.passed = 0 ∧ s.w.sched.yielded = 0 :=
  ht.yield_due_zero (fl := scanLaneFlags f s) hx ⟨_, _, _, _, _, rfl⟩ h hra hfl

/-- WSCAN.fadd of a signalling NaN raises NV, by the statement's count of flags and by the model's. -/
theorem sYielded_scan_raises : scanFlags fSnan sYielded &&& sYielded.ten ≠ 0
    ∧ unionFlags (sYielded.execSet fSnan.cond) (scanLaneFlags fSnan sYielded) &&& sYielded.ten ≠ 0 := by
  decide +kernel

/-- Refutes O25: a WSCAN.fadd of a signalling NaN traps in a clause in which lane 0 has executed YIELD, and the shadow keeps
that. -/
theorem not_floatReductionsFollowTree : ¬ Obligations.FloatReductionsFollowTree := by
  unfold Obligations.FloatReductionsFollowTree
  intro h
  obtain ⟨hra, -⟩ := sYielded_raises
  obtain ⟨hup, hfl⟩ := sYielded_scan_raises
  obtain ⟨-, -, htraps⟩ := h fSnan sYielded
  obtain ⟨t, hx, -, ht⟩ := htraps 0x10008 canTrap_sYielded hra hup
  obtain ⟨-, hyielded⟩ := wscanFadd_yield_due_zero hx ht canTrap_sYielded hra hfl
  exact absurd hyielded (by decide)

end Sys2Proof.Slice0
end
